-- ==== Sys2Proof/Word.lean ====
section
/-! DEFINITION. The words the block moves: its register words and their plainest arithmetic. -/

namespace Sys2Proof

/-- A 64-bit register word (spec/16 R415: `CP_REQ_DATA`). -/
abbrev Word := BitVec 64

/-- One byte. -/
abbrev Byte := BitVec 8

/-- A counter that stays at its highest value (the spec's "saturating"). -/
def satAdd {w : Nat} (a : BitVec w) (n : Nat) : BitVec w :=
  if a.toNat + n < 2 ^ w then BitVec.ofNat w (a.toNat + n) else BitVec.ofNat w (2 ^ w - 1)

/-- One more, saturating. -/
abbrev satInc {w : Nat} (a : BitVec w) : BitVec w := satAdd a 1

/-- A one-bit field. -/
abbrev bit (b : Bool) : BitVec 1 := BitVec.ofBool b

end Sys2Proof
end

