-- ==== Sys2Proof/Operand.lean ====
section
/-! DEFINITION. The operands of the commands: which source, which frame, which part of a word an access reaches. The opcode table
gives its rows no operands; these are the model's (assumption log 1). -/

namespace Sys2Proof

/-- Which half of an 8-byte register word an accepted access reaches (spec/16 R415, `CP_REQ_SIZE` and address bit 2). -/
inductive Acc where
  | full
  | lo
  | hi
  deriving DecidableEq, Repr

/-- A source of the wired collector: a shared source, or private source `k` of a target (spec/02 R35, R50). -/
inductive Src where
  | shared (s : Fin 8192)
  | priv (t : Fin 512) (k : Fin 64)
  deriving DecidableEq, Repr

/-- A word of 64 source bits: word `w` of the shared sources, or a target's private bank (spec/02 R43, R50). -/
inductive SrcWord where
  | shared (w : Fin 128)
  | priv (t : Fin 512)
  deriving DecidableEq, Repr

/-- A configuration word of the wired collector (spec/02 R35, R50). -/
inductive CfgReg where
  | word0 (s : Fin 8192)
  | word1 (s : Fin 8192)
  | privPrio (t : Fin 512) (i : Fin 8)
  | privTrigLo (t : Fin 512)
  | privTrigHi (t : Fin 512)
  | privPol (t : Fin 512)
  | privRingLo (t : Fin 512)
  | privRingHi (t : Fin 512)
  deriving DecidableEq, Repr

/-- A frame through which instances are claimed: the frame of (target, ring), or resident frame `c` (spec/06 R172, spec/08 R211). -/
inductive FrameId where
  | phys (t : Fin 512) (n : Fin 4)
  | slot (c : Fin 2048)
  deriving DecidableEq, Repr

/-- One request at the control port (spec/16 R415). `parity` is `CP_REQ_PAR`; `size8` is `CP_REQ_SIZE` = 1; `sizeOk` is false
when `CP_REQ_SIZE` is out of range; `rescue` is the lane. -/
structure Access where
  addr   : BitVec 26
  size8  : Bool
  sizeOk : Bool
  data   : BitVec 64
  parity : BitVec 8
  master : BitVec 16
  ring   : BitVec 2
  tag    : BitVec 8
  rescue : Bool
  deriving DecidableEq, Repr

/-- A write to a word of STORM bits (spec/02 R48, R49): what is written, and the sources that trip in the same cycle. -/
structure StormWrite where
  data   : BitVec 64
  racing : BitVec 64
  deriving DecidableEq, Repr

/-- The pins of a Pass port: the level of PASSn_RESET_N, and whether PCLKn toggles (spec/03 R64, R87). -/
structure PassPins where
  resetN : Bool
  clock  : Bool
  deriving DecidableEq, Repr

/-- What the lanes' receivers find in one LWCLK cycle (spec/10 R266 to R268): lanes whose amplitude has stayed low, that lose lock, and that have come
above the threshold again. -/
structure LaneEdges where
  low  : BitVec 16
  lol  : BitVec 16
  high : BitVec 16
  deriving DecidableEq, Repr

/-- A lane whose checker finds its pattern, with the bits it has received last (spec/10 R271). -/
structure CheckerFill where
  lane : Fin 16
  fill : BitVec 31
  deriving DecidableEq, Repr

/-- A training frame that a link receives at a flit boundary: its INFO (spec/10 R263). -/
structure InfoFrame where
  link : Fin 16
  info : BitVec 16
  deriving DecidableEq, Repr

/-- A signed image as it stands in memory (spec/11 R293, R298): the 64 header bytes, the signature, and the bytes of CODE, of which
CODE_LENGTH count. -/
structure Image where
  header : BitVec 512
  r      : BitVec 256
  s      : BitVec 256
  code   : List (BitVec 8)
  deriving DecidableEq, Repr

end Sys2Proof
end

