-- ==== Sys2Proof/Syntax.lean ====
section
/-! DEFINITION. The commands of the block: one constructor for each row of spec/opcode_table.json, in the table's order. The operands
are the model's (assumption log 1); each docstring names the rule the table cites. -/

namespace Sys2Proof

/-- A command: a happening at the block's ports, or a timer of its own falling due. -/
inductive Instr where
  /-- R39: The wired collector detects a transition, or a change of asserted level, on a synchronised shared or private wired line and updates PEND and OFFERED for that source. -/
  | wiredLineChange (src : Src) (level : Bool)
  /-- R47: The storm window of a source closes after STORM_WINDOW µs, and the next occurrence opens a new window. -/
  | stormWindowExpiry (src : Src)
  /-- R34: The wired collector emits a ready record, or a held withdraw, to its ridge's couloir in the first FCLK cycle that R34 allows. -/
  | collectorEmit (pos : Fin 4)
  /-- R44: A write to a shared or private EN word applies every bit of the access, and the hardware change wins any same-cycle race. -/
  | enWordWrite (w : SrcWord) (acc : Acc) (data : Word)
  /-- R44: A write to a PEND word makes an occurrence for each written 1 and clears PEND for each written 0 of an edge source; level sources ignore it. -/
  | pendWordWrite (w : SrcWord) (acc : Acc) (data : Word)
  /-- R46: SETPEND or PRIV_SETPEND makes an occurrence of the named edge source. -/
  | setpend (src : Src)
  /-- R46: CLRPEND or PRIV_CLRPEND clears PEND of the named edge source, with a withdraw if the instance was offered. -/
  | clrpend (src : Src)
  /-- R46: SETEN or PRIV_SETEN sets EN of the named source. -/
  | seten (src : Src)
  /-- R46: CLREN or PRIV_CLREN clears EN of the named source, with a withdraw if the instance was offered. -/
  | clren (src : Src)
  /-- R48: A written 1 to a STORM bit clears STORM and restarts the window count, unless a trip sets it in the same cycle. -/
  | stormClear (w : SrcWord) (acc : Acc) (x : StormWrite)
  /-- R36: A write to a source configuration word, or to PRIV_PRIO, PRIV_RING, PRIV_TRIG or PRIV_POL, changes the route, trigger or priority after the wait of R349. -/
  | sourceConfigWrite (r : CfgReg) (acc : Acc) (data : Word)
  /-- R54: An SGI_SEND write leaving the posted-write buffer applies one SGI occurrence to each selected destination and forms a record at once where R39 allows. -/
  | sgiSend (t : Fin 512) (n : Fin 4) (acc : Acc) (data : Word) (tag : BitVec 8)
  /-- R71: A Pass port accepts a beat and applies credit, parity, requester, kind and device checks, the SEQ comparison and the handle hash. -/
  | passRecord (n : Fin 8) (data : BitVec 128) (par : BitVec 16)
  /-- R64: Assertion of PASSn_RESET_N drops LIVE and stops acceptance; its release clears the SEQ reference and restarts credits. -/
  | passReset (n : Fin 8) (pins : PassPins)
  /-- R75: A SYNC whose earlier records, and any marker it needs, are settled completes and releases the records held behind it. -/
  | syncComplete (n : Fin 8)
  /-- R76: A SYNC not completed within 20 µs of acceptance completes with SYNC_ERR and code SYNC_TIMEOUT. -/
  | syncTimeout (n : Fin 8)
  /-- R82: A DOORBELL write leaving the posted-write buffer forms an EVENT or EVENT_PAYLOAD record and checks it, and its response waits for the grant or refusal. -/
  | doorbell (master : BitVec 16) (acc : Acc) (data : Word) (tag : BitVec 8)
  /-- R81: A DB_MARK write stores a (master ID, TAG) marker, evicting the oldest with MARKER_DROPPED when 16 are held. -/
  | dbMark (master : BitVec 16) (data : Word)
  /-- R325: A couloir grants a record, and its ridge translates it, assigns a serial, writes the logbook entry and queues the record for the Plain. -/
  | couloirGrant (pos : Fin 4)
  /-- R103: A walk read returns; the ridge fills the caches, handles the queued records in order, frees their slots and releases the fence. -/
  | walkComplete (pos : Fin 4) (req : BitVec 16) (evt : BitVec 20)
  /-- R139: In its slot an egress queue sends its oldest credited record over a Plain path to the ledge, which compares copies A and B. -/
  | plainTransfer (pos : Fin 4) (ledge : Fin 16) (aGood bGood equal : Bool)
  /-- R140: A belay inserts a landed record into its pending store, with coalescing, level resolution, requester sequencing and spill, and returns the credit. -/
  | belayInsert (b : Fin 256)
  /-- R41: A withdraw record at the belay removes the pending instance, or is discarded because a claim took it, and its serials are acknowledged. -/
  | withdrawAtBelay (b : Fin 256)
  /-- R130: The 16-FCLK settle window of a landed class 2 instance ends and its hold lifts. -/
  | settleWindowExpiry (serial : BitVec 32)
  /-- R134: A move notice at the old belay removes the handle's pending instances and reports their serials, so the ridge can forward them under the new route. -/
  | moveNotice (b : Fin 256)
  /-- R136: A re-rank notice gives every pending instance of the handle the new priority, or removes them at priority 0. -/
  | rerankNotice (b : Fin 256)
  /-- R169: A spill or bivouac refill read returns and the instance is reinserted on chip, or rebuilt from the logbook after a double failure. -/
  | refillComplete (t : Fin 512)
  /-- R180: A gathering group instance becomes due when TIME+1 ticks have passed since it opened. -/
  | groupDeadline (g : BitVec 16)
  /-- R154: A CLAIM read takes the top qualifying instance onto the active stack, updates RUNPRIO, latches the shadow and returns the claim word. -/
  | claim (f : FrameId) (wide : Bool)
  /-- R162: A COMPLETE write searches the ring's active stack and completes the matching entry with the effects of R163. -/
  | complete (f : FrameId) (wide : Bool) (data : Word)
  /-- R167: An UNWIND write completes every entry of its frame's stack while TGT_PRESENT is low, and otherwise counts as a stray. -/
  | unwind (f : FrameId) (data : Word)
  /-- R149: A synchronised change of TGT_PRESENT takes effect at the belay and the levels follow. -/
  | tgtPresentChange (t : Fin 512) (level : Bool)
  /-- R150: 100 µs of TGT_PRESENT low with pending instances reports a STARVATION cairn with detail ABSENT. -/
  | targetAbsentTimeout (t : Fin 512)
  /-- R151: A TGT_ESC pulse sets ESC, adds to COUNT and latches ESC_TIME. -/
  | tgtEsc (t : Fin 512)
  /-- R305: At each ration round boundary every budget is refilled, usage counts restart and masks lift. -/
  | rationRound
  /-- R330: A requester's unbroken wait passing STARVE_LIMIT sets STARVED and raises an ARB_STARVE cairn. -/
  | arbStarve (a : Fin 22) (input : Fin 32)
  /-- R327: A lock held beyond 16 cycles is a fault of its owner, whose sideband is forced absent. -/
  | lockLimit
  /-- R324: A memory-port response is matched to its outstanding identifier and delivered to its requester, or discarded as a late response. -/
  | memResponse (id : BitVec 8) (ack : Bool) (err : BitVec 2) (parityGood : Bool) (latency : BitVec 32)
  /-- R322: A memory request unanswered for 20 µs is treated as poisoned, counted in TIMEOUTS and re-issued once. -/
  | memTimeout (id : BitVec 8)
  /-- R320: The end of a 1,024-round window restarts the tail count and clears IN_BREACH after a clean window. -/
  | breachWindowEnd
  /-- R216: A received flit is checked for CRC and sequence, accepted or discarded, and its ACK, REPLAY_REQ and entries are used. -/
  | flitReceive (k : Fin 16) (flit : BitVec 256)
  /-- R219: The 2 µs replay timer expires and the sender replays every unacknowledged flit, taking the link down after 8 expiries. -/
  | replayTimerExpiry (k : Fin 16)
  /-- R217: A receiver owing an acknowledgement with nothing else to send sends a NOP within 32 LWCLK. -/
  | ackDeadline (k : Fin 16)
  /-- R232: After 64 FCLK cycles with no further ENTRY flit, the sender closes the burst with a TAG flit. -/
  | burstIdleClose (k : Fin 16)
  /-- R232: The GMAC check of a burst ends, and its entries are released or the burst fails under R234. -/
  | burstVerify (k : Fin 16)
  /-- R227: No FULL snapshot within 20 µs resends SNAP_REQ and keeps SNAP_WAIT set. -/
  | snapReqRetry (k : Fin 16)
  /-- R227: No snapshot for 4 × SNAP_PERIOD sets SNAP_LATE. -/
  | snapLate (k : Fin 16)
  /-- R230: After the post-link-up snapshot has been granted or applied, the held EOIs are sent with ORPHANED = 1. -/
  | orphanEoiRelease (k : Fin 16)
  /-- R262: A retry interval elapses, or MARK is found, and a new training attempt of a down link begins. -/
  | linkRetry (k : Fin 16) (mark : Bool)
  /-- R238: Every 20 µs, while the self-check passes, the block sends a HEARTBEAT on its col link. -/
  | heartbeatSend
  /-- R238: 60 µs without a valid HEARTBEAT sets PARTNER_LOST and raises a PARTNER_LOST cairn. -/
  | partnerLost
  /-- R245: Consumed shared credits are returned within 1 µs, or once 8 have accumulated. -/
  | creditReturnTimer
  /-- R236: A locked side that has not yet received a CAP sends another CAP every 1 µs. -/
  | capTimer (k : Fin 16)
  /-- R257: A lane's receiver achieves lock on MARK and INFO over 8 frames. -/
  | laneLock (l : Fin 16) (info : BitVec 16) (inverted : Bool) (skew : Nat)
  /-- R258: When all lanes lock, or 100 µs pass, a side freezes LOCKED, sets READY, then computes the in-use lanes and counts down. -/
  | lockFreeze (k : Fin 16) (peer : BitVec 64)
  /-- R259: An attempt that has not reached data after 400 µs fails. -/
  | trainingTimeout (k : Fin 16)
  /-- R260: A STEP flit is received during stepped start and CHOSEN and AGREED are exchanged. -/
  | stepFlit (k : Fin 16) (flit : BitVec 256)
  /-- R261: After AGREED both ways, the side squelches for 10 µs, switches PLL and divider, and trains at the chosen rate. -/
  | rateStep (k : Fin 16)
  /-- R261: No data within 500 µs of a switch falls back to the next lower shared rate, and failure at code 0 fails the attempt. -/
  | rateStepTimeout (k : Fin 16)
  /-- R263: After IDLE_AFTER of inactivity the link sends an idle frame and holds its lanes below 30 mV. -/
  | idleEntry (k : Fin 16)
  /-- R264: An end with an entry or acknowledgement to send on an idle link wakes, sends the exit burst and settles. -/
  | idleExit (k : Fin 16)
  /-- R265: After 900 µs of idle the transmitter exits with a burst, a settle and one NOP. -/
  | idleKeepalive (k : Fin 16)
  /-- R265: A receiver that sees no exit within 1 ms of an idle frame reports LOS and sets IDLE_TIMEOUT. -/
  | idleTimeout (k : Fin 16)
  /-- R266: A lane's amplitude stays below 50 mV for 64 UI and loss of signal is signalled. -/
  | los (x : LaneEdges)
  /-- R267: CDR frequency error or 8 consecutive CRC failures signal loss of lock on a lane. -/
  | lol (lanes : BitVec 16)
  /-- R270: LREFCLK stops or a quad PLL loses lock; the quad's links go down and a CLOCK_FAULT cairn is raised. -/
  | refLoss (q : Fin 4) (pll : Option Bool)
  /-- R249: A quad completes power-up, PLL lock and LCAL calibration. -/
  | quadPowerUpDone (q : Fin 4) (code : BitVec 6) (inRange : Bool)
  /-- R272: A periodic or one-shot injection moves symbols toward the centre level or inverts a flit's CRC bit. -/
  | injection (l : Fin 16)
  /-- R271: More than 256 errors in 1,024 symbols drops checker lock, counts it and relocks. -/
  | checkerLockLost (l : Fin 16) (symbols : BitVec 7) (symErrs bitErrs : BitVec 11)
  /-- R286: A POST write sets POSTED for a free slot, or is counted in POST_IGNORED. -/
  | post (m : Fin 34) (slot : Fin 8)
  /-- R287: A written 1 to DONE zeroes the slot pair and then clears the DONE bit. -/
  | doneRelease (m : Fin 34) (mask : BitVec 8)
  /-- R291: HELLO returns the interface level, mailbox, active Camp, versions, revision, standby readiness and ENTROPY_READY. -/
  | hello (m : Fin 34)
  /-- R235: SRC_ROUTE writes the pinned route entry of a remote source of a valley link. -/
  | srcRoute (m : Fin 34)
  /-- R235: SRC_PRIO changes the priority of a remote source's pinned entry. -/
  | srcPrio (m : Fin 34)
  /-- R113: DEV_MAP writes a device-table entry and, when DEV_GEN rises, allocates a zeroed event table. -/
  | devMap (m : Fin 34)
  /-- R113: EVT_MAP writes one event entry with the current generation and updates any pinned copy. -/
  | evtMap (m : Fin 34)
  /-- R113: EVT_UNMAP zeroes an event entry, its cache line and its pinned copy. -/
  | evtUnmap (m : Fin 34)
  /-- R111: REQ_PIN copies a requester's entries into a pinned-store block, compacting if needed, and locks its device-cache entry. -/
  | reqPin (m : Fin 34)
  /-- R113: REQ_UNPIN clears PINNED, zeroes the block and unlocks the device-cache entry. -/
  | reqUnpin (m : Fin 34)
  /-- R115: INVALIDATE drops the translation-cache lines of one handle, one requester or all. -/
  | invalidate (m : Fin 34)
  /-- R118: REKEY draws new keys and applies them in the grant stall, with rehash and handover of held records. -/
  | rekey (m : Fin 34)
  /-- R118: The background invalidation sweep of old-epoch or invalidated lines ends and SWEEP clears. -/
  | sweepDone
  /-- R176: CGROUP_SET sets a group's limits and owner, or flushes its instance, and returns the previous record. -/
  | cgroupSet (m : Fin 34)
  /-- R207: VT_CREATE defines a virtual target and allocates its bivouac area. -/
  | vtCreate (m : Fin 34)
  /-- R202: VT_RESIDENT binds a virtual target to a slot and a physical target and restores its saved active entries. -/
  | vtResident (m : Fin 34)
  /-- R202: The last bivouac entry of a new resident is read and its instances' hold lifts. -/
  | bivouacRefillDone (c : Fin 2048)
  /-- R203: VT_RUN starts a resident virtual target on its pair, or stops the running one, and reports the outgoing one's work. -/
  | vtRun (m : Fin 34)
  /-- R204: VT_EVICT writes a virtual target's instances to its bivouac and save area and frees its slot. -/
  | vtEvict (m : Fin 34)
  /-- R207: VT_DESTROY evicts and undefines a virtual target, discarding its saved instances. -/
  | vtDestroy (m : Fin 34)
  /-- R449: Background zeroing of a table-region area completes and the space becomes available. -/
  | zeroingDone
  /-- R313: RATION_SET sets a unit's cycle or byte quota for an activity, subject to admission. -/
  | rationSet (m : Fin 34)
  /-- R318: CONTRACT_SET installs a memory contract that applies at the next round boundary. -/
  | contractSet (m : Fin 34)
  /-- R235: LINK_CONFIG configures a link's lanes, rate, role, sources and authentication, and pins its remote requester. -/
  | linkConfig (m : Fin 34)
  /-- R235: LINK_UP starts training of a configured link and answers once the link is up. -/
  | linkUp (m : Fin 34)
  /-- R235: LINK_DOWN relinquishes the link's pair if it is ACTIVE and takes the link down. -/
  | linkDown (m : Fin 34)
  /-- R233: LINK_KEY loads a key slot of a link and may make it the transmit slot. -/
  | linkKey (m : Fin 34)
  /-- R242: PARTNER_ROLE moves pairs to the other block as a relinquish. -/
  | partnerRole (m : Fin 34)
  /-- R368: SLICE_TEST tests a ridge, belay, lane, Camp pair or cache bank that is out of service and reports PASSED and FAIL_DETAIL. -/
  | sliceTest (m : Fin 34) (found : BitVec 32)
  /-- R367: SLICE_SWAP takes a unit out of service or returns it. -/
  | sliceSwap (m : Fin 34)
  /-- R375: BELAY_LOAD verifies a microcode bank and writes it into the inactive bank of the named belays. -/
  | belayLoad (m : Fin 34) (img : Image)
  /-- R376: BELAY_SWITCH sets SWITCH_PENDING, or with FORCE performs a cover and an immediate switch. -/
  | belaySwitch (m : Fin 34)
  /-- R376: A belay with SWITCH_PENDING makes its other bank active at the end of its next pitch. -/
  | bankSwitch (b : Fin 256)
  /-- R296: FW_STAGE checks and verifies a new Tamri image and stages it in the standby pair. -/
  | fwStage (m : Fin 34) (img : Image)
  /-- R297: FW_ACTIVATE passes the active role to the staged pair at a command boundary. -/
  | fwActivate (m : Fin 34) (loads : Bool)
  /-- R299: The verify engine answers VALID or INVALID exactly 96,000 MCLK cycles after its inputs are loaded. -/
  | signatureVerifyDone (e r s x y : BitVec 256)
  /-- R303: SNAPSHOT returns one object's data. -/
  | snapshot (m : Fin 34)
  /-- R343: CAIRN_CLEAR zeroes one cairn record, or all that the mailbox may clear. -/
  | cairnClear (m : Fin 34)
  /-- R427: ACCESS_SLOT_SET writes one access-slot descriptor, zeroing a guest mailbox when its masters change. -/
  | accessSlotSet (m : Fin 34)
  /-- R302: ROPE_MAP sets the output of one or all Rope inputs and may lock the map. -/
  | ropeMap (m : Fin 34)
  /-- R408: SAVE_NOW writes the whole wake record with SOURCE 2. -/
  | saveNow (m : Fin 34)
  /-- R280: A lockstep mismatch stops the active Camp pair, and the standby pair takes over. -/
  | campLockstep (b : Bool)
  /-- R280: A Camp pair's 100 µs watchdog expires, which is a pair fault. -/
  | campWatchdogExpiry (b : Bool)
  /-- R336: A ridge residue, control-compare or logbook-parity failure isolates the ridge and starts spare takeover. -/
  | ridgeCheck (r : Fin 5) (detail : BitVec 32)
  /-- R336: A ridge that makes no progress for 1,028 FCLK cycles is treated as RIDGE_CHECK. -/
  | ridgeTimeout (r : Fin 5)
  /-- R336: A belay ECC, stack-compare or sequencer-parity failure isolates the belay and starts partner cover. -/
  | belayCheck (b : Fin 256) (detail : BitVec 32)
  /-- R336: A belay pitch running 1,024 DCLK cycles without waiting on memory triggers the watchdog. -/
  | belayStall (b : Fin 256) (address : BitVec 32)
  /-- R380: The scrub engine reads an SRAM word and writes back a corrected one. -/
  | scrubRead (region : Fin 13) (index : Nat) (error : Option Bool) (both : Bool)
  /-- R390: A clock check against BOSC fails, and non-rescue accesses get error responses. -/
  | clockFault (which : Fin 5)
  /-- R338: A queued report is drained into the cairn table, creating a record with a notification or merging into one. -/
  | cairnRecord
  /-- R343: A write of an index to ACK sets that record's NEW to 0. -/
  | cairnAck (index : BitVec 9)
  /-- R362: Every 10 µs the always-on checker closes a round; a pass toggles ROPE_HB_OUT and a failure stops the heartbeat. -/
  | selfCheckRound
  /-- R361: A write to HB_STOP stops the heartbeat with cause 7. -/
  | hbStop (data : Word)
  /-- R365: ISOLATE.GO isolates a ridge or belay and starts spare takeover or partner cover as a planned action. -/
  | isolate (data : Word)
  /-- R27: A filtered emergency input drives its mapped emergency output and sets SEEN. -/
  | ropeInput (i : Fin 64) (level : Bool)
  /-- R384: A PULSE write from ring 0 blanks the mapped output, injects a test pulse and writes PULSE_RESULT after 10 BOSC cycles. -/
  | pulse (ring : BitVec 2) (data : Word) (seen : Bool)
  /-- R391: A TIME_LOAD edge loads TIME_IN into the time counter, unless it would move the counter backwards. -/
  | timeLoad (t : Word)
  /-- R398: COLD_RESET_N low returns all state to reset values and squelches every output. -/
  | coldReset
  /-- R399: Release of cold reset samples the straps, applies the Rope map and begins the start-up sequence. -/
  | coldResetRelease (senior ropeDefault tapMode : Bool) (fwBase : BitVec 40)
  /-- R399: Start-up zeroing of all SRAM completes and SRAM_ZEROED is set. -/
  | sramZeroed
  /-- R399: FAST_READY and POLUIF_AVAIL rise, the wired path goes live and Camp A leaves reset. -/
  | fastReady
  /-- R294: On memory becoming available, the boot ROM checks the descriptor and image and starts Tamri, which sets CAMP_READY; a failure reports FW_VERIFY_FAIL. -/
  | boot (desc : BitVec 512) (img : Image) (memKHz : BitVec 32) (header lastWords : BitVec 512)
  /-- R301: A passing start-up test and the first output bits raise ENTROPY_READY, with Tamri's first REKEY where R117 calls for it. -/
  | entropyReady
  /-- R301: A failed start-up or continuous health test of the noise source reports, drops ENTROPY_READY and retries. -/
  | entropyHealth (kind : Fin 3)
  /-- R401: A falling edge of WARM_RESET_N drains, resets the logic, replays the logbook and reopens the block. -/
  | warmReset
  /-- R401: A write of 0x5752 from ring 0 to WARM_RESET.KEY starts a warm reset. -/
  | warmResetKey (ring : BitVec 2) (data : Word)
  /-- R395: A PARK.REQ write from ring 0 quiesces the block and stops FCLK, DCLK and MCLK. -/
  | parkReq (ring : BitVec 2) (data : Word)
  /-- R395: PARK entry not completed within 100 µs is abandoned with PARK_FAILED. -/
  | parkTimeout
  /-- R396: A wake latch, ENTRY flit, access or target signal returns the block from PARK to ON. -/
  | parkWake
  /-- R406: Qualified POWER_WARN masks activities, drains the buffer and decides between wake record, last words or nothing. -/
  | powerWarn (code : BitVec 8)
  /-- R407: Acknowledgement of the wake record header ends the save. -/
  | wakeRecordDone
  /-- R410: The last cycle of the last-words frame on LW_DATA ends the save. -/
  | lastWordsSent
  /-- R397: VDD_CORE or VDD_SRAM below range isolates the core, drops POLUIF_AVAIL and stops the heartbeat. -/
  | supplyLoss
  /-- R386: Every 10 s one region's stressed oscillator is measured against its reference and SLOWDOWN_PPM is updated. -/
  | wearMeasure (ppm : BitVec 32)
  /-- R386: Each second the highest junction reading adds to one temperature bin. -/
  | tempBin (a b c d : BitVec 8)
  /-- R420: An accepted write to a register with no row of its own is checked, leaves the posted-write buffer and is applied by its unit. -/
  | registerWrite (a : Access)
  /-- R291: Tamri, or the boot ROM after a failed boot, takes a posted command whose COMMAND code it does not know and answers UNSUPPORTED. -/
  | unknownCommand (m : Fin 34)
  /-- R297: A Camp pair that was loading the running or new image in the background finishes or fails, becomes the shadowing standby, or leaves STANDBY_STATE 3 with DEGRADED. -/
  | campLoadDone (loaded : Bool)
  /-- R407: POWER_WARN falls; at the next round boundary the masked activities return, and once the save has ended Tamri re-arms the header with the next SAVE_SEQ. -/
  | powerWarnFall
  /-- R421: An accepted main-lane or rescue-lane read is checked and performed after earlier writes to its frame; a 32-bit read of a low half latches the frame's snapshot, and a refused read leaves a violation record. -/
  | registerRead (a : Access)
  /-- R319: With KEEP_WARM = 1, the scrub requester reads one line of the table region every 5,000 TCLK ticks. -/
  | keepWarmRead
  /-- R271: A lane's pattern checker locks after 256 consecutive error-free symbols, or finds the SSPRQ phase, and begins counting symbols and errors. -/
  | checkerLock (x : CheckerFill)
  /-- R390: A failing clock check against BOSC passes again; CLOCK_OK returns and a warm reset held in step 3 may proceed. -/
  | clockFaultClear (which : Fin 5)
  /-- R270: LREFCLK of a quad toggles again and its PLLs relock, so REF_OK rises and the quad's links may retry. -/
  | refRecovery (q : Fin 4)
  /-- R263: The receiver finds an idle frame at a flit boundary, holds its CDR and equaliser state, sets RX_IDLE and suspends LOS detection. -/
  | idleFrameReceive (x : InfoFrame)
  /-- R264: The receiver sees the peer's exit burst, realigns on its last MARK, clears RX_IDLE and ignores CRC failures for 36 LWCLK cycles. -/
  | exitBurstReceive (k : Fin 16)
  /-- R104: Tamri rewrites a failed device, event, residency-map or access-slot entry from its own record, and clears SUSPECT when the rewrite completes. -/
  | tamriRewrite
  deriving DecidableEq, Repr

end Sys2Proof
end

