-- ==== Sys2Proof/Machine/Bits.lean ====
section
/-! DEFINITION. Bit fields, access halves, byte order and the CRC-32 of spec/09 R213. -/

namespace Sys2Proof.Machine

/-- Bits `lo+w-1 : lo` of a word. -/
abbrev field {n : Nat} (x : BitVec n) (lo w : Nat) : BitVec w := BitVec.extractLsb' lo w x

/-- One bit of a word. -/
abbrev bitAt {n : Nat} (x : BitVec n) (i : Nat) : Bool := x.getLsbD i

/-- A value put at bit `lo` of a 64-bit word that is 0 there. -/
def put {w : Nat} (lo : Nat) (v : BitVec w) : Word := (v.setWidth 64) <<< lo

/-- A flag put at bit `i`. -/
def putBit (i : Nat) (b : Bool) : Word := put i (BitVec.ofBool b)

/-- A number put at bit `lo`, in `w` bits. -/
def putNat (lo w n : Nat) : Word := put lo (BitVec.ofNat w n)

/-- The mask of the bits an access reaches (spec/16 R415). -/
def accMask : Acc → Word
  | .full => 0xFFFF_FFFF_FFFF_FFFF
  | .lo => 0x0000_0000_FFFF_FFFF
  | .hi => 0xFFFF_FFFF_0000_0000

/-- The data of an access at the bits it reaches: a 4-byte access carries bits 31:0 (spec/16 R415). -/
def accData (a : Acc) (d : Word) : Word :=
  match a with
  | .full => d
  | .lo => d &&& 0xFFFF_FFFF
  | .hi => (d &&& 0xFFFF_FFFF) <<< 32

/-- A word after a write through an access: the bits it reaches take the data. -/
def merge (a : Acc) (old d : Word) : Word := (old &&& ~~~(accMask a)) ||| (accData a d)

/-- Whether an access reaches bit `i`. -/
def reaches (a : Acc) (i : Nat) : Bool := (accMask a).getLsbD i

/-- Bit `i` written as 1 by an access. -/
def wrote1 (a : Acc) (d : Word) (i : Nat) : Bool := (accData a d).getLsbD i

/-- A write-1-to-clear bit after a write (spec/00 R15). -/
def w1c (a : Acc) (d : Word) (i : Nat) (old : Bool) : Bool := old && !(wrote1 a d i)

/-- A W1C field of `w` bits at `lo` after a write. -/
def w1cField {w : Nat} (a : Acc) (d : Word) (lo : Nat) (old : BitVec w) : BitVec w :=
  old &&& ~~~(field (accData a d) lo w)

/-- Odd parity of one byte: whether byte and parity bit together hold an odd number of ones (spec/03 R57, spec/16 R415). -/
def oddOk (b : BitVec 8) (p : Bool) : Bool :=
  let x := b ^^^ (b >>> 4)
  let y := x ^^^ (x >>> 2)
  let z := y ^^^ (y >>> 1)
  z.getLsbD 0 != p

/-- Parity of the low `n` bytes of a word against the low `n` parity bits. -/
def parityOk {m k : Nat} (x : BitVec m) (p : BitVec k) : Nat → Bool
  | 0 => true
  | n + 1 => oddOk (field x (8 * n) 8) (p.getLsbD n) && parityOk x p n

/-- One step of the reflected CRC-32 (polynomial 0x04C1_1DB7, reflected 0xEDB8_8320). -/
def crcBit (c : BitVec 32) : BitVec 32 :=
  if c.getLsbD 0 then (c >>> 1) ^^^ 0xEDB88320 else c >>> 1

/-- The CRC register after one byte. -/
def crcByte (c : BitVec 32) (b : BitVec 8) : BitVec 32 :=
  let c := c ^^^ b.setWidth 32
  crcBit (crcBit (crcBit (crcBit (crcBit (crcBit (crcBit (crcBit c)))))))

/-- The CRC register after `n` bytes of `x`, from byte `i`. -/
def crcFrom {m : Nat} (x : BitVec m) : Nat → Nat → BitVec 32 → BitVec 32
  | _, 0, c => c
  | i, n + 1, c => crcFrom x (i + 1) n (crcByte c (field x (8 * i) 8))

/-- CRC-32 over the low `n` bytes (spec/09 R213: initial value and final XOR 0xFFFF_FFFF). -/
def crc32 {m : Nat} (x : BitVec m) (n : Nat) : BitVec 32 := ~~~(crcFrom x 0 n 0xFFFFFFFF)

/-- The bytes of a value, lowest first (little-endian, spec/00 R14), `n` of them from byte `i`. -/
def bytesFrom {m : Nat} (x : BitVec m) : Nat → Nat → List (BitVec 8)
  | _, 0 => []
  | i, n + 1 => field x (8 * i) 8 :: bytesFrom x (i + 1) n

/-- The lowest set bit of a 4-bit mask. -/
def lowestBit (m : BitVec 4) : BitVec 4 := m &&& (~~~m + 1)

/-- The number of set bits among the low `n`. -/
def popBelow {m : Nat} (x : BitVec m) : Nat → Nat
  | 0 => 0
  | n + 1 => popBelow x n + (if x.getLsbD n then 1 else 0)

/-- A bit of a word set to a value. -/
def setBit {n : Nat} (x : BitVec n) (i : Nat) (b : Bool) : BitVec n :=
  if b then x ||| (BitVec.ofNat n 1 <<< i) else x &&& ~~~(BitVec.ofNat n 1 <<< i)

end Sys2Proof.Machine
end

