-- ==== Sys2Proof/Machine/Curve.lean ====
section
/-! DEFINITION. The verify engine (spec/11 R299): ECDSA over NIST P-256. The spec names the curve; its constants are taken from FIPS 186-4 (assumption
log 11), its arithmetic is the group law in Jacobian coordinates. -/

namespace Sys2Proof.Machine

/-- The field prime of NIST P-256 (assumption log 11). -/
def p256p : Nat := 0xffffffff00000001000000000000000000000000ffffffffffffffffffffffff

/-- The group order of NIST P-256 (assumption log 11). -/
def p256n : Nat := 0xffffffff00000000ffffffffffffffffbce6faada7179e84f3b9cac2fc632551

/-- The curve constant b of NIST P-256 (assumption log 11). -/
def p256b : Nat := 0x5ac635d8aa3a93e7b3ebbd55769886bc651d06b0cc53b0f63bce3c3e27d2604b

/-- The base point of NIST P-256 (assumption log 11). -/
def p256x : Nat := 0x6b17d1f2e12c4247f8bce6e563a440f277037d812deb33a0f4a13945d898c296
def p256y : Nat := 0x4fe342e2fe1a7f9b8ee7eb4a7c0f9e162bce33576b315ececbb6406837bf51f5

/-- Whether (x, y) satisfies y² = x³ − 3x + b modulo p. -/
def onCurve (x y : Nat) : Bool := (y * y) % p256p = (x * x * x + (p256p - 3) * x + p256b) % p256p

/-- Powers modulo `m`: the exponent's bits from bit 255 down, the first `n` of them. -/
def powMod (m b e : Nat) : Nat → Nat
  | 0 => 1
  | n + 1 =>
    let h := powMod m b e n
    (h * h * (if Nat.testBit e (255 - n) then b else 1)) % m

/-- The inverse modulo a prime. -/
def invMod (m a : Nat) : Nat := powMod m a (m - 2) 256

/-- A point in Jacobian coordinates: x = X/Z², y = Y/Z³, the point at infinity where Z is 0. -/
structure JPoint where
  x : Nat
  y : Nat
  z : Nat
  deriving DecidableEq, Repr

/-- Twice a point. -/
def JPoint.twice (a : JPoint) : JPoint :=
  let zz := (a.z * a.z) % p256p
  let yy := (a.y * a.y) % p256p
  let b := (a.x * yy) % p256p
  let m := (3 * (a.x + zz) * (a.x + p256p - zz)) % p256p
  let x := (m * m + 8 * (p256p - b)) % p256p
  { x := x, y := (m * (4 * b + p256p - x) + 8 * yy * (p256p - yy)) % p256p, z := (2 * a.y * a.z) % p256p }

/-- The sum of two points. -/
def JPoint.add (a b : JPoint) : JPoint :=
  if a.z = 0 then b
  else if b.z = 0 then a
  else
    let za := (a.z * a.z) % p256p
    let zb := (b.z * b.z) % p256p
    let u := (a.x * zb) % p256p
    let v := (b.x * za) % p256p
    let s := (a.y * zb * b.z) % p256p
    let t := (b.y * za * a.z) % p256p
    let h := (v + p256p - u) % p256p
    let r := (t + p256p - s) % p256p
    if h = 0 then (if r = 0 then a.twice else { x := 1, y := 1, z := 0 })
    else
      let hh := (h * h) % p256p
      let hhh := (hh * h) % p256p
      let w := (u * hh) % p256p
      let x := (r * r + (p256p - hhh) + 2 * (p256p - w)) % p256p
      { x := x, y := (r * (w + p256p - x) + s * (p256p - hhh)) % p256p, z := (a.z * b.z * h) % p256p }

/-- `u`·G + `v`·Q, from the first `n` bits of the scalars on: `q` is Q, `gq` is G + Q. -/
def jointMul (q gq : JPoint) (u v : Nat) : Nat → JPoint
  | 0 => { x := 1, y := 1, z := 0 }
  | n + 1 =>
    let a := (jointMul q gq u v n).twice
    match Nat.testBit u (255 - n), Nat.testBit v (255 - n) with
    | false, false => a
    | true, false => a.add { x := p256x, y := p256y, z := 1 }
    | false, true => a.add q
    | true, true => a.add gq

/-- The x-coordinate of u₁G + u₂Q, `none` for the point at infinity (spec/11 R299). -/
def ecdsaPoint (e r s x y : Nat) : Option Nat :=
  let w := invMod p256n s
  let q : JPoint := { x := x, y := y, z := 1 }
  let a := jointMul q (JPoint.add { x := p256x, y := p256y, z := 1 } q) ((e * w) % p256n) ((r * w) % p256n) 256
  if a.z = 0 then none else some ((a.x * invMod p256p (a.z * a.z)) % p256p)

/-- The verify engine's answer (spec/11 R299). -/
def ecdsaValid (e r s x y : BitVec 256) : Bool :=
  let inRange (v : BitVec 256) : Bool := decide (0 < v.toNat) && decide (v.toNat < p256n)
  inRange r && inRange s && decide (x.toNat < p256p) && decide (y.toNat < p256p) && !(x == 0 && y == 0) && onCurve x.toNat y.toNat &&
  (match ecdsaPoint e.toNat r.toNat s.toNat x.toNat y.toNat with
   | none => false
   | some px => px % p256n == r.toNat)

end Sys2Proof.Machine
end

