-- ==== Sys2Proof/Config.lean ====
section
/-! DEFINITION. What the spec leaves open, as opaque constants (no body): a statement holds whatever they are. Each is applied to the
operands it depends on, or to the counter of free values drawn so far (`State.freeCtr`). Assumption log 2. -/

namespace Sys2Proof.Config

/-- The bits of the noise source's `n`-th draw (spec/04 R118, spec/09 R232): keys and salts. -/
opaque noise : Nat → BitVec 128

/-- An address bits 51:12 that Tamri allocates for the `n`-th allocation (spec/04 R99, R102; spec/08 R205; spec/11 R292). -/
opaque alloc : Nat → BitVec 40

/-- The x and y of the boot ROM's public keys 0 and 1 (spec/11 R293), which `State.reset` holds. -/
opaque romKey : Bool → BitVec 256 × BitVec 256

/-- A value the spec states no result for: draw `n`. -/
opaque freeValue : Nat → BitVec 64

/-- How many records a valley link's receive queue holds (spec/01 R29 gives it no size). -/
opaque linkQueueDepth : Nat

/-- Symbol `i` of the short stress pattern of IEEE 802.3 (spec/10 R271 names it and does not give it). -/
opaque ssprq : Nat → BitVec 2

/-- The other 16 bytes of a line of the logbook overflow region: those of whatever entry shares it (draw `n`). -/
opaque neighbour : Nat → BitVec 128

end Sys2Proof.Config
end

