-- ==== Sys2Proof/Machine/Tbl.lean ====
section
/-! DEFINITION. Sparse tables in one canonical form: keys strictly rising, no row equal to what an unlisted key reads as. Equal tables
are then equal data. -/

namespace Sys2Proof.Machine

/-- A sparse table: pairs of a key and a value. -/
abbrev Tbl (α : Type) := List (Nat × α)

/-- The value at a key; `d` where no row has it. -/
def Tbl.get {α : Type} (d : α) : Tbl α → Nat → α
  | [], _ => d
  | (k, v) :: rest, key => if k = key then v else Tbl.get d rest key

/-- The table without the rows of a key. -/
def Tbl.erase {α : Type} (t : Tbl α) (key : Nat) : Tbl α :=
  t.filter (fun p => p.1 != key)

/-- A row put before the first row with a higher key. -/
def Tbl.place {α : Type} (key : Nat) (v : α) : Tbl α → Tbl α
  | [] => [(key, v)]
  | (k, w) :: rest => if key < k then (key, v) :: (k, w) :: rest else (k, w) :: Tbl.place key v rest

/-- The table with a key's value set; a value equal to the unlisted value removes the row. -/
def Tbl.set {α : Type} [DecidableEq α] (d : α) (t : Tbl α) (key : Nat) (v : α) : Tbl α :=
  if v = d then Tbl.erase t key else Tbl.place key v (Tbl.erase t key)

/-- The table with a key's value changed. -/
def Tbl.upd {α : Type} [DecidableEq α] (d : α) (t : Tbl α) (key : Nat) (f : α → α) : Tbl α :=
  Tbl.set d t key (f (Tbl.get d t key))

/-- Keys strictly rising from a lower bound, no row equal to the unlisted value. -/
def Tbl.wfFrom {α : Type} [DecidableEq α] (d : α) : Option Nat → Tbl α → Bool
  | _, [] => true
  | lo, (k, v) :: rest =>
    (match lo with | none => true | some l => decide (l < k)) && decide (v ≠ d) && Tbl.wfFrom d (some k) rest

/-- The canonical form. -/
def Tbl.wf {α : Type} [DecidableEq α] (d : α) (t : Tbl α) : Bool := Tbl.wfFrom d none t

/-- The first `k` below `n`, counting from `i`, that satisfies `p`. -/
def firstFrom (p : Nat → Bool) : Nat → Nat → Option Nat
  | _, 0 => none
  | i, n + 1 => if p i then some i else firstFrom p (i + 1) n

/-- The first number below `n` that satisfies `p`. -/
def firstBelow (n : Nat) (p : Nat → Bool) : Option Nat := firstFrom p 0 n

/-- A list without its first element that satisfies `p`. -/
def dropFirst {α : Type} (p : α → Bool) : List α → List α
  | [] => []
  | a :: as => if p a then as else a :: dropFirst p as

/-- The elements of a list with their places. -/
def enumFrom {α : Type} : Nat → List α → List (Nat × α)
  | _, [] => []
  | i, a :: as => (i, a) :: enumFrom (i + 1) as

/-- The best element of a list under `better` (true: the first argument replaces the second). -/
def bestOf {α : Type} (better : α → α → Bool) : List α → Option α
  | [] => none
  | a :: as => match bestOf better as with
    | none => some a
    | some b => if better b a then some b else some a

/-- Fold over the numbers `i`, `i+1`, …, `i+n-1`. -/
def foldFrom {σ : Type} (f : Nat → σ → σ) : Nat → Nat → σ → σ
  | _, 0, s => s
  | i, n + 1, s => foldFrom f (i + 1) n (f i s)

/-- Fold over the numbers below `n`, rising. -/
def foldBelow {σ : Type} (n : Nat) (f : Nat → σ → σ) (s : σ) : σ := foldFrom f 0 n s

/-- Fold over a list, first element first. -/
def foldList {α σ : Type} (f : α → σ → σ) : List α → σ → σ
  | [], s => s
  | a :: as, s => foldList f as (f a s)

end Sys2Proof.Machine
end

