-- ==== Sys2Proof/Machine/Types.lean ====
section
/-! DEFINITION. The records of the event journey: sources, records, routes, instances, the ridges' and belays' state (spec/01 to spec/08,
spec/13). Each structure has its reset value beside it; R398 of spec/15 gives 0 where no line says otherwise. -/

namespace Sys2Proof.Machine

/-- A handle (CLASS, requester, event), spec/01 R18. -/
structure Handle where
  cls : BitVec 2
  req : BitVec 16
  evt : BitVec 20
  deriving DecidableEq, Repr

/-- What an instance stands for: a handle, or a virtual target's doorbell (spec/08 R199: doorbells are not handles). -/
inductive Origin where
  | handle (h : Handle)
  | doorbell (v : BitVec 16)
  deriving DecidableEq, Repr

/-- The kind of a record, as its logbook entry names it (spec/13 R346). -/
inductive RKind where
  | event
  | eventPayload
  | levelAssert
  | levelDeassert
  | withdraw
  | merge
  | doorbell
  deriving DecidableEq, Repr

/-- One wired or private source (spec/02 R35, R39, R50): configuration word fields, the five bits the collector keeps, and what it
keeps of the line. `line` is the synchronised level, `ref` the edge reference (R33, R37), `wdraw` the waiting withdraw (R34) and `byWrite` that a
write caused it (R41), `weight` the occurrences PEND stands for and `mergeOwed` the merge records still to be emitted (R179), `sender` the SGI
PAYLOAD (R54, R447), `winOpen winStart winCount` the storm window (R47), `cfgBad` both configuration copies failed (spec/13 R354). -/
structure Source where
  virt        : Bool
  ring        : BitVec 2
  trigger     : BitVec 2
  prio        : BitVec 8
  cgroup      : BitVec 16
  target      : BitVec 16
  polarity    : Bool
  stormWindow : BitVec 16
  stormLimit  : BitVec 16
  merged      : BitVec 16
  pend        : Bool
  act         : Bool
  en          : Bool
  storm       : Bool
  offered     : Bool
  wdraw       : Bool
  byWrite     : Bool
  line        : Bool
  ref         : Bool
  weight      : BitVec 16
  mergeOwed   : Nat
  sender      : BitVec 16
  winOpen     : Bool
  winStart    : BitVec 64
  winCount    : Nat
  cfgBad      : Bool
  deriving DecidableEq, Repr

/-- A source at reset (spec/02 R35, R43: every field 0). -/
def Source.reset : Source :=
  { virt := false, ring := 0, trigger := 0, prio := 0, cgroup := 0, target := 0, polarity := false, stormWindow := 0, stormLimit := 0,
    merged := 0, pend := false, act := false, en := false, storm := false, offered := false, wdraw := false, byWrite := false, line := false,
    ref := false, weight := 0, mergeOwed := 0, sender := 0, winOpen := false, winStart := 0, winCount := 0, cfgBad := false }

/-- The storm registers of a private bank, offset 0x198 (spec/02 R50). -/
structure BankStorm where
  window : BitVec 16
  limit  : BitVec 16
  deriving DecidableEq, Repr

def BankStorm.reset : BankStorm := { window := 0, limit := 0 }

/-- A direct write that changes a route and waits under spec/13 R349; `wid` names the control-port write whose response follows it. -/
structure CfgWait where
  reg  : CfgReg
  acc  : Acc
  data : BitVec 64
  wid  : Option Nat
  deriving DecidableEq, Repr

/-- The wired collector (spec/02). Sources are keyed by number: shared source `s` is `s`, private source `k` of target `t` is
8192 + 64·t + k. `live`: the lines are observed (R33). -/
structure Wired where
  src     : Tbl Source
  bank    : Tbl BankStorm
  waiting : List CfgWait
  live    : Bool
  deriving DecidableEq, Repr

/-- A record on its way (spec/03 R67), before translation. `input` is the couloir input (spec/01 R17); `unchecked` marks a record the
port passed on without checks 5 to 7 (R73); `devGen` is DEV_GEN as the port saw it (spec/04 R106); `wid` names the control-port write
whose response waits for the grant (R83); `count` is the COUNT of a record that promotion presents (spec/09 R243), else 0; `snap` marks a
record of a level snapshot (spec/09 R230); `written` marks a withdraw that a write caused (spec/02 R41); `raw` is the record or write data as received,
`par` its parity, for the last-error registers. -/
structure Rec where
  origin    : Origin
  kind      : RKind
  payload   : BitVec 16
  srcTime   : BitVec 48
  input     : Nat
  arrival   : BitVec 40
  replayed  : Bool
  count     : BitVec 16
  unchecked : Bool
  devGen    : BitVec 32
  wid       : Option Nat
  snap      : Bool
  written   : Bool
  raw       : BitVec 128
  par       : BitVec 16
  deriving DecidableEq, Repr

/-- An entry of a Pass port's buffer (spec/03 R75 to R78): a record with the position its handle hashes to, or a SYNC with its TAG,
whether it carries MARK, its requester, its acceptance tick, and the doorbell arrival count its marker fixed once matched. -/
inductive PassItem where
  | record (r : Rec)
  | sync (tag : BitVec 16) (mark : Bool) (req : BitVec 16) (accepted : Nat) (marker : Option (BitVec 40))
  deriving DecidableEq, Repr

/-- A Pass port (spec/03 R57 to R87). `owed` is the owed count W and `credit` the sender's C: the credits returned and not yet used (R60, R62).
`syncDone` holds the SYNC_DONE pulses driven (TAG, ERR), newest first. `pclk` is none while PCLK runs; while it stands, the tick from which PCLK_OK reads 0
(R87, spec/15 R389). It runs at reset (DESIGN CHOICE, assumption log 23). -/
structure PassPort where
  live         : Bool
  resetN       : Bool
  pclk         : Option Nat
  buf          : List PassItem
  credit       : Nat
  owed         : Nat
  seqRef       : Option (BitVec 8)
  arrival      : BitVec 40
  accepted     : BitVec 64
  refused      : BitVec 64
  seqGaps      : BitVec 32
  syncTimeouts : BitVec 32
  fullCycles   : BitVec 64
  err          : BitVec 14
  lastErr      : BitVec 128
  lastCode     : BitVec 4
  lastPar      : BitVec 16
  lastTime     : BitVec 32
  resetDropped : BitVec 6
  syncDone     : List (BitVec 16 × Bool)
  deriving DecidableEq, Repr

def PassPort.reset : PassPort :=
  { live := false, resetN := false, pclk := none, buf := [], credit := 0, owed := 0, seqRef := none, arrival := 0, accepted := 0, refused := 0,
    seqGaps := 0, syncTimeouts := 0, fullCycles := 0, err := 0, lastErr := 0, lastCode := 0, lastPar := 0, lastTime := 0,
    resetDropped := 0, syncDone := [] }

/-- An unmatched marker of the doorbell (spec/03 R77): master ID, TAG, and the doorbell arrival count when it was stored. -/
structure Marker where
  master  : BitVec 16
  tag     : BitVec 16
  arrival : BitVec 40
  deriving DecidableEq, Repr

/-- The MSI doorbell (spec/03 R81, R89). `arrival` is the arrival count of couloir input 8 (spec/05 R124). -/
structure Door where
  markers     : List Marker
  arrival     : BitVec 40
  err         : BitVec 14
  accepted    : BitVec 64
  refused     : BitVec 64
  lastErrData : BitVec 64
  lastCode    : BitVec 4
  lastReq     : BitVec 16
  lastTime    : BitVec 32
  deriving DecidableEq, Repr

def Door.reset : Door :=
  { markers := [], arrival := 0, err := 0, accepted := 0, refused := 0, lastErrData := 0, lastCode := 0, lastReq := 0, lastTime := 0 }

/-- A route (spec/04 R90). -/
structure Route where
  target : BitVec 16
  virt   : Bool
  ring   : BitVec 2
  prio   : BitVec 8
  cgroup : BitVec 16
  vector : BitVec 24
  level  : Bool
  deriving DecidableEq, Repr

def Route.reset : Route := { target := 0, virt := false, ring := 0, prio := 0, cgroup := 0, vector := 0, level := false }

/-- A device-table entry (spec/04 R100). `suspect` is what SNAPSHOT reports under R104; `pages` is Tamri's record of the size of its event table, which
the entry does not hold. -/
structure DevEntry where
  valid     : Bool
  pinned    : Bool
  owner     : BitVec 6
  eventBits : BitVec 5
  ingress   : BitVec 9
  devGen    : BitVec 32
  pinBase   : BitVec 14
  evtBase   : BitVec 40
  suspect   : Bool
  pages     : Nat
  deriving DecidableEq, Repr

/-- A never-mapped requester: every field 0 except OWNER, 0x3F (spec/04 R100). -/
def DevEntry.reset : DevEntry :=
  { valid := false, pinned := false, owner := 0x3F, eventBits := 0, ingress := 0, devGen := 0, pinBase := 0, evtBase := 0, suspect := false,
    pages := 0 }

/-- A translation entry (spec/04 R101). -/
structure EvtEntry where
  valid   : Bool
  pinned  : Bool
  route   : Route
  gen     : BitVec 32
  suspect : Bool
  deriving DecidableEq, Repr

def EvtEntry.reset : EvtEntry := { valid := false, pinned := false, route := Route.reset, gen := 0, suspect := false }

/-- A line of the device-table cache (spec/04 R106): requester, entry, locked. The list is in recency order, most recent first. -/
structure DevLine where
  req    : BitVec 16
  entry  : DevEntry
  locked : Bool
  deriving DecidableEq, Repr

/-- A line of the translation cache (spec/04 R107, R108): set, tag, key epoch, entry; most recent first. -/
structure XLine where
  set   : BitVec 13
  tag   : BitVec 23
  epoch : Nat
  entry : EvtEntry
  deriving DecidableEq, Repr

/-- A block of the pinned store (spec/04 R111): requester, base and length. -/
structure PinBlock where
  req  : BitVec 16
  base : Nat
  len  : Nat
  deriving DecidableEq, Repr

/-- A table entry that failed twice and that Tamri rewrites from its own record (spec/04 R104, spec/08 R193, spec/16 R426), or an entry of the pinned store that
is reloaded from its DRAM master (spec/13 R354). -/
inductive Rewrite where
  | device (q : BitVec 16)
  | event (q : BitVec 16) (e : BitVec 20)
  | map (v : BitVec 16)
  | slot (i : Nat)
  | pinned (i : Nat)
  deriving DecidableEq, Repr

/-- A pending instance (spec/05, spec/06): what it stands for, its serial and the serials merged into it, the claim-word parts, where it is
offered (target, ring, and the resident slot it is tagged with, spec/08 R195), its place in arrival order, and why it may be held.
`settle` is the settle window (spec/05 R130); `group due counted count` are its coalescing state (spec/07); `spilled` places it in the spill pool,
`openEntry` in its open part (spec/06 R170) and `line` at its DRAM line, as a bivouac does; `refilled` marks an instance read back from its bivouac,
older than what landed meanwhile (spec/08 R202); `moving` marks a spilled instance that moves when it is refilled (spec/05 R134);
`promoted` marks an instance a promotion presented (spec/09 R243). -/
structure Inst where
  origin    : Origin
  serial    : BitVec 32
  more      : List (BitVec 32)
  level     : Bool
  prio      : BitVec 8
  payload   : BitVec 16
  vector    : BitVec 24
  replayed  : Bool
  counted   : Bool
  count     : BitVec 16
  target    : BitVec 9
  ring      : BitVec 2
  slot      : Option (BitVec 11)
  input     : Nat
  arrival   : BitVec 40
  landed    : BitVec 64
  settle    : Bool
  group     : BitVec 16
  due       : Bool
  spilled   : Bool
  openEntry : Bool
  line      : BitVec 47
  refilled  : Bool
  moving    : Bool
  promoted  : Bool
  newPrio   : Option (BitVec 8)
  deriving DecidableEq, Repr

/-- An entry of an active stack (spec/06 R166): the instance as claimed, its claim word, and for a class 2 level instance ASSERTED, the recorded
LEVEL_ASSERT serial and the mark of R165. `notices` records that it was claimed while the block was ACTIVE for its pair (spec/09 R239). -/
structure Active where
  inst     : Inst
  word     : BitVec 64
  asserted : Bool
  recorded : Option (BitVec 32)
  marked   : Bool
  notices  : Bool
  deriving DecidableEq, Repr

/-- A record past translation: its route, its serial and where it goes: a target's pair, tagged with a slot, or a bivouac. -/
structure Routed where
  record : Rec
  serial : BitVec 32
  route  : Route
  target : BitVec 9
  ring   : BitVec 2
  slot   : Option (BitVec 11)
  biv    : Option (BitVec 16)
  deriving DecidableEq, Repr

/-- What crosses the Plain (spec/05 R134, R136, R139): a record, a moved instance, a move notice to the old belay, a re-rank notice. -/
inductive PItem where
  | record (r : Routed)
  | moved (i : Inst) (biv : Option (BitVec 16))
  | moveNotice (h : Handle) (target : BitVec 9)
  | rerank (h : Handle) (prio : BitVec 8) (target : BitVec 9)
  deriving DecidableEq, Repr

/-- A landed item with the position that sent it (spec/05 R140). -/
structure Landed where
  pos  : BitVec 2
  item : PItem
  deriving DecidableEq, Repr

/-- An outstanding walk (spec/04 R103): its handle, the records queued on it in order (the first started it), whether the device entry is
still to be read and whether the walk has read it, and the tick it started at. -/
structure Walk where
  handle  : Handle
  queue   : List Rec
  readDev : Bool
  gotDev  : Bool
  started : Nat
  deriving DecidableEq, Repr

/-- A move in progress (spec/05 R134): the handle, the target it leaves, and whether the notice has been applied. -/
structure Move where
  handle : Handle
  target : BitVec 9
  done   : Bool
  deriving DecidableEq, Repr

/-- A record that waits at its ridge in grant order: behind a move (spec/05 R134), a residency change (spec/08 R202), a map entry under rewrite
(spec/08 R193) or a full logbook (spec/01 R29). `counted`: its lookup has been counted (spec/04 R120); `fence`: its walk has ended and its fence stands
until it is forwarded (spec/05 R131). -/
structure Waiting where
  item    : Rec
  counted : Bool
  fence   : Bool
  deriving DecidableEq, Repr

/-- A ridge position (spec/04 R95): the serial counter, outstanding walks, records that wait (`waits`), parked class 2 items with their ledge (spec/05
R140), moves, the egress queue and the one-entry hold of each ledge, and in `stuck` the item whose ledge's hold was full, which stops the
position, with what left translation behind it (spec/05 R140). `unserved` is set while no ridge serves the position (spec/13 R351), with the tick since
when; `withhold`: inputs 0 to 8 are withheld (spec/04 R103); `stalled`: the couloir withholds every grant
while a SLICE_SWAP of the ridge waits (spec/14 R369). -/
structure Pos where
  serial   : BitVec 30
  walks    : List Walk
  waits    : List Waiting
  parked   : List (Nat × PItem)
  moves    : List Move
  egress   : Tbl (List PItem)
  hold     : Tbl (List PItem)
  stuck    : List PItem
  unserved : Option Nat
  withhold : Bool
  stalled  : Bool
  deriving DecidableEq, Repr

def Pos.reset : Pos :=
  { serial := 0, walks := [], waits := [], parked := [], moves := [], egress := [], hold := [], stuck := [], unserved := none, withhold := false, stalled := false }

/-- A ridge's frame (spec/04 R120) and what recovery and test keep of it. -/
structure Ridge where
  role          : BitVec 3
  position      : BitVec 2
  walkFail      : Bool
  withheld      : Bool
  forwarded     : BitVec 64
  pinnedHits    : BitVec 64
  cacheHits     : BitVec 64
  eventWalks    : BitVec 64
  deviceWalks   : BitVec 64
  direct        : BitVec 64
  disabledDrops : BitVec 32
  walkFailed    : BitVec 32
  withholdCyc   : BitVec 64
  longestWalk   : BitVec 32
  lastFailAddr  : BitVec 64
  lastFailH     : BitVec 38
  lastFailKind  : BitVec 2
  passedTest    : Bool
  swapped       : Bool
  deriving DecidableEq, Repr

/-- Ridge `r` at reset: ridges 0 to 3 active at position `r`, ridge 4 the spare (spec/04 R120). -/
def Ridge.reset (r : Nat) : Ridge :=
  { role := if r = 4 then 1 else 0, position := if r = 4 then 0 else BitVec.ofNat 2 r, walkFail := false, withheld := false, forwarded := 0,
    pinnedHits := 0, cacheHits := 0, eventWalks := 0, deviceWalks := 0, direct := 0, disabledDrops := 0, walkFailed := 0, withholdCyc := 0,
    longestWalk := 0, lastFailAddr := 0, lastFailH := 0, lastFailKind := 0, passedTest := false, swapped := false }

/-- A REQ_PIN or LINK_CONFIG that compacts the pinned store before it commits (spec/04 R111, spec/11 R290): its mailbox, slot and request. -/
structure PinJob where
  mbox : Nat
  slot : Nat
  link : Bool
  req  : BitVec 512
  deriving DecidableEq, Repr

/-- Translation (spec/04). `dev` and `evt` are the DRAM tables, `evt` keyed by requester · 2^20 + event. `jobs` are the commands that compact the
pinned store, the running one first; `moving` is the requester whose block moves and the base it moves to (R111). -/
structure Xlat where
  ridge     : List Ridge
  pos       : List Pos
  ridgeMap  : List (BitVec 3)
  dkey      : BitVec 38
  ckey      : BitVec 72
  key0      : Bool
  sweep     : Bool
  epoch     : Nat
  rekeys    : BitVec 32
  evictions : BitVec 64
  fenced    : BitVec 16
  fenceTest : BitVec 16
  fenceSwap : BitVec 16
  bankEcc   : List (Nat × Nat)
  scrubAt   : Nat × Nat
  scrubNow  : List (Nat × Nat)
  scrubLast : List (Nat × Nat)
  dev       : Tbl DevEntry
  evt       : Tbl EvtEntry
  pinned    : Tbl EvtEntry
  blocks    : List PinBlock
  jobs      : List PinJob
  moving    : Option (BitVec 16 × Nat)
  devCache  : List DevLine
  cache     : List XLine
  rewrites  : List Rewrite
  deriving DecidableEq, Repr

/-- One Plain path's copies (spec/05 R142): recent corrected errors of copy A and B as ticks, the retired copy, the last uncorrectable tick. -/
structure PathCopy where
  errA    : List Nat
  errB    : List Nat
  retired : Option Bool
  lastUnc : Option Nat
  deriving DecidableEq, Repr

def PathCopy.reset : PathCopy := { errA := [], errB := [], retired := none, lastUnc := none }

/-- A belay (spec/06 R173, spec/13 R337, R352, spec/14 R372, R374, R378): frame, landing, and microcode frame. `isolated` from isolation until its
cover begins; `uncovered` while no partner could cover it. -/
structure Belay where
  role        : BitVec 3
  isolated    : Bool
  uncovered   : Bool
  landing     : List Landed
  inserts     : BitVec 64
  claims      : BitVec 64
  completes   : BitVec 64
  spills      : BitVec 64
  refills     : BitVec 64
  spillDrops  : BitVec 32
  coverSince  : BitVec 48
  passedTest  : Bool
  swapped     : Bool
  bank        : Bool
  inactive    : Bool
  pendSwitch  : Bool
  forced      : Bool
  activeVer   : BitVec 32
  inactiveVer : BitVec 32
  pendSince   : Nat
  deriving DecidableEq, Repr

def Belay.reset : Belay :=
  { role := 0, isolated := false, uncovered := false, landing := [], inserts := 0, claims := 0, completes := 0, spills := 0, refills := 0,
    spillDrops := 0, coverSince := 0, passedTest := false, swapped := false, bank := false, inactive := false, pendSwitch := false, forced := false,
    activeVer := 1, inactiveVer := 0, pendSince := 0 }

/-- A target (spec/06 R149 to R151, R168): TGT_PRESENT, the tick it fell, whether the absence has been reported, ESC, and its pending store with
its spilled instances, in requester-sequence order (spec/05 R124). -/
structure Target where
  present  : Bool
  absSince : Nat
  absTold  : Bool
  esc      : Bool
  escCount : BitVec 16
  escTime  : BitVec 48
  store    : List Inst
  deriving DecidableEq, Repr

def Target.reset : Target :=
  { present := false, absSince := 0, absTold := false, esc := false, escCount := 0, escTime := 0, store := [] }

/-- A (target, ring) pair (spec/05 R128, spec/06 R166, R172, spec/08 R196, R212): the active stack (top first), the level driven, whether it is withheld
at DEPTH 16, and the running slot. -/
structure Pair where
  stack        : List Active
  level        : BitVec 4
  withheldNow  : Bool
  withheld     : BitVec 32
  claimRefused : BitVec 32
  running      : Option (BitVec 11)
  dbVector     : BitVec 22
  dbPrio       : BitVec 8
  deriving DecidableEq, Repr

def Pair.reset : Pair :=
  { stack := [], level := 0, withheldNow := false, withheld := 0, claimRefused := 0, running := none, dbVector := 0, dbPrio := 0 }

/-- The registers of a target frame or a resident frame (spec/05 R129, R143; spec/06 R172; spec/08 R211). -/
structure Frame where
  threshold  : BitVec 8
  limit      : BitVec 24
  polled     : Bool
  flag       : Bool
  shadow     : BitVec 32
  stage      : BitVec 32
  claimTime  : BitVec 64
  strayCount : BitVec 32
  strayLimit : BitVec 16
  strayLast  : BitVec 64
  deriving DecidableEq, Repr

/-- A frame at reset: all 0 but STRAY_COUNT.LIMIT, 0x0010 (spec/06 R172). -/
def Frame.reset : Frame :=
  { threshold := 0, limit := 0, polled := false, flag := false, shadow := 0, stage := 0, claimTime := 0, strayCount := 0,
    strayLimit := 0x0010, strayLast := 0 }

/-- A coalescing group's record (spec/07 R175) with the OWNER Tamri keeps (R176) and the handle it is bound to (R178). -/
structure Group where
  limit      : BitVec 16
  time       : BitVec 20
  spillMerge : BitVec 16
  pending    : Bool
  active     : Bool
  spilled    : Bool
  due        : Bool
  conflicts  : BitVec 8
  owner      : BitVec 8
  bound      : Option Handle
  deriving DecidableEq, Repr

def Group.reset : Group :=
  { limit := 0, time := 0, spillMerge := 0, pending := false, active := false, spilled := false, due := false, conflicts := 0, owner := 0x3F,
    bound := none }

/-- A virtual target: its residency-map entry (spec/08 R193), its descriptor and its area (R205). `bivouac` is in the order written. -/
structure Vt where
  defined   : Bool
  resident  : Bool
  running   : Bool
  notified  : Bool
  moving    : Bool
  suspect   : Bool
  dbTarget  : BitVec 9
  dbRing    : BitVec 2
  slot      : BitVec 11
  dbLevel   : BitVec 4
  owner     : BitVec 6
  ring      : BitVec 2
  cap       : BitVec 16
  drops     : BitVec 16
  dropTold  : Bool
  area      : BitVec 47
  savedAct  : List Active
  bivouac   : List Inst
  saved     : Frame
  deriving DecidableEq, Repr

def Vt.reset : Vt :=
  { defined := false, resident := false, running := false, notified := false, moving := false, suspect := false, dbTarget := 0, dbRing := 0,
    slot := 0, dbLevel := 0, owner := 0, ring := 0, cap := 0, drops := 0, dropTold := false, area := 0, savedAct := [], bivouac := [],
    saved := Frame.reset }

/-- A resident context (spec/08 R194): in use, virtual target, ring, bound target; `refilling` until its bivouac has been read (R202);
it may be given again from tick `zeroUntil` (R209). -/
structure Ctx where
  used      : Bool
  vt        : BitVec 16
  ring      : BitVec 2
  target    : BitVec 9
  refilling : Bool
  zeroUntil : Nat
  deriving DecidableEq, Repr

def Ctx.reset : Ctx := { used := false, vt := 0, ring := 0, target := 0, refilling := false, zeroUntil := 0 }

/-- A logbook entry (spec/13 R346), keyed by its serial; `overflow` places it in the overflow region (spec/01 R29), `intact` is false once it is
marked not intact (spec/13 R354, R355). -/
structure LogEntry where
  origin   : Origin
  kind     : RKind
  input    : Nat
  counted  : Bool
  payload  : BitVec 16
  state    : BitVec 2
  replayed : Bool
  arrival  : BitVec 31
  overflow : Bool
  intact   : Bool
  deriving DecidableEq, Repr

/-- An unlisted logbook entry: free (spec/13 R346, STATE 0). -/
def LogEntry.reset : LogEntry :=
  { origin := .doorbell 0, kind := .event, input := 0, counted := false, payload := 0, state := 0, replayed := false, arrival := 0, overflow := false,
    intact := true }

end Sys2Proof.Machine
end

