-- ==== Sys2Proof/Machine/TypesLink.lean ====
section
/-! DEFINITION. The links, quads and lanes (spec/09, spec/10). Each structure has its reset value beside it; cold reset returns every field to
its reset value (spec/09 "Link frames", spec/10 "Quad and lane frames"). -/

namespace Sys2Proof.Machine

/-- What LINK_CONFIG sets (spec/09 R235, spec/10 R250). Times in µs. -/
structure LinkCfg where
  col        : Bool
  auth       : Bool
  paired     : Bool
  pair       : BitVec 4
  quad       : BitVec 2
  firstLane  : BitVec 2
  width      : Nat
  rate       : BitVec 2
  sources    : Nat
  idleAfter  : Nat
  snapPeriod : Nat
  retry      : Nat
  pinBase    : BitVec 14
  deriving DecidableEq, Repr

def LinkCfg.reset : LinkCfg :=
  { col := false, auth := false, paired := false, pair := 0, quad := 0, firstLane := 0, width := 0, rate := 0, sources := 0, idleAfter := 0,
    snapPeriod := 100, retry := 1000, pinBase := 0 }

/-- The sending side of a link (spec/09 R216 to R219, R232). `replay` holds the unacknowledged flits in SEQ order, `queue` the entries that
wait, `crcFlips` the injections of kind 3 still to be made (spec/10 R272), `burst` the flits of the open burst (bytes 0 to 27), `expiries` the timer's expiries in a row, `replayEnd` the tick until which a replay runs, `sent`
every flit sent, newest first. -/
structure LinkTx where
  seq       : BitVec 12
  replay    : List (BitVec 256)
  queue     : List (BitVec 96)
  ackOwed   : Bool
  reqOwed   : Bool
  expiries  : Nat
  timer     : Nat
  replayEnd : Nat
  burst     : List (BitVec 224)
  burstAt   : Nat
  xseq      : Nat
  salt      : BitVec 20
  crcFlips  : Nat
  sent      : List (BitVec 256)
  deriving DecidableEq, Repr

def LinkTx.reset : LinkTx :=
  { seq := 0, replay := [], queue := [], ackOwed := false, reqOwed := false, expiries := 0, timer := 0, replayEnd := 0, burst := [], burstAt := 0, xseq := 0,
    salt := 0, crcFlips := 0, sent := [] }

/-- The receiving side of a link (spec/09 R216, R217, R232, R234). `expect` is E, `released` the SEQ of the last released flit, `asked` the E for
which a replay has been asked, `hold` the accepted flits not yet released with their times of acceptance, oldest first, `xseq` the sequenced flits accepted since link-up,
`crcRun` the CRC failures in a row (spec/10 R267), `settleEnd` the tick until which CRC failures do not count (R264). -/
structure LinkRx where
  expect    : BitVec 12
  released  : BitVec 12
  ackUsed   : BitVec 12
  asked     : Option (BitVec 12)
  hold      : List (BitVec 256 × BitVec 48)
  xseq      : Nat
  peerSalt  : BitVec 20
  crcRun    : Nat
  authTimes : List Nat
  settleEnd : Nat
  capSeen   : Bool
  capSentAt : Nat
  deriving DecidableEq, Repr

/-- RX_ACKED reads 0xFFF at reset (spec/09 R247). -/
def LinkRx.reset : LinkRx :=
  { expect := 0, released := 0xFFF, ackUsed := 0xFFF, asked := none, hold := [], xseq := 0, peerSalt := 0, crcRun := 0, authTimes := [],
    settleEnd := 0, capSeen := false, capSentAt := 0 }

/-- A training attempt (spec/10 R257 to R262). `stage` names what the attempt waits for. -/
inductive TrainStage where
  /-- between attempts, or the link is up -/
  | rest
  /-- lanes are locking, READY not yet set -/
  | locking
  /-- READY is set and the peer's READY is awaited (R258) -/
  | frozen
  /-- STEP flits are being exchanged (R260) -/
  | stepping
  deriving DecidableEq, Repr

/-- The training of a link (spec/10 R255 to R262). Ticks count TCLK; `agreedRx` and `agreedTx` are R260's AGREED each way. -/
structure Training where
  stage    : TrainStage
  start    : Nat
  lossAt   : Nat
  tries    : Nat
  locked   : BitVec 4
  use      : BitVec 4
  rateNow  : BitVec 2
  chosen   : BitVec 8
  peerRates : BitVec 8
  agreedRx : Bool
  agreedTx : Bool
  stepped  : Bool
  switchAt : Nat
  deriving DecidableEq, Repr

def Training.reset : Training :=
  { stage := .rest, start := 0, lossAt := 0, tries := 0, locked := 0, use := 0, rateNow := 0, chosen := 0xFF, peerRates := 0,
    agreedRx := false, agreedTx := false, stepped := false, switchAt := 0 }

/-- A LINK_UP that waits for its answer (spec/09 R235): mailbox, slot, the tick it was taken at, EXEC_SEQ at its
commit, and whether a takeover will answer it (spec/11 R288). -/
structure UpWait where
  mbox  : Nat
  slot  : Nat
  since : Nat
  seq   : BitVec 32
  failover : Bool
  deriving DecidableEq, Repr

/-- A link (spec/09 R247). `state` is STATE; `wantUp`: LINK_UP received and no LINK_DOWN since; `lost`: the link went down from up and has not
come up since; `orphans` is the orphan list, oldest first, with `releasing` once R230 step 3 may send it; `levelView` and `reassert` are the
maps of R226; `snapAsked` the tick SNAP_WAIT's current request was sent, `snapAt` the last snapshot's tick, `snapId` the number of the next
SNAP_REQ, `inSnap` the FULL snapshot records not yet granted; `peerUp` the last PEER_UP (R242), `lastActive` the tick since
which R220's conditions have held. -/
structure Link where
  cfg          : Option LinkCfg
  state        : BitVec 3
  orphaned     : Bool
  downReason   : BitVec 4
  snapWait     : Bool
  wantUp       : Bool
  wentDown     : Bool
  cameUp       : Bool
  authFail     : Bool
  orphOverflow : Bool
  snapLate     : Bool
  promoted     : Bool
  demoted      : Bool
  partnerLost  : Bool
  err          : BitVec 14
  flitsTx      : BitVec 64
  flitsRx      : BitVec 64
  crcErrors    : BitVec 32
  replays      : BitVec 32
  dupDiscards  : BitVec 32
  oooDiscards  : BitVec 32
  authFails    : BitVec 32
  orphanDrops  : BitVec 32
  records      : BitVec 64
  refused      : BitVec 64
  lastErr      : BitVec 96
  lastCode     : BitVec 4
  lastChange   : BitVec 48
  sharedAvail  : Nat
  noticeAvail  : Nat
  lastSnapId   : BitVec 16
  snapshots    : BitVec 32
  keys         : List (Option (BitVec 128))
  txSlot       : Bool
  orphans      : List (BitVec 96)
  releasing    : Bool
  levelView    : BitVec 4096
  reassert     : BitVec 4096
  snapAsked    : Nat
  snapAt       : Nat
  snapId       : BitVec 16
  peerUp       : Option Bool
  owedShared   : Nat
  owedAt       : Nat
  txIdle       : Bool
  rxIdle       : Bool
  txIdleAt     : Nat
  rxIdleAt     : Nat
  lastActive   : Nat
  upWait       : List UpWait
  tx           : LinkTx
  rx           : LinkRx
  train        : Training
  deriving DecidableEq, Repr

def Link.reset : Link :=
  { cfg := none, state := 0, orphaned := false, downReason := 0, snapWait := false, wantUp := false, wentDown := false, cameUp := false,
    authFail := false, orphOverflow := false, snapLate := false, promoted := false, demoted := false, partnerLost := false, err := 0,
    flitsTx := 0, flitsRx := 0, crcErrors := 0, replays := 0, dupDiscards := 0, oooDiscards := 0, authFails := 0, orphanDrops := 0,
    records := 0, refused := 0, lastErr := 0, lastCode := 0, lastChange := 0, sharedAvail := 0, noticeAvail := 0, lastSnapId := 0,
    snapshots := 0, keys := [none, none], txSlot := false, orphans := [], releasing := false, levelView := 0, reassert := 0, snapAsked := 0,
    snapAt := 0, snapId := 0, peerUp := none, owedShared := 0, owedAt := 0, txIdle := false, rxIdle := false, txIdleAt := 0, rxIdleAt := 0,
    lastActive := 0, upWait := [], tx := LinkTx.reset, rx := LinkRx.reset, train := Training.reset }

/-- A shadow record (spec/09 R241). -/
structure Shadow where
  balance  : Int
  act      : Nat
  asserted : Bool
  deriving DecidableEq, Repr

def Shadow.reset : Shadow := { balance := 0, act := 0, asserted := false }

/-- A sync being sent (spec/09 R246): pair, number, and the next source to record. -/
structure SyncTx where
  pair : BitVec 4
  id   : BitVec 16
  next : Nat
  deriving DecidableEq, Repr

/-- The partnership (spec/09 R237 to R246). `active` is ACTIVE_MASK; `everUp`: the col link has come up since cold reset (R237); `shadow` is keyed by
pair · 4096 + source; `hbSeen`: a HEARTBEAT has come since the last link-up; `notices` wait for credits; `syncQ` names the pairs whose
sync is to be sent, `abort` an ABORT that waits for a credit; `rxSync` is the pair whose sync is being received. -/
structure Partner where
  active      : BitVec 16
  everUp      : Bool
  shadow      : Tbl Shadow
  peerMask    : BitVec 16
  hbSeen      : Bool
  lastHb      : Nat
  hbOk        : Bool
  lost        : Bool
  hbSentAt    : Nat
  notices     : List (BitVec 96)
  sync        : Option SyncTx
  syncQ       : List (BitVec 4)
  syncId      : BitVec 16
  rxSync      : Option (BitVec 4)
  abort       : Option (BitVec 4 × BitVec 16)
  deriving DecidableEq, Repr

/-- A block with no col link is ACTIVE for all its links (spec/09 R237). -/
def Partner.reset : Partner :=
  { active := 0xFFFF, everUp := false, shadow := [], peerMask := 0, hbSeen := false, lastHb := 0, hbOk := false, lost := false, hbSentAt := 0,
    notices := [], sync := none, syncQ := [], syncId := 0, rxSync := none, abort := none }

/-- A quad's frame (spec/10 R275). `ref`: LREFCLK toggles at the block's ball, at reset too (DESIGN CHOICE, assumption
log 61); `waiters` are the answers (mailbox, slot, response) that its power-up completes (R249). -/
structure Quad where
  refOk      : Bool
  pllA       : Bool
  pllB       : Bool
  calDone    : Bool
  powered    : Bool
  refLost    : Bool
  pllLost    : Bool
  calFail    : Bool
  pllLosses  : BitVec 32
  refLosses  : BitVec 32
  calCode    : BitVec 6
  calTime    : BitVec 48
  ref        : Bool
  waiters    : List (Nat × Nat × BitVec 512)
  deriving DecidableEq, Repr

def Quad.reset : Quad :=
  { refOk := false, pllA := false, pllB := false, calDone := false, powered := false, refLost := false, pllLost := false, calFail := false,
    pllLosses := 0, refLosses := 0, calCode := 0, calTime := 0, ref := true, waiters := [] }

/-- A level of the line (spec/10 R253): −1, −1/3, +1/3 and +1 of the full swing, positive with TXP above TXN. -/
inductive Level where
  /-- −1 -/
  | minusFull
  /-- −1/3 -/
  | minusThird
  /-- +1/3 -/
  | plusThird
  /-- +1 -/
  | plusFull
  deriving DecidableEq, Repr

/-- A lane's frame (spec/10 R276) with its test settings (R273); `info` and `skew` are what its receiver last locked on (R257). `inUse`: its transmitter carries
data, `rxUse`: its receiver does (R257, R258). `scr`, `pre` are the transmitter's scrambler and precoder, `rxScr`, `rxPre` the receiver's (R252, R253), `prbs`
the PRBS13 of its training frames (R255), `gen` and `chk` the registers of its pattern generator and checker (R271), `inj` the symbols that an injection still has
to move (R272), `out` the levels sent, a block for each flit, frame or burst, newest first. -/
structure Lane where
  signal     : Bool
  locked     : Bool
  inUse      : Bool
  squelched  : Bool
  polInv     : Bool
  narrow     : Bool
  rateNow    : BitVec 2
  test       : BitVec 3
  losSeen    : Bool
  lolSeen    : Bool
  chkErr     : Bool
  chkLost    : Bool
  idleTo     : Bool
  losCount   : BitVec 32
  lolCount   : BitVec 32
  losTime    : BitVec 48
  lolTime    : BitVec 48
  lockTicks  : BitVec 32
  attempts   : BitVec 32
  chkSymbols : BitVec 64
  chkSymErr  : BitVec 64
  chkBitErr  : BitVec 64
  chkLocked  : Bool
  chkPattern : BitVec 3
  chkLosses  : BitVec 16
  injections : BitVec 32
  precode    : Bool
  inject     : BitVec 2
  burstLen   : BitVec 7
  period     : BitVec 16
  injectAt   : Nat
  armed      : Bool
  info       : BitVec 16
  skew       : Nat
  rxUse      : Bool
  scr        : BitVec 31
  pre        : BitVec 2
  rxScr      : BitVec 31
  rxPre      : BitVec 2
  prbs       : BitVec 31
  gen        : BitVec 31
  chk        : BitVec 31
  inj        : Nat
  out        : List (List Level)
  excluded   : Bool
  deriving DecidableEq, Repr

/-- SQUELCHED reads 1 at reset (spec/10 R276). -/
def Lane.reset : Lane :=
  { signal := false, locked := false, inUse := false, squelched := true, polInv := false, narrow := false, rateNow := 0, test := 0,
    losSeen := false, lolSeen := false, chkErr := false, chkLost := false, idleTo := false, losCount := 0, lolCount := 0, losTime := 0, lolTime := 0,
    lockTicks := 0, attempts := 0, chkSymbols := 0, chkSymErr := 0, chkBitErr := 0, chkLocked := false, chkPattern := 0, chkLosses := 0,
    injections := 0, precode := false, inject := 0, burstLen := 0, period := 0, injectAt := 0, armed := false, info := 0, skew := 0, rxUse := false, scr := 0,
    pre := 0, rxScr := 0, rxPre := 0, prbs := 0, gen := 0, chk := 0, inj := 0, out := [], excluded := false }

end Sys2Proof.Machine
end

