-- ==== Sys2Proof/Machine/TypesSys.lean ====
section
/-! DEFINITION. The block's common units: clocks, power, start-up, Rope, Base Camp, rations, memory port, arbiters, cairns, wear monitors and
the register window (spec/11 to spec/16). Each structure has its reset value beside it (spec/15 R398). -/

namespace Sys2Proof.Machine

/-- Clocks and time (spec/15 R388 to R391, R413). `time` is the time counter, `bosc` BOSC_TIME; `ticks` counts TCLK ticks and no load reaches it
(assumption log 3); `fail` holds a failing check for each of ROOTCLK, FCLK, DCLK, MCLK, TCLK; `checked`: the checks have begun. -/
structure Clocks where
  time         : BitVec 64
  bosc         : BitVec 64
  ticks        : Nat
  fail         : BitVec 5
  checked      : Bool
  memclkOk     : Bool
  timeOnBosc   : Bool
  timeLoads    : BitVec 32
  timeRefused  : BitVec 32
  timeBack     : Bool
  faultSeen    : Bool
  deriving DecidableEq, Repr

def Clocks.reset : Clocks :=
  { time := 0, bosc := 0, ticks := 0, fail := 0, checked := false, memclkOk := false, timeOnBosc := false, timeLoads := 0, timeRefused := 0,
    timeBack := false, faultSeen := false }

/-- The straps as sampled (spec/15 R392). -/
structure Straps where
  senior      : Bool
  ropeDefault : Bool
  tapMode     : Bool
  fwBase      : BitVec 40
  deriving DecidableEq, Repr

def Straps.reset : Straps := { senior := false, ropeDefault := false, tapMode := false, fwBase := 0 }

/-- The header of the wake record as it last stood in NVM (spec/15 R408, R411): STATE 0 names a header that is not valid. -/
structure NvHeader where
  state   : BitVec 8
  source  : BitVec 8
  holdup  : BitVec 8
  trunc   : Bool
  saveSeq : BitVec 32
  length  : BitVec 32
  time    : BitVec 64
  entries : BitVec 32
  inUse   : BitVec 32
  execSeq : BitVec 32
  deriving DecidableEq, Repr

def NvHeader.reset : NvHeader :=
  { state := 0, source := 0, holdup := 0, trunc := false, saveSeq := 0, length := 0, time := 0, entries := 0, inUse := 0, execSeq := 0 }

/-- A save in progress (spec/15 R405 to R410): a wake record whose header is `h`, a last-words record, or the wake record of a SAVE_NOW with the
answer it owes. -/
inductive Save where
  | none
  | wake (h : NvHeader)
  | words
  | now (w : UpWait) (h : NvHeader)
  deriving DecidableEq, Repr

/-- Power, reset and hold-up (spec/15 R392 to R413). `coldHeld`: COLD_RESET_N is low; `off`: a core supply was lost (R397); `avail` is
POLUIF_AVAIL, `cpxAvail` CPX_AVAIL; `warmHeld`: a warm reset waits in step 3 for its clocks; `latches` are the wake latches (R396);
`parking`: PARK.REQ accepted at `parkAt`; `saveHead`: the header of the save in progress has been
written (R407); `maskedSave`: the activities are masked under R312; `lwMirror` are the always-on mirrors of what a last-words record
holds, `lwFrame` is the record sent (R409). -/
structure Power where
  coldHeld    : Bool
  off         : Bool
  avail       : Bool
  cpxAvail    : Bool
  state       : BitVec 3
  warn        : Bool
  warnSeen    : Bool
  armed       : Bool
  holdup      : BitVec 8
  parkFailed  : Bool
  saveAbandoned : Bool
  resetCause  : BitVec 2
  warmResets  : BitVec 16
  warmHeld    : Bool
  parking     : Bool
  parkAt      : Nat
  failCause   : BitVec 3
  parks       : BitVec 16
  lastExit    : BitVec 32
  latches     : List Nat
  saveSeq     : BitVec 32
  lastSave    : BitVec 2
  lastHoldup  : BitVec 8
  save        : Save
  saveHead    : Bool
  maskedSave  : Bool
  header      : NvHeader
  lwMirror    : BitVec 512
  lwFrame     : BitVec 512
  deriving DecidableEq, Repr

def Power.reset : Power :=
  { coldHeld := true, off := false, avail := false, cpxAvail := false, state := 0, warn := false, warnSeen := false, armed := false, holdup := 0,
    parkFailed := false, saveAbandoned := false, resetCause := 0, warmResets := 0, warmHeld := false, parking := false, parkAt := 0,
    failCause := 0, parks := 0, lastExit := 0, latches := [], saveSeq := 0, lastSave := 0, lastHoldup := 0, save := .none, saveHead := false,
    maskedSave := false, header := NvHeader.reset, lwMirror := 0, lwFrame := 0 }

/-- Space of the table region that is being zeroed (spec/11 R449): the activity and the belay whose ration pays (`act` 5 CONFIG or 3 BIVOUAC), its first
page and its pages, the next line and the lines left, and the virtual target it was of. -/
structure Zeroing where
  act   : Nat
  belay : Nat
  page  : BitVec 40
  pages : Nat
  next  : BitVec 47
  left  : Nat
  vt    : Option (BitVec 16)
  deriving DecidableEq, Repr

/-- Start-up and the table region (spec/15 R400; spec/11 R292 to R295; spec/16 R416, R432). `failed`: a failed boot (R294). `tableFree` counts the
free pages of 4 KiB left in the table region, `replaying` the serials a warm reset replays (STATUS.REPLAYING, R400), `zeroing` the areas whose zeroing runs, oldest first (R449), `suspect` the SUSPECT pages (spec/13 R355). -/
structure Boot where
  aonUp       : Bool
  fastReady   : Bool
  entropy     : Bool
  campReady   : Bool
  sramZeroed  : Bool
  replaying   : List (BitVec 32)
  level       : BitVec 16
  fwVersion   : BitVec 32
  secVersion  : BitVec 32
  failed      : Bool
  tableBase   : BitVec 64
  tableSize   : BitVec 64
  nvmWindow   : BitVec 64
  nvmSize     : BitVec 32
  spillOpen   : BitVec 32
  devBase     : BitVec 40
  vtBase      : BitVec 40
  spillBase   : BitVec 40
  tableFree   : Nat
  zeroing     : List Zeroing
  suspect     : List (BitVec 40)
  deriving DecidableEq, Repr

def Boot.reset : Boot :=
  { aonUp := false, fastReady := false, entropy := false, campReady := false, sramZeroed := false, replaying := [], level := 0,
    fwVersion := 0, secVersion := 0, failed := false, tableBase := 0, tableSize := 0, nvmWindow := 0, nvmSize := 0, spillOpen := 0,
    devBase := 0, vtBase := 0, spillBase := 0, tableFree := 0, zeroing := [], suspect := [] }

/-- A public key of the signature scheme (spec/11 R293, R299). -/
structure PubKey where
  x : BitVec 256
  y : BitVec 256
  deriving DecidableEq, Repr

/-- The boot ROM's contents that the spec names: two public keys, which nothing changes (spec/11 R293). -/
structure Rom where
  key0 : PubKey
  key1 : PubKey
  deriving DecidableEq, Repr

/-- The keys have no stated value (assumption log 2). -/
def Rom.keys : Rom :=
  { key0 := { x := (Config.romKey false).1, y := (Config.romKey false).2 }, key1 := { x := (Config.romKey true).1, y := (Config.romKey true).2 } }

/-- One input of the Rope map (spec/11 R302). -/
structure RopeOut where
  mapped : Bool
  output : BitVec 4
  deriving DecidableEq, Repr

def RopeOut.reset : RopeOut := { mapped := false, output := 0 }

/-- The Rope and the heartbeat (spec/01 R27, spec/13 R360 to R363, spec/14 R383). `serving` is false from cold reset until the map is applied;
`inputs` are the filtered levels. `hbArmed`: the heartbeat runs from the next round that passes (R399, R401); `roundSeen` latches the causes
seen in this round (R362); `noCampAt` is the tick since when no Camp pair executes. `pulseUntil` is BOSC_TIME at the end of the running pulse test
(R384), `pulseSeen` what its tap saw, `pulseDist` that a real input reached its output. -/
structure Rope where
  serving     : Bool
  inputs      : BitVec 64
  seen        : BitVec 64
  map         : Tbl RopeOut
  locked      : Bool
  hbRunning   : Bool
  hbArmed     : Bool
  roundSeen   : BitVec 10
  hbOut       : Bool
  hbCause     : BitVec 4
  hbTime      : BitVec 48
  pulseResult : BitVec 3
  pulseInput  : BitVec 6
  pulseOutput : BitVec 4
  pulseTests  : BitVec 32
  noCampAt    : Option Nat
  pulseUntil  : Option (BitVec 64)
  pulseSeen   : Bool
  pulseDist   : Bool
  deriving DecidableEq, Repr

def Rope.reset : Rope :=
  { serving := false, inputs := 0, seen := 0, map := [], locked := false, hbRunning := false, hbArmed := false, roundSeen := 0, hbOut := false, hbCause := 0, hbTime := 0,
    pulseResult := 0, pulseInput := 0, pulseOutput := 0, pulseTests := 0, noCampAt := none, pulseUntil := none, pulseSeen := false, pulseDist := false }

/-- A staged Tamri image (spec/11 R296). -/
structure Staged where
  version : BitVec 32
  secVer  : BitVec 32
  level   : BitVec 16
  deriving DecidableEq, Repr

/-- A commit record (spec/11 R281): the command's mailbox, slot and request, and EXEC_SEQ at its commit point. -/
structure CommitRec where
  mbox : Nat
  slot : Nat
  req  : BitVec 512
  seq  : BitVec 32
  deriving DecidableEq, Repr

/-- A SLICE_TEST of a ridge (KIND 0), belay (1), Camp pair (3) or cache bank (4) that runs (spec/14 R368): the slot that asked for it, the unit, its ROLE
before, or for a bank whether it was fenced (1), and what the test finds. -/
structure UnitTest where
  mbox   : Nat
  slot   : Nat
  kind   : Nat
  unit   : Nat
  former : BitVec 3
  found  : BitVec 32
  deriving DecidableEq, Repr

/-- Base Camp (spec/11 R280, R281, R296 to R303). `active`: false Camp A, true Camp B; `execA`, `execB`: the pair executes;
`rr` is the mailbox served last; `forced` a Base Camp forced absent at the traverse (R327); `lastVerify` the verify engine's last answer (R299); `testing` the
unit under test (spec/14 R367: Tamri executes one command at a time, so one at most). `record` is the last commit record written to the standby pair, `copySeq`
EXEC_SEQ in the standby pair's copy of Tamri's state, which follows each record in order (R281): the copy differs from the state kept here in nothing else. -/
structure Camp where
  active      : Bool
  execA       : Bool
  execB       : Bool
  aOk         : Bool
  bOk         : Bool
  standby     : BitVec 3
  staged      : Option Staged
  verifyRuns  : BitVec 32
  verifyBad   : BitVec 32
  takeovers   : BitVec 32
  healthFailed : BitVec 1
  rctFails    : BitVec 16
  aptFails    : BitVec 16
  startFails  : Nat
  rekeyed     : Bool
  execSeq     : BitVec 32
  rr          : Nat
  forced      : Bool
  lastVerify  : Bool
  testing     : Option UnitTest
  record      : Option CommitRec
  copySeq     : BitVec 32
  deriving DecidableEq, Repr

/-- STANDBY_STATE before Tamri starts is 3, no usable standby (assumption log 8). -/
def Camp.reset : Camp :=
  { active := false, execA := false, execB := false, aOk := false, bOk := false, standby := 3, staged := none, verifyRuns := 0, verifyBad := 0,
    takeovers := 0, healthFailed := 0, rctFails := 0, aptFails := 0, startFails := 0, rekeyed := false, execSeq := 0, rr := 33, forced := false,
    lastVerify := false, testing := none, record := none, copySeq := 0 }

/-- A slot pair of a mailbox (spec/11 R283). -/
structure Slot where
  req     : BitVec 512
  resp    : BitVec 512
  posted  : Bool
  running : Bool
  done    : Bool
  deriving DecidableEq, Repr

def Slot.reset : Slot := { req := 0, resp := 0, posted := false, running := false, done := false }

/-- A mailbox (spec/11 R283). `order` names the posted slots, oldest first. -/
structure Mbox where
  slots   : Tbl Slot
  order   : List Nat
  isOpen  : Bool
  sgi     : BitVec 4
  target  : BitVec 9
  enable  : Bool
  posts   : BitVec 32
  ignored : BitVec 16
  wrIgnored : BitVec 16
  deriving DecidableEq, Repr

def Mbox.reset : Mbox :=
  { slots := [], order := [], isOpen := false, sgi := 0, target := 0, enable := false, posts := 0, ignored := 0, wrIgnored := 0 }

/-- A memory contract (spec/12 R318). -/
structure Contract where
  bytes      : BitVec 32
  latency    : BitVec 32
  percentile : BitVec 16
  keepWarm   : Bool
  deriving DecidableEq, Repr

/-- One quota (spec/12 R308 to R315, R335). `cycles` and `bytes` are as RATION_SET left them, `none` before any; `nextCycles`, `nextBytes` apply at
the next boundary (R305). The counts are those of round `round`; `budget` stood at the end of that round. -/
structure Quota where
  cycles     : Option Nat
  bytes      : Option Nat
  nextCycles : Option Nat
  nextBytes  : Option Nat
  round      : Nat
  used       : Nat
  usedLast   : Nat
  bytesIn    : Nat
  bytesInLast : Nat
  bytesAbove : Nat
  bytesAboveLast : Nat
  budget     : Nat
  masked     : Bool
  exhausted  : BitVec 32
  deriving DecidableEq, Repr

def Quota.reset : Quota :=
  { cycles := none, bytes := none, nextCycles := none, nextBytes := none, round := 0, used := 0, usedLast := 0, bytesIn := 0, bytesInLast := 0,
    bytesAbove := 0, bytesAboveLast := 0, budget := 0, masked := false, exhausted := 0 }

/-- Rations and the contract (spec/12 R305, R313 to R320, R334). `ready`: CAMP_READY has given the quotas of R314; `waiters` are the answers (mailbox, slot,
response) that wait for the next boundary (R305). `since` is the round at which the budgets started (R305, R314); `unpins` the rounds
at which the implied WALK quotas of R315 end; `windowReads`, `windowTails`, `windowRounds` are the breach window's counts. -/
structure Rations where
  ready        : Bool
  waiters      : List (Nat × Nat × BitVec 512)
  round        : Nat
  since        : Nat
  quota        : Tbl Quota
  unpins       : List Nat
  contract     : Option Contract
  nextContract : Option Contract
  inBreach     : Bool
  windowBreach : Bool
  saveMode     : Bool
  breachSeen   : Bool
  timeoutSeen  : Bool
  exhaustSeen  : Bool
  overcommit   : Bool
  reads        : BitVec 64
  tailReads    : BitVec 64
  timeouts     : BitVec 32
  reissues     : BitVec 32
  maxLatency   : BitVec 32
  breaches     : BitVec 16
  late         : BitVec 16
  exhausted    : Tbl (BitVec 64)
  windowReads  : Nat
  windowTails  : Nat
  windowRounds : Nat
  memKHz       : BitVec 32
  warmAt       : Nat
  deriving DecidableEq, Repr

def Rations.reset : Rations :=
  { ready := false, waiters := [], round := 0, since := 0, quota := [], unpins := [], contract := none, nextContract := none, inBreach := false, windowBreach := false,
    saveMode := false, breachSeen := false, timeoutSeen := false, exhaustSeen := false, overcommit := false, reads := 0, tailReads := 0,
    timeouts := 0, reissues := 0, maxLatency := 0, breaches := 0, late := 0, exhausted := [], windowReads := 0, windowTails := 0,
    windowRounds := 0, memKHz := 0, warmAt := 0 }

/-- Who a memory request serves (spec/12 R306). -/
inductive MemOwner where
  | walkDev (pos : BitVec 2) (h : Handle)
  | walkEvt (pos : BitVec 2) (h : Handle)
  | refill (t : BitVec 9) (serial : BitVec 32)
  | bivouac (c : BitVec 11) (serial : BitVec 32)
  | spillWrite (t : BitVec 9) (serial : BitVec 32)
  | bivWrite (v : BitVec 16) (serial : BitVec 32)
  | actWrite (v : BitVec 16) (i : Nat)
  | logWrite (serial : BitVec 32)
  | table (r : Rewrite)
  | descriptor (v : BitVec 16)
  | zero (act belay : Nat)
  | config
  | scrub
  | keepWarm
  | save
  /-- the boot ROM's reads (spec/11 R294) -/
  | boot
  deriving DecidableEq, Repr

/-- A memory request (spec/12 R323, R324). `act`, `scope` and `unit` name the budget it spends (R306, R313), `above` that it goes above ration whatever the budget holds
(spec/11 R449), `input` is its traverse input, `data` MEM_REQ_DATA of a write, `again` marks a re-issue, `since` the tick it was presented at; `qos` and
`par` are MEM_REQ_QOS and MEM_REQ_PAR as presented. -/
structure MemReq where
  id       : BitVec 8
  act      : Nat
  scope    : Nat
  unit     : Nat
  above    : Bool
  qos      : BitVec 2
  par      : BitVec 32
  input    : Nat
  owner    : MemOwner
  write    : Bool
  addr     : BitVec 47
  data     : BitVec 256
  inRation : Bool
  again    : Bool
  since    : Nat
  deriving DecidableEq, Repr

/-- The memory port (spec/12 R322 to R324, R329; spec/13 R355). `waits` are the requests that have not entered a traverse queue, `queued` those in the queues, 8 an input, `out` is outstanding, `late` the identifiers that
timed out, `done` the reads delivered to their owners (`none`: data; `some k`: failed twice, as LAST_FAIL_KIND of spec/04 R120), `retained` the lines whose write failed twice. -/
structure Mem where
  waits    : List MemReq
  queued   : List MemReq
  out      : List MemReq
  late     : List (BitVec 8)
  nextId   : BitVec 8
  done     : List (MemOwner × Option (BitVec 2))
  retained : List MemReq
  deriving DecidableEq, Repr

def Mem.reset : Mem := { waits := [], queued := [], out := [], late := [], nextId := 0, done := [], retained := [] }

/-- A requester of an arbiter (spec/12 R332). `wait` is its present unbroken wait, `told` that it has been reported. -/
structure ArbReq where
  prio      : BitVec 4
  losses    : Nat
  grants    : BitVec 64
  waits     : BitVec 64
  longest   : BitVec 32
  starved   : Bool
  forced    : Bool
  ration    : BitVec 64
  wait      : Nat
  told      : Bool
  deriving DecidableEq, Repr

/-- A requester with a reset priority (spec/12 R328). -/
def ArbReq.init (p : Nat) : ArbReq :=
  { prio := BitVec.ofNat 4 p, losses := 0, grants := 0, waits := 0, longest := 0, starved := false, forced := false, ration := 0, wait := 0,
    told := false }

/-- The arbiters (spec/12 R325 to R332). Requesters are keyed: couloir `c` input `i` at 12c + i, traverse input `i` at 60 + i, belay `b` at its
ledge at 100 + b. `lock` is the input holding the traverse's lock and since when. -/
structure Arb where
  limit : Tbl (BitVec 32)
  req   : List (Nat × ArbReq)
  lock  : Option (Nat × Nat)
  deriving DecidableEq, Repr

def Arb.reset : Arb := { limit := [], req := [], lock := none }

/-- A report (spec/13 R338) as it waits, with how many have merged. -/
structure Report where
  cause   : BitVec 8
  kind    : BitVec 8
  unit    : BitVec 16
  sev     : BitVec 2
  detail  : BitVec 32
  last    : BitVec 32
  first   : BitVec 48
  latest  : BitVec 48
  count   : BitVec 32
  deriving DecidableEq, Repr

/-- A cairn record (spec/13 R341). -/
structure CairnRec where
  cause       : BitVec 8
  sev         : BitVec 8
  valid       : Bool
  new         : Bool
  kind        : BitVec 8
  unit        : BitVec 16
  count       : BitVec 32
  firstDetail : BitVec 32
  firstTime   : BitVec 48
  lastTime    : BitVec 48
  lastDetail  : BitVec 32
  deriving DecidableEq, Repr

def CairnRec.reset : CairnRec :=
  { cause := 0, sev := 0, valid := false, new := false, kind := 0, unit := 0, count := 0, firstDetail := 0, firstTime := 0, lastTime := 0,
    lastDetail := 0 }

/-- A cairn notification register (spec/13 R345). -/
structure Notify where
  sgi    : BitVec 4
  target : BitVec 9
  minSev : BitVec 2
  enable : Bool
  deriving DecidableEq, Repr

def Notify.reset : Notify := { sgi := 0, target := 0, minSev := 0, enable := false }

/-- The cairn table (spec/13 R338 to R345, R357, R365). `held` are the keys held at their reporting units, with the unit's number;
`faultKeys` the keys counted as faults with their ticks. -/
structure Cairns where
  recs      : Tbl CairnRec
  queue     : List Report
  held      : List (Nat × Report)
  created   : Bool
  overflowed : Bool
  lostSeen  : Bool
  notify0   : Notify
  notify1   : Notify
  lastNew   : BitVec 9
  lostCause : BitVec 8
  reports   : BitVec 64
  merged    : BitVec 64
  lost      : BitVec 64
  faultTime : BitVec 48
  faultAny  : Bool
  faultKeys : List (BitVec 32 × Nat)
  faultAt   : Nat
  sevCause  : BitVec 8
  sevKind   : BitVec 8
  sevUnit   : BitVec 16
  sevIndex  : BitVec 9
  severe    : BitVec 32
  degraded  : BitVec 32
  deriving DecidableEq, Repr

def Cairns.reset : Cairns :=
  { recs := [], queue := [], held := [], created := false, overflowed := false, lostSeen := false, notify0 := Notify.reset, notify1 := Notify.reset,
    lastNew := 0, lostCause := 0, reports := 0, merged := 0, lost := 0, faultTime := 0, faultAny := false, faultKeys := [], faultAt := 0,
    sevCause := 0, sevKind := 0, sevUnit := 0, sevIndex := 0, severe := 0, degraded := 0 }

/-- The wear frame (spec/14 R386). -/
structure Wear where
  ppm     : List (BitVec 32)
  measured : List (BitVec 32)
  seconds : List (BitVec 32)
  next    : Nat
  measuredAt : Nat
  binnedAt : Nat
  tempNow : BitVec 8
  tempMax : BitVec 8
  warn    : Bool
  limit   : Bool
  hot     : Bool
  deriving DecidableEq, Repr

def Wear.reset : Wear :=
  { ppm := List.replicate 8 0, measured := List.replicate 8 0, seconds := List.replicate 8 0, next := 0, measuredAt := 0, binnedAt := 0,
    tempNow := 0, tempMax := 0, warn := false, limit := false, hot := false }

/-- An access-slot descriptor (spec/16 R424): its four words; `bad` after an uncorrectable error (R426). -/
structure Desc where
  w0  : BitVec 64
  w1  : BitVec 64
  w2  : BitVec 64
  w3  : BitVec 64
  bad : Bool
  deriving DecidableEq, Repr

def Desc.reset : Desc := { w0 := 0, w1 := 0, w2 := 0, w3 := 0, bad := false }

/-- A violation record (spec/16 R430): its three words, the fourth is 0. -/
structure Violation where
  w0 : BitVec 64
  w1 : BitVec 64
  w2 : BitVec 64
  deriving DecidableEq, Repr

def Violation.reset : Violation := { w0 := 0, w1 := 0, w2 := 0 }

/-- The access check (spec/16 R423 to R431). `snap` holds each frame's 32-bit snapshot register. -/
structure AccessCheck where
  slot   : Tbl Desc
  violations : BitVec 64
  seen   : Bool
  wrapped : Bool
  held   : Bool
  next   : BitVec 4
  select : BitVec 15
  first  : Violation
  recs   : Tbl Violation
  snap   : Tbl (BitVec 32)
  deriving DecidableEq, Repr

/-- Fixed slot 0 resets to READ_RINGS 0b1111 and VALID 1 (spec/16 R424). -/
def AccessCheck.reset : AccessCheck :=
  { slot := [(0, { Desc.reset with w0 := 0x10F })], violations := 0, seen := false, wrapped := false, held := false, next := 0, select := 0,
    first := Violation.reset, recs := [], snap := [] }

/-- A response at the control port (spec/16 R415): lane, TAG, ERR, data. -/
structure Response where
  rescue : Bool
  tag    : BitVec 8
  err    : BitVec 2
  data   : BitVec 64
  deriving DecidableEq, Repr

/-- A write whose response is owed (spec/16 R419, spec/03 R83): its number, its tag, its frame, how many of the records it formed are not yet granted or
refused, or 1 while it is held, and CP_RSP_ERR. A refused write (`err` not 0) takes no entry of the buffer and only waits for the responses before its own. -/
structure Owed where
  wid   : Nat
  tag   : BitVec 8
  frame : Nat
  left  : Nat
  err   : BitVec 2
  deriving DecidableEq, Repr

/-- An accepted access that is held (spec/16 R419, R421; spec/13 R337): a read of the read queue, with the number of the next write at its acceptance, or a
write to a target without a serving belay, with its own number. -/
structure HeldAccess where
  acc   : Access
  write : Bool
  wid   : Nat
  deriving DecidableEq, Repr

/-- The control port (spec/16 R415, R419): the posted-write buffer, the accesses held, oldest first, and `responses`, the responses presented, newest
first. -/
structure ControlPort where
  wbuf      : List Owed
  held      : List HeldAccess
  nextWid   : Nat
  responses : List Response
  deriving DecidableEq, Repr

def ControlPort.reset : ControlPort := { wbuf := [], held := [], nextWid := 0, responses := [] }

end Sys2Proof.Machine
end

