-- ==== Sys2Proof/Machine/State.lean ====
section
/-! DEFINITION. The block's state, the names of its stops, and the state after reset. INVENTORY.md names the rule behind each field. -/

namespace Sys2Proof.Machine

/-- Why a command stops the block: never. Every error the spec names is an event after which the block goes on (spec/13 R336 to R359,
spec/16 R428), so no meaning of this model faults. Safe: nothing can be proved from a fault that cannot happen. -/
inductive Fault where
  deriving DecidableEq, Repr

/-- Why the model turns a command away. -/
inductive Refusal where
  /-- Raised by exec's arm of a command that has no meaning yet. Safe: the model stops where the block goes on. -/
  | notModelled (mnemonic : String)
  /-- Raised by a command whose operands name nothing the block has (an SRAM word past its region's end, `WellFormed`). Safe: the
  block cannot take such a command. -/
  | illFormed
  deriving DecidableEq, Repr

/-- The block. `pending` is the queue of waiting commands; `freeCtr` counts the free values drawn (assumption log 2). Tables are sparse; their keys
are in INVENTORY.md. -/
structure State where
  pending : List Instr
  freeCtr : Nat
  clk     : Clocks
  straps  : Straps
  pwr     : Power
  boot    : Boot
  rom     : Rom
  rope    : Rope
  wired   : Wired
  pass    : Tbl PassPort
  door    : Door
  inq     : Tbl (List Rec)
  xl      : Xlat
  plain   : Tbl PathCopy
  bel     : Tbl Belay
  tgt     : Tbl Target
  pair    : Tbl Pair
  frame   : Tbl Frame
  grp     : Tbl Group
  vt      : Tbl Vt
  ctx     : Tbl Ctx
  log     : Tbl LogEntry
  logFull : Bool
  links   : Tbl Link
  partner : Partner
  quads   : Tbl Quad
  lanes   : Tbl Lane
  camp    : Camp
  mbx     : Tbl Mbox
  rat     : Rations
  mem     : Mem
  arb     : Arb
  cairn   : Cairns
  wear    : Wear
  acc     : AccessCheck
  cp      : ControlPort
  deriving DecidableEq, Repr

/-- Translation at reset (spec/04 R116, R120, R121): zero keys, KEY0 1, RIDGE_MAP 0x3210. -/
def Xlat.reset : Xlat :=
  { ridge := [Ridge.reset 0, Ridge.reset 1, Ridge.reset 2, Ridge.reset 3, Ridge.reset 4],
    pos := [Pos.reset, Pos.reset, Pos.reset, Pos.reset], ridgeMap := [0, 1, 2, 3], dkey := 0, ckey := 0, key0 := true, sweep := false,
    epoch := 0, rekeys := 0, evictions := 0, fenced := 0, fenceTest := 0, fenceSwap := 0, bankEcc := [], scrubAt := (0, 0), scrubNow := [], scrubLast := [], dev := [], evt := [], pinned := [], blocks := [], jobs := [], moving := none, devCache := [],
    cache := [], rewrites := [] }

/-- The wired collector at reset (spec/02 R33: not live before FAST_READY). -/
def Wired.reset : Wired := { src := [], bank := [], waiting := [], live := false }

/-- The state right after cold reset is asserted (spec/15 R398): every field at its reset value, COLD_RESET_N low, no command waiting. -/
def State.reset : State :=
  { pending := [], freeCtr := 0, clk := Clocks.reset, straps := Straps.reset, pwr := Power.reset, boot := Boot.reset, rom := Rom.keys, rope := Rope.reset,
    wired := Wired.reset, pass := [], door := Door.reset, inq := [], xl := Xlat.reset, plain := [], bel := [], tgt := [], pair := [],
    frame := [], grp := [], vt := [], ctx := [], log := [], logFull := false, links := [], partner := Partner.reset, quads := [], lanes := [],
    camp := Camp.reset, mbx := [], rat := Rations.reset, mem := Mem.reset, arb := Arb.reset, cairn := Cairns.reset, wear := Wear.reset,
    acc := AccessCheck.reset, cp := ControlPort.reset }

end Sys2Proof.Machine
end

