-- ==== Sys2Proof/Machine/Ops.lean ====
section
/-! DEFINITION. The named operations on the state: reading and changing one row of a table, the time, the free values, the output records. -/

namespace Sys2Proof.Machine

/-- The answer of a command of the block: it completes (no meaning faults). -/
abbrev ok (s : State) : Host.Outcome State Fault Refusal := .next s

/-- Pass port `n`. -/
def State.passAt (s : State) (n : Nat) : PassPort := Tbl.get PassPort.reset s.pass n

/-- Pass port `n`, changed. -/
def State.updPass (s : State) (n : Nat) (f : PassPort → PassPort) : State := { s with pass := Tbl.upd PassPort.reset s.pass n f }

/-- The copies of Plain path ridge · 16 + ledge, 80 in all (spec/05 R139). -/
def State.plainAt (s : State) (n : Nat) : PathCopy := Tbl.get PathCopy.reset s.plain n

/-- The copies of Plain path ridge · 16 + ledge, changed. -/
def State.updPlain (s : State) (n : Nat) (f : PathCopy → PathCopy) : State := { s with plain := Tbl.upd PathCopy.reset s.plain n f }

/-- Belay `n`. -/
def State.belAt (s : State) (n : Nat) : Belay := Tbl.get Belay.reset s.bel n

/-- Belay `n`, changed. -/
def State.updBel (s : State) (n : Nat) (f : Belay → Belay) : State := { s with bel := Tbl.upd Belay.reset s.bel n f }

/-- Target `n`. -/
def State.tgtAt (s : State) (n : Nat) : Target := Tbl.get Target.reset s.tgt n

/-- Target `n`, changed. -/
def State.updTgt (s : State) (n : Nat) (f : Target → Target) : State := { s with tgt := Tbl.upd Target.reset s.tgt n f }

/-- The pair target · 4 + ring. -/
def State.pairAt (s : State) (n : Nat) : Pair := Tbl.get Pair.reset s.pair n

/-- The pair target · 4 + ring, changed. -/
def State.updPair (s : State) (n : Nat) (f : Pair → Pair) : State := { s with pair := Tbl.upd Pair.reset s.pair n f }

/-- The frame target · 4 + ring, or 2048 + slot. -/
def State.frameAt (s : State) (n : Nat) : Frame := Tbl.get Frame.reset s.frame n

/-- The frame target · 4 + ring, or 2048 + slot, changed. -/
def State.updFrame (s : State) (n : Nat) (f : Frame → Frame) : State := { s with frame := Tbl.upd Frame.reset s.frame n f }

/-- Coalescing group `n`. -/
def State.grpAt (s : State) (n : Nat) : Group := Tbl.get Group.reset s.grp n

/-- Coalescing group `n`, changed. -/
def State.updGrp (s : State) (n : Nat) (f : Group → Group) : State := { s with grp := Tbl.upd Group.reset s.grp n f }

/-- Virtual target `n`. -/
def State.vtAt (s : State) (n : Nat) : Vt := Tbl.get Vt.reset s.vt n

/-- Virtual target `n`, changed. -/
def State.updVt (s : State) (n : Nat) (f : Vt → Vt) : State := { s with vt := Tbl.upd Vt.reset s.vt n f }

/-- Resident context `n`. -/
def State.ctxAt (s : State) (n : Nat) : Ctx := Tbl.get Ctx.reset s.ctx n

/-- Resident context `n`, changed. -/
def State.updCtx (s : State) (n : Nat) (f : Ctx → Ctx) : State := { s with ctx := Tbl.upd Ctx.reset s.ctx n f }

/-- The logbook entry of serial `n`. -/
def State.logAt (s : State) (n : Nat) : LogEntry := Tbl.get LogEntry.reset s.log n

/-- The logbook entry of serial `n`, changed. -/
def State.updLog (s : State) (n : Nat) (f : LogEntry → LogEntry) : State := { s with log := Tbl.upd LogEntry.reset s.log n f }

/-- Link `n`. -/
def State.linkAt (s : State) (n : Nat) : Link := Tbl.get Link.reset s.links n

/-- Link `n`, changed. -/
def State.updLink (s : State) (n : Nat) (f : Link → Link) : State := { s with links := Tbl.upd Link.reset s.links n f }

/-- Quad `n`. -/
def State.quadAt (s : State) (n : Nat) : Quad := Tbl.get Quad.reset s.quads n

/-- Quad `n`, changed. -/
def State.updQuad (s : State) (n : Nat) (f : Quad → Quad) : State := { s with quads := Tbl.upd Quad.reset s.quads n f }

/-- Lane `n`. -/
def State.laneAt (s : State) (n : Nat) : Lane := Tbl.get Lane.reset s.lanes n

/-- Lane `n`, changed. -/
def State.updLane (s : State) (n : Nat) (f : Lane → Lane) : State := { s with lanes := Tbl.upd Lane.reset s.lanes n f }

/-- Mailbox `n`. -/
def State.mbxAt (s : State) (n : Nat) : Mbox := Tbl.get Mbox.reset s.mbx n

/-- Mailbox `n`, changed. -/
def State.updMbx (s : State) (n : Nat) (f : Mbox → Mbox) : State := { s with mbx := Tbl.upd Mbox.reset s.mbx n f }

/-- The records that wait at couloir input `n` (8, 9 or 11), or in the receive queue of a link (`linkQueue`). -/
def State.inqAt (s : State) (n : Nat) : List Rec := Tbl.get [] s.inq n

/-- Those records, changed. -/
def State.updInq (s : State) (n : Nat) (f : (List Rec) → (List Rec)) : State := { s with inq := Tbl.upd [] s.inq n f }

/-- The clocks, changed. -/
def State.modClk (s : State) (f : Clocks → Clocks) : State := { s with clk := f s.clk }

/-- Power and reset, changed. -/
def State.modPwr (s : State) (f : Power → Power) : State := { s with pwr := f s.pwr }

/-- Start-up, changed. -/
def State.modBoot (s : State) (f : Boot → Boot) : State := { s with boot := f s.boot }

/-- The Rope, changed. -/
def State.modRope (s : State) (f : Rope → Rope) : State := { s with rope := f s.rope }

/-- The wired collector, changed. -/
def State.modWired (s : State) (f : Wired → Wired) : State := { s with wired := f s.wired }

/-- The doorbell, changed. -/
def State.modDoor (s : State) (f : Door → Door) : State := { s with door := f s.door }

/-- Translation, changed. -/
def State.modXl (s : State) (f : Xlat → Xlat) : State := { s with xl := f s.xl }

/-- The partnership, changed. -/
def State.modPartner (s : State) (f : Partner → Partner) : State := { s with partner := f s.partner }

/-- Base Camp, changed. -/
def State.modCamp (s : State) (f : Camp → Camp) : State := { s with camp := f s.camp }

/-- The rations, changed. -/
def State.modRat (s : State) (f : Rations → Rations) : State := { s with rat := f s.rat }

/-- The memory port, changed. -/
def State.modMem (s : State) (f : Mem → Mem) : State := { s with mem := f s.mem }

/-- The arbiters, changed. -/
def State.modArb (s : State) (f : Arb → Arb) : State := { s with arb := f s.arb }

/-- The cairn table, changed. -/
def State.modCairn (s : State) (f : Cairns → Cairns) : State := { s with cairn := f s.cairn }

/-- The wear monitors, changed. -/
def State.modWear (s : State) (f : Wear → Wear) : State := { s with wear := f s.wear }

/-- The access check, changed. -/
def State.modAcc (s : State) (f : AccessCheck → AccessCheck) : State := { s with acc := f s.acc }

/-- The control port, changed. -/
def State.modCp (s : State) (f : ControlPort → ControlPort) : State := { s with cp := f s.cp }

/-- Wired source `n` (shared s, or 8192 + 64·t + k), spec/02 R35. -/
def State.srcAt (s : State) (n : Nat) : Source := Tbl.get Source.reset s.wired.src n

/-- A wired source, changed. -/
def State.updSrc (s : State) (n : Nat) (f : Source → Source) : State :=
  { s with wired := { s.wired with src := Tbl.upd Source.reset s.wired.src n f } }

/-- The storm registers of private bank `t` (spec/02 R50). -/
def State.bankAt (s : State) (t : Nat) : BankStorm := Tbl.get BankStorm.reset s.wired.bank t

/-- An element of a list, changed. -/
def updList {α : Type} (f : α → α) : List α → Nat → List α
  | [], _ => []
  | a :: as, 0 => f a :: as
  | a :: as, n + 1 => a :: updList f as n

/-- Ridge position `p` (spec/04 R95). -/
def State.posAt (s : State) (p : Nat) : Pos := s.xl.pos.getD p Pos.reset

/-- A ridge position, changed. -/
def State.updPos (s : State) (p : Nat) (f : Pos → Pos) : State := { s with xl := { s.xl with pos := updList f s.xl.pos p } }

/-- Ridge `r` (spec/04 R120). -/
def State.ridgeAt (s : State) (r : Nat) : Ridge := s.xl.ridge.getD r (Ridge.reset r)

/-- A ridge, changed. -/
def State.updRidge (s : State) (r : Nat) (f : Ridge → Ridge) : State := { s with xl := { s.xl with ridge := updList f s.xl.ridge r } }

/-- The ridge that serves a position (spec/04 R121 RIDGE_MAP). -/
def State.ridgeOf (s : State) (p : Nat) : Nat := (s.xl.ridgeMap.getD p 0).toNat

/-- A belay that does not serve its own targets (spec/13 R365 BELAY_OUT): its ROLE is neither 0 nor 1. -/
def Belay.out (b : Belay) : Bool := b.role != 0 && b.role != 1

/-- Bits 47:0 of the time counter, as the records stamp it. -/
def State.now48 (s : State) : BitVec 48 := s.clk.time.setWidth 48

/-- Bits 31:0 of the time counter. -/
def State.now32 (s : State) : BitVec 32 := s.clk.time.setWidth 32

/-- The block runs: reset released, supplies up, POLUIF_AVAIL 1, FAST_READY, not parked (spec/15 R393, R399, R412). -/
def State.running (s : State) : Bool :=
  !s.pwr.coldHeld && !s.pwr.off && s.pwr.avail && s.boot.fastReady && s.pwr.state != 3

/-- The links' electrical side is alive: the block runs, or is parked (spec/10 R265, spec/15 R396). -/
def State.linksAlive (s : State) : Bool := !s.pwr.coldHeld && !s.pwr.off && s.pwr.avail && s.boot.fastReady

/-- The always-on domain is up (spec/15 R399, R415). -/
def State.aon (s : State) : Bool := !s.pwr.coldHeld && s.boot.aonUp

/-- A draw of the noise source (assumption log 2). -/
def State.drawNoise (s : State) : BitVec 128 × State := (Config.noise s.freeCtr, { s with freeCtr := s.freeCtr + 1 })

/-- An address of the table region (assumption log 2). -/
def State.drawAlloc (s : State) : BitVec 40 × State := (Config.alloc s.freeCtr, { s with freeCtr := s.freeCtr + 1 })

/-- A requester's state at an arbiter, its reset PRIO by spec/12 R328. -/
def arbPrio (key : Nat) : Nat :=
  if key < 60 then
    (let i := key % 12
     if i ≤ 8 then 9 else if i = 9 then 13 else if i = 10 then 14 else 15)
  else if key < 100 then
    (let i := key - 60
     if i < 16 then 8 else if i < 21 then 15 else if i = 21 then 14 else if i = 22 then 4 else if i = 23 then 2 else if i = 24 then 12 else 13)
  else 8

/-- A requester of an arbiter (keys at `Arb`). -/
def State.arbAt (s : State) (key : Nat) : ArbReq := Tbl.get (ArbReq.init (arbPrio key)) s.arb.req key

/-- A requester of an arbiter, changed. -/
def State.updArb (s : State) (key : Nat) (f : ArbReq → ArbReq) : State :=
  { s with arb := { s.arb with req := Tbl.upd (ArbReq.init (arbPrio key)) s.arb.req key f } }

/-- The key of a valley link's receive queue, which feeds couloir input 10 (spec/01 R17, R29). -/
def linkQueue (k : Nat) : Nat := 16 + k

/-- The queue in which a record waits for its grant: its couloir input's, or its link's receive queue (spec/01 R17, R29). -/
def queueOf (r : Rec) : Nat :=
  match r.origin with
  | .handle h => if r.input = 10 then linkQueue (h.req.toNat % 16) else r.input
  | .doorbell _ => r.input

/-- A record put at the end of the queue of its couloir input (spec/01 R17). -/
def State.enqueue (s : State) (r : Rec) : State := s.updInq (queueOf r) (fun q => q ++ [r])

/-- A response presented at the control port (spec/16 R418). -/
def State.respond (s : State) (rescue : Bool) (tag : BitVec 8) (err : BitVec 2) (data : Word) : State :=
  { s with cp := { s.cp with responses := { rescue := rescue, tag := tag, err := err, data := data } :: s.cp.responses } }

/-- The write responses that may leave: those at the front of the buffer with no record left to grant or refuse (spec/03 R83). -/
def drainOwed : List Owed → List Owed × List Owed
  | [] => ([], [])
  | o :: rest => if o.left = 0 then (match drainOwed rest with | (l, gone) => (l, o :: gone)) else (o :: rest, [])

/-- Whether all 16 entries of the posted-write buffer are taken (spec/16 R419). -/
def State.bufferFull (s : State) : Bool := decide (16 ≤ (s.cp.wbuf.filter (fun o => o.err == 0)).length)

/-- The posted-write buffer answers its writes in acceptance order (spec/03 R83, spec/16 R418). -/
def State.answerWrites (s : State) : State :=
  match drainOwed s.cp.wbuf with
  | (left, gone) => foldList (fun o s => s.respond false o.tag o.err 0) gone { s with cp := { s.cp with wbuf := left } }

/-- One record of an accepted write is granted or refused: the write owes one record fewer (spec/03 R83). -/
def State.settleWrite (s : State) (wid : Option Nat) : State :=
  match wid with
  | none => s
  | some w =>
    State.answerWrites { s with cp := { s.cp with wbuf := s.cp.wbuf.map (fun o => if o.wid = w then { o with left := o.left - 1 } else o) } }

/-- The arrival count of an ingress (spec/03 R69; spec/05 R124). -/
def State.arrivalNow (s : State) (input : Nat) : BitVec 40 := if input < 8 then (s.passAt input).arrival else if input = 8 then s.door.arrival else 0

/-- The 40-bit arrival count that the 31 bits of a logbook entry stand for: the largest count not greater than the ingress's own that ends in them (spec/13
R348). -/
def arrivalOf (now : BitVec 40) (low : BitVec 31) : BitVec 40 :=
  let c : BitVec 40 := (now >>> 31).setWidth 9 ++ low
  if now.ult c then c - 0x80000000 else c

/-- The arrival count with which an item of a serial is replayed or rebuilt: from its logbook entry where that is intact (spec/13 R348). -/
def State.restored (s : State) (o : Origin) (serial : BitVec 32) (input : Nat) (arrival : BitVec 40) : BitVec 40 :=
  let e := s.logAt serial.toNat
  if e.state == 0 || !e.intact || e.origin != o then arrival else arrivalOf (s.arrivalNow input) e.arrival

end Sys2Proof.Machine
end

