-- ==== Sys2Proof/Machine/Hash.lean ====
section
/-! DEFINITION. Handle values and the two keyed hashes (spec/04 R94, R107). -/

namespace Sys2Proof.Machine

/-- The 38-bit handle value: class, requester, event (spec/04 R94). -/
def Handle.val (h : Handle) : BitVec 38 := h.cls ++ h.req ++ h.evt

/-- The ridge position of a handle value under a distribution key (spec/04 R94). -/
def hashPos (dkey h : BitVec 38) : Nat := (((h ^^^ dkey) * 0x2C2B2AE3D#38) >>> 36).toNat

/-- The position of a handle. -/
def State.posOf (s : State) (h : Handle) : Nat := hashPos s.xl.dkey h.val

/-- Key word `i` of CKEY (spec/04 R107). -/
def ckeyWord (ckey : BitVec 72) (i : Nat) : BitVec 18 := field ckey (18 * i) 18

/-- One round of the Feistel bijection (spec/04 R107). -/
def feistelRound (k : BitVec 18) (p : BitVec 18 × BitVec 18) : BitVec 18 × BitVec 18 :=
  let f := (p.2 ^^^ k) * 0x2D4A3#18
  (p.2, p.1 ^^^ ((f <<< 7) ||| (f >>> 11)))

/-- Set and tag of a (requester, event) pair (spec/04 R107). -/
def cacheIndex (ckey : BitVec 72) (req : BitVec 16) (evt : BitVec 20) : BitVec 13 × BitVec 23 :=
  let l : BitVec 18 := req ++ field evt 18 2
  let r : BitVec 18 := field evt 0 18
  let p := feistelRound (ckeyWord ckey 3) (feistelRound (ckeyWord ckey 2) (feistelRound (ckeyWord ckey 1) (feistelRound (ckeyWord ckey 0) (l, r))))
  (field p.2 0 13, p.1 ++ field p.2 13 5)

/-- The handle of wired source `n`: class 0 number `n`, or class 1 number `n` − 8192 (spec/01 R18). -/
def srcHandle (n : Nat) : Handle :=
  if n < 8192 then { cls := 0, req := 0, evt := BitVec.ofNat 20 n } else { cls := 1, req := 0, evt := BitVec.ofNat 20 (n - 8192) }

/-- The wired source a class 0 or class 1 handle names. -/
def handleSrc (h : Handle) : Nat := if h.cls == 0 then h.evt.toNat else 8192 + h.evt.toNat

end Sys2Proof.Machine
end

