-- ==== Sys2Proof/Machine/Lines.lean ====
section
/-! DEFINITION. What the block's own DRAM lines hold, 32 bytes each, little-endian (spec/00 R14): table entries (spec/04 R100, R101), spill, save-area
and bivouac entries (spec/06 R171, spec/08 R205), descriptors (spec/08 R205) and logbook entries (spec/13 R346). -/

namespace Sys2Proof.Machine

/-- The class of what an instance or record stands for: a doorbell counts as class 2 (spec/01 R29, spec/08 R199). -/
def Origin.cls (o : Origin) : BitVec 2 := match o with | .handle h => h.cls | .doorbell _ => 2

/-- A line of four words, the first at the lowest address. -/
def lineOf (w0 w1 w2 w3 : Word) : BitVec 256 := w3 ++ (w2 ++ (w1 ++ w0))

/-- A device-table entry (spec/04 R100): words 0 and 1. -/
def DevEntry.words (d : DevEntry) : Word × Word :=
  (putBit 63 d.valid ||| putBit 62 d.pinned ||| put 56 d.owner ||| put 48 d.eventBits ||| put 32 d.ingress ||| put 0 d.devGen,
   put 50 d.pinBase ||| put 0 d.evtBase)

/-- A translation entry (spec/04 R101): words 0 and 1. -/
def EvtEntry.words (e : EvtEntry) : Word × Word :=
  (putBit 63 e.valid ||| putBit 62 e.pinned ||| putBit 61 e.route.level ||| putBit 60 e.route.virt ||| put 58 e.route.ring |||
     put 48 e.route.prio ||| put 32 e.route.cgroup ||| put 16 e.route.target,
   put 40 e.route.vector ||| put 0 e.gen)

/-- The claim word (spec/06 R153, spec/07 R182). -/
def Inst.word (x : Inst) : Word :=
  let many := x.counted && decide (2 ≤ x.count.toNat)
  let link : BitVec 8 := match x.origin with | .handle h => if h.cls == 3 then h.req.setWidth 8 else 0 | .doorbell _ => 0
  (1#1 : BitVec 1) ++ bit x.replayed ++ bit many ++ x.origin.cls ++ (0#3 : BitVec 3) ++ x.prio ++ (if many then x.count else x.payload) ++ link ++
    x.vector

/-- EVENT and REQUESTER of an entry: a handle's own; of a doorbell, which has no handle, its virtual target as event (DESIGN CHOICE, assumption
log 51). -/
def Origin.fields (o : Origin) : BitVec 20 × BitVec 16 :=
  match o with | .handle h => (h.evt, h.req) | .doorbell v => (v.setWidth 20, 0)

/-- A spill entry (spec/06 R171). -/
def Inst.spillData (x : Inst) (asserted : Bool) : BitVec 256 :=
  let f := x.origin.fields
  lineOf x.word (put 0 x.serial ||| put 32 f.1)
    (put 0 (field x.landed 0 48) ||| put 48 x.ring ||| put 50 x.target ||| putBit 59 asserted ||| putNat 60 4 x.input) (put 0 x.arrival ||| put 40 f.2)

/-- A save or bivouac entry of virtual target `v`: the layout of a spill entry with TARGET v & 0x1FF, and v as REQUESTER outside class 2 (spec/08
R205). -/
def Inst.areaData (x : Inst) (v : BitVec 16) (asserted : Bool) : BitVec 256 :=
  let f := x.origin.fields
  lineOf x.word (put 0 x.serial ||| put 32 f.1)
    (put 0 (field x.landed 0 48) ||| put 48 x.ring ||| put 50 (field v 0 9) ||| putBit 59 asserted ||| putNat 60 4 x.input)
    (put 0 x.arrival ||| put 40 (if x.origin.cls == 2 then f.2 else v))

/-- STRAY_COUNT of a frame (spec/06 R172). -/
def Frame.strayWord (f : Frame) : Word := put 0 f.strayCount ||| put 32 f.strayLimit

/-- STARVE of a frame with its OLDEST (spec/05 R143). -/
def Frame.starveWord (f : Frame) (oldest : Nat) : Word := put 0 f.limit ||| putBit 24 f.polled ||| putBit 31 f.flag ||| putNat 32 32 oldest

/-- Words 0 to 7 of a virtual target's descriptor (spec/08 R205); that of an undefined one is zeroed (R207, R209; spec/11 R294). -/
def Vt.descriptor (m : Vt) : List Word :=
  if !m.defined then [0, 0, 0, 0, 0, 0, 0, 0]
  else
  [putBit 63 m.defined ||| putBit 62 m.suspect ||| put 56 m.owner ||| put 54 m.ring ||| putNat 49 5 m.savedAct.length ||| put 32 m.cap |||
     putNat 16 16 m.bivouac.length ||| put 0 m.drops,
   put 0 m.area, m.saved.threshold.setWidth 64, m.saved.starveWord 0, m.saved.strayWord, m.saved.strayLast, m.saved.claimTime, 0]

/-- Line 0 or 1 of a descriptor. -/
def Vt.descLine (m : Vt) (i : Nat) : BitVec 256 :=
  let d (k : Nat) : Word := m.descriptor.getD (4 * i + k) 0
  lineOf (d 0) (d 1) (d 2) (d 3)

/-- KIND of a logbook entry (spec/13 R346). -/
def RKind.code (k : RKind) : BitVec 3 :=
  match k with
  | .event => 0 | .eventPayload => 1 | .levelAssert => 2 | .levelDeassert => 3 | .withdraw => 4 | .merge => 5 | .doorbell => 6

/-- HANDLE of a logbook entry (spec/13 R346). -/
def Origin.logHandle (o : Origin) : BitVec 36 :=
  match o with
  | .doorbell v => v.setWidth 36
  | .handle h => if h.cls == 2 then h.req ++ h.evt else if h.cls == 3 then (field h.req 0 4 ++ field h.evt 0 12).setWidth 36 else h.evt.setWidth 36

/-- A logbook entry's 16 bytes (spec/13 R346). -/
def LogEntry.bits (e : LogEntry) (serial : BitVec 32) : BitVec 128 :=
  serial ++ e.origin.cls ++ e.origin.logHandle ++ e.kind.code ++ BitVec.ofNat 4 e.input ++ bit e.counted ++ e.payload ++ e.state ++ bit e.replayed ++
    e.arrival

end Sys2Proof.Machine
end

