-- ==== Sys2Proof/Machine/Ration.lean ====
section
/-! DEFINITION. Rations (spec/12 R305 to R317): quotas, their budgets as of the present round, charges, and the sums of admission. -/

namespace Sys2Proof.Machine

/-- The key of an activity's quota at a unit (spec/12 R313: SCOPE, UNIT, ACTIVITY). -/
def quotaKey (act scope unit : Nat) : Nat := (scope * 65536 + unit) * 16 + act

/-- CYCLES at CAMP_READY (spec/12 R314). -/
def defaultCycles (act scope : Nat) : Nat :=
  match scope, act with
  | 0, 1 => 256
  | 0, 4 => 128
  | 0, 5 => 256
  | 0, 6 => 128
  | 0, 7 => 128
  | 0, 8 => 64
  | 0, 9 => 64
  | 0, 10 => 128
  | 1, 2 => 128
  | 1, 3 => 64
  | 1, 5 => 128
  | 1, 6 => 64
  | 1, 7 => 64
  | 1, 8 => 32
  | 1, 9 => 64
  | 1, 10 => 64
  | _, _ => 0

/-- BYTES at CAMP_READY (spec/12 R314). -/
def defaultBytes (act scope : Nat) : Nat :=
  match scope, act with
  | 0, 1 => 128
  | 1, 2 => 4
  | 2, 4 => 256
  | 2, 5 => 512
  | 2, 6 => 32
  | _, _ => 0

/-- A quota's row. -/
def State.quotaAt (s : State) (act scope unit : Nat) : Quota := Tbl.get Quota.reset s.rat.quota (quotaKey act scope unit)

/-- A quota's row, changed. -/
def State.updQuota (s : State) (act scope unit : Nat) (f : Quota → Quota) : State :=
  { s with rat := { s.rat with quota := Tbl.upd Quota.reset s.rat.quota (quotaKey act scope unit) f } }

/-- PINNED_USED (spec/04 R121). -/
def State.pinnedUsed (s : State) : Nat := s.xl.blocks.foldl (fun n b => n + b.len) 0

/-- The defined virtual targets whose doorbell target a belay serves (spec/12 R315). -/
def State.vtsOfBelay (s : State) (b : Nat) : Nat :=
  s.vt.foldl (fun n p => if p.2.defined && p.2.dbTarget.toNat / 2 = b then n + 1 else n) 0

/-- KEEP_WARM of the contract in force (spec/12 R319). -/
def State.keepWarm (s : State) : Bool := match s.rat.contract with | some c => c.keepWarm | none => false

/-- ⌈a / b⌉. -/
def ceilDiv (a b : Nat) : Nat := (a + b - 1) / b

/-- The implied byte quota (spec/12 R315). -/
def State.implied (s : State) (act scope unit : Nat) : Nat :=
  match scope, act with
  | 0, 1 => 32 * (s.rat.unpins.filter (fun e => s.rat.round < e)).length
  | 1, 3 => 32 * ceilDiv (s.vtsOfBelay unit) 64
  | 2, 6 => 32 * ceilDiv s.pinnedUsed 8192 + (if s.keepWarm then 1 else 0)
  | _, _ => 0

/-- CYCLES as they stand. -/
def State.cyclesOf (s : State) (act scope unit : Nat) : Nat :=
  match (s.quotaAt act scope unit).cycles with
  | some c => c
  | none => if s.rat.ready then defaultCycles act scope else 0

/-- BYTES as set. -/
def State.bytesSet (s : State) (act scope unit : Nat) : Nat :=
  match (s.quotaAt act scope unit).bytes with
  | some b => b
  | none => if s.rat.ready then defaultBytes act scope else 0

/-- The effective byte quota (spec/12 R315). -/
def State.bytesOf (s : State) (act scope unit : Nat) : Nat := max (s.bytesSet act scope unit) (s.implied act scope unit)

/-- A quota as of round `r`: usage counts restart at a boundary, masks lift, the budget grows by BYTES a round up to its cap (spec/12 R305, R309). -/
def Quota.at (q : Quota) (r bytes : Nat) : Quota :=
  if r ≤ q.round then q
  else
    { q with
      round := r, used := 0, usedLast := if r = q.round + 1 then q.used else 0, bytesIn := 0,
      bytesInLast := if r = q.round + 1 then q.bytesIn else 0, bytesAbove := 0,
      bytesAboveLast := if r = q.round + 1 then q.bytesAbove else 0,
      budget := min (q.budget + bytes * (r - q.round)) (max bytes 32), masked := false }

/-- A quota brought to the present round, with its pending setting applied (spec/12 R305). -/
def State.settleQuota (s : State) (act scope unit : Nat) : State :=
  s.updQuota act scope unit (fun q =>
    if s.rat.round ≤ q.round then q
    else
      let q := { q with cycles := q.nextCycles.or q.cycles, bytes := q.nextBytes.or q.bytes, nextCycles := none, nextBytes := none }
      q.at s.rat.round (max (q.bytes.getD (if s.rat.ready then defaultBytes act scope else 0)) (s.implied act scope unit)))

/-- A quota reaches its count: the activity is masked at the unit until the next round (spec/12 R307, R309, R334 EXHAUSTED). -/
def State.exhaust (s : State) (act scope unit : Nat) : State :=
  if (s.quotaAt act scope unit).masked then s
  else
    let s := s.updQuota act scope unit (fun q => { q with masked := true, exhausted := satInc q.exhausted })
    { s with rat := { s.rat with exhausted := Tbl.upd 0 s.rat.exhausted act (fun n => n + 1), exhaustSeen := true } }

/-- One ranking-state cycle charged to an activity at a unit (spec/12 R307). DELIVER (activity 0) has no quota. -/
def State.charge (s : State) (act scope unit : Nat) : State :=
  let s := (s.settleQuota act scope unit).updQuota act scope unit (fun q => { q with used := q.used + 1 })
  if (s.quotaAt act scope unit).used ≥ s.cyclesOf act scope unit then s.exhaust act scope unit else s

/-- `n` cycles charged. -/
def State.chargeN (s : State) (act scope unit : Nat) : Nat → State
  | 0 => s
  | n + 1 => (s.charge act scope unit).chargeN act scope unit n

/-- One line's 32 bytes taken from a budget: whether the request is in ration (spec/12 R309). Under POWER_WARN every activity but SAVE is masked
and SAVE has the whole contract (R312). -/
def State.spend (s : State) (act scope unit : Nat) : Bool × State :=
  let s := s.settleQuota act scope unit
  let q := s.quotaAt act scope unit
  if s.pwr.maskedSave && act = 9 then
    (true, s.updQuota act scope unit (fun q => { q with bytesIn := q.bytesIn + 32 }))
  else if q.budget ≥ 32 && !s.pwr.maskedSave then
    let s := s.updQuota act scope unit (fun q => { q with budget := q.budget - 32, bytesIn := q.bytesIn + 32 })
    (true, if q.budget < 64 then s.exhaust act scope unit else s)
  else
    let s := s.updQuota act scope unit (fun q => { q with bytesAbove := q.bytesAbove + 32 })
    (false, s.exhaust act scope unit)

/-- Sum of a function over the numbers below `n`. -/
def sumBelow (f : Nat → Nat) : Nat → Nat
  | 0 => 0
  | n + 1 => sumBelow f n + f n

/-- The five block requesters of the memory port, as (activity, traverse input) (spec/12 R313). -/
def blockRequesters : List (Nat × Nat) := [(4, 21), (6, 22), (8, 23), (5, 24), (9, 25)]

/-- The sum of every byte quota under a valuation of each quota (spec/12 R316). -/
def sumQuotas (f : Nat → Nat → Nat → Nat) : Nat :=
  sumBelow (f 1 0) 4 + sumBelow (f 2 1) 256 + sumBelow (f 3 1) 256 + (blockRequesters.map (fun p => f p.1 2 p.2)).foldl (· + ·) 0

/-- The BYTES a quota will hold at the next boundary. -/
def State.bytesNext (s : State) (act scope unit : Nat) : Nat :=
  max ((s.quotaAt act scope unit).nextBytes.getD (s.bytesSet act scope unit)) (s.implied act scope unit)

/-- MEM_COMMITTED: the sum of every effective byte quota (spec/12 R316), settings that wait for their boundary included. -/
def State.committed (s : State) : Nat := sumQuotas s.bytesNext

/-- MEM_LIMIT: ⌊0.9 × CONTRACT_BYTES⌋, 0 before the first contract (spec/12 R316). -/
def State.memLimit (s : State) : Nat :=
  match s.rat.nextContract.or s.rat.contract with
  | some c => 9 * c.bytes.toNat / 10
  | none => 0

/-- Admission of a state's byte quotas: no check before the first contract (spec/12 R316). -/
def State.admits (s : State) : Bool :=
  match s.rat.nextContract.or s.rat.contract with
  | some _ => decide (s.committed ≤ s.memLimit)
  | none => true

end Sys2Proof.Machine
end

