-- ==== Sys2Proof/Machine/MemPort.lean ====
section
/-! DEFINITION. The memory port: a request enters its traverse queue, and the traverse arbiter sends queued requests out (spec/12 R309, R321 to R329). -/

namespace Sys2Proof.Machine

/-- The target whose belay writes a virtual target's area: the bound target's while it is resident, DB_TARGET's else (spec/08 R204, R205). -/
def State.writerOf (s : State) (v : Nat) : Nat :=
  let m := s.vtAt v
  if m.resident then (s.ctxAt m.slot.toNat).target.toNat else m.dbTarget.toNat

/-- The activity, scope and unit whose bytes a request spends, and its traverse input (spec/12 R306). -/
def State.memUnit (s : State) (o : MemOwner) : Nat × Nat × Nat × Nat :=
  let belay (t : Nat) (act : Nat) := (act, 1, t / 2, t / 32)
  match o with
  | .walkDev p _ => (1, 0, p.toNat, 16 + s.ridgeOf p.toNat)
  | .walkEvt p _ => (1, 0, p.toNat, 16 + s.ridgeOf p.toNat)
  | .refill t _ => belay t.toNat 2
  | .spillWrite t _ => belay t.toNat 2
  | .bivouac c _ => belay (s.ctxAt c.toNat).target.toNat 3
  | .bivWrite v _ => belay (s.writerOf v.toNat) 3
  | .actWrite v _ => belay (s.writerOf v.toNat) 3
  | .logWrite _ => (4, 2, 21, 21)
  | .zero act b => if act = 5 then (5, 2, 24, 24) else belay (2 * b) act
  | .table _ | .descriptor _ | .config | .boot => (5, 2, 24, 24)
  | .scrub => (6, 2, 22, 22)
  | .keepWarm => (6, 2, 22, 22)
  | .save => (9, 2, 25, 25)

/-- Whether a traverse input is masked by its sideband (spec/12 R326): the walker of an isolated or tested ridge, Base Camp forced absent or with
no active pair. -/
def State.traverseMasked (s : State) (i : Nat) : Bool :=
  if 16 ≤ i && i < 21 then decide ((s.ridgeAt (i - 16)).role.toNat ≥ 2)
  else if i = 24 then s.camp.forced || !(if s.camp.active then s.camp.execB else s.camp.execA)
  else (s.arbAt (60 + i)).forced

/-- Whether a requester is masked by its sideband (spec/12 R326): a Pass port that is not live with nothing left to present, a walker or belay out of
service, Base Camp while no pair is active, a requester forced absent. -/
def State.arbMasked (s : State) (k : Nat) : Bool :=
  (s.arbAt k).forced ||
  (if k < 60 then decide (k % 12 < 8) && !(s.passAt (k % 12)).live && (s.passAt (k % 12)).buf.isEmpty
   else if k < 100 then s.traverseMasked (k - 60)
   else (s.belAt (k - 100)).out)

/-- The belay that serves belay `b`'s targets: its partner while it covers (spec/12 R311). -/
def State.serverOf (s : State) (b : Nat) : Nat := if (s.belAt b).out then b ^^^ 1 else b

/-- The first of each key's requests. -/
def headsBy (key : MemReq → Nat) (seen : List Nat) : List MemReq → List MemReq
  | [] => []
  | r :: rs => if seen.contains (key r) then headsBy key seen rs else r :: headsBy key (key r :: seen) rs

/-- The head of each input's queue: the only one that competes (spec/12 R329). -/
def Mem.heads (m : Mem) : List MemReq := headsBy (fun r => r.input) [] m.queued

/-- The rank of a request at the traverse: in ration first, then PRIO, then the higher input (spec/12 R325; no ageing). -/
def State.traverseRank (s : State) (r : MemReq) : Nat :=
  ((if r.inRation then 16 else 0) + (s.arbAt (60 + r.input)).prio.toNat) * 64 + r.input

/-- The request the traverse arbiter grants: a lock's owner alone while a lock stands (spec/12 R325, R327). -/
def State.traversePick (s : State) : Option MemReq :=
  let heads := s.mem.heads.filter (fun r => !s.traverseMasked r.input &&
    (match s.arb.lock with | some (o, _) => r.input == o | none => true))
  bestOf (fun a b => decide (s.traverseRank b < s.traverseRank a)) heads

/-- An identifier that is neither outstanding nor waiting for a late response (spec/12 R324). -/
def State.freeId (s : State) : Option (BitVec 8) :=
  (firstBelow 256 (fun k =>
    let i := s.mem.nextId + BitVec.ofNat 8 k
    !(s.mem.out.any (fun r => r.id == i)) && !(s.mem.late.contains i))).map (fun k => s.mem.nextId + BitVec.ofNat 8 k)

/-- A requester that presents without a grant waits one cycle more (spec/12 R330). -/
def ArbReq.waitOne (a : ArbReq) : ArbReq :=
  { a with waits := a.waits + 1, wait := a.wait + 1, longest := if a.longest.toNat < a.wait + 1 then satInc a.longest else a.longest }

/-- A requester that is granted (spec/12 R330, R332). -/
def ArbReq.grantOne (a : ArbReq) (inRation : Bool) : ArbReq :=
  { a with grants := a.grants + 1, ration := if inRation then a.ration + 1 else a.ration, losses := 0, wait := 0, told := false }

/-- Odd parity of each byte of a line (spec/12 R323). -/
def linePar (d : BitVec 256) : BitVec 32 :=
  BitVec.ofNat 32 ((List.range 32).foldl (fun n k => if popBelow (field d (8 * k) 8 : BitVec 8) 8 % 2 = 0 then n + 2 ^ k else n) 0)

/-- MEM_REQ_QOS (spec/12 R312, R323). -/
def State.qosOf (s : State) (r : MemReq) : BitVec 2 := if r.act = 9 && s.pwr.maskedSave then 2 else if r.inRation then 3 else 1

/-- The request `r` sent out under identifier `i`: its input is granted, the other heads wait. -/
def State.sendReq (s : State) (r : MemReq) (i : BitVec 8) : State :=
  let others := s.mem.heads.filter (fun q => q.input != r.input && !s.traverseMasked q.input)
  let t := foldList (fun (q : MemReq) s => s.updArb (60 + q.input) ArbReq.waitOne) others s
  let t := t.updArb (60 + r.input) (fun a => a.grantOne r.inRation)
  t.modMem (fun m =>
    { m with
      queued := dropFirst (fun q => q == r) m.queued, nextId := i + 1,
      out := m.out ++ [{ r with id := i, since := s.clk.ticks, qos := s.qosOf r, par := linePar r.data }] })

/-- Bits 3:0 of a requester's effective priority (spec/12 R325). -/
def ArbReq.effective (a : ArbReq) : Nat := min 15 (a.prio.toNat + a.losses)

/-- Whether a request would be in ration now (spec/12 R309, R310). -/
def State.wouldRation (s : State) (r : MemReq) : Bool :=
  !r.above && (if s.pwr.maskedSave then r.act = 9 else decide (32 ≤ ((s.settleQuota r.act r.scope r.unit).quotaAt r.act r.scope r.unit).budget))

/-- The rank of a belay's request at its ledge arbiter (spec/12 R310, R325): in ration first, then priority with ageing, then the higher belay. -/
def State.ledgeRank (s : State) (r : MemReq) : Nat :=
  ((if s.wouldRation r then 16 else 0) + (s.arbAt (100 + s.serverOf r.unit)).effective) * 256 + s.serverOf r.unit

/-- The requests that compete to enter a traverse queue: a ledge's belays with one each (spec/12 R325, R328), another requester's oldest. -/
def State.entering (s : State) (i : Nat) : List MemReq :=
  let l := s.mem.waits.filter (fun r => r.input == i)
  if i < 16 then headsBy (fun r => s.serverOf r.unit) [] l else l.take 1

/-- The request that enters a traverse queue next, where it holds fewer than 8 (spec/12 R329). -/
def State.entryPick (s : State) (i : Nat) : Option MemReq :=
  if 8 ≤ (s.mem.queued.filter (fun r => r.input == i)).length then none
  else bestOf (fun a b => decide (s.ledgeRank b < s.ledgeRank a)) (s.entering i)

/-- A request that goes out above ration whatever the budget holds (spec/11 R449). -/
def State.spendAbove (s : State) (act scope unit : Nat) : State :=
  (s.settleQuota act scope unit).updQuota act scope unit (fun q => { q with bytesAbove := q.bytesAbove + 32 })

/-- A request enters its traverse queue and takes its 32 bytes from its budget, in ration or above it (spec/12 R309); a belay's is granted by its ledge arbiter,
where the other belays lose the contest (R310, R325). -/
def State.enterReq (s : State) (r : MemReq) : State :=
  let lost := if r.input < 16 then (s.entering r.input).filter (fun q => q.unit != r.unit) else []
  let q := if r.above then (false, s.spendAbove r.act r.scope r.unit) else s.spend r.act r.scope r.unit
  let s := foldList (fun (q : MemReq) s => s.updArb (100 + s.serverOf q.unit) (fun a => { a.waitOne with losses := a.losses + 1 })) lost q.2
  let s := if r.input < 16 then s.updArb (100 + s.serverOf r.unit) (fun a => a.grantOne q.1) else s
  s.modMem (fun m => { m with waits := dropFirst (fun x => x == r) m.waits, queued := m.queued ++ [{ r with inRation := q.1 }] })

/-- The waiting requests enter their traverse queues as far as these have room. -/
def State.enterAll (s : State) : Nat → State
  | 0 => s
  | n + 1 =>
    match (List.range 26).findSome? s.entryPick with
    | some r => (s.enterReq r).enterAll n
    | none => s

/-- Requests go out while fewer than 256 are outstanding and the memory port is up (spec/12 R324). -/
def State.pumpMem (s : State) : Nat → State
  | 0 => s
  | n + 1 =>
    let s := s.enterAll s.mem.waits.length
    if s.running && s.mem.out.length < 256 then
      (match s.traversePick, s.freeId with
       | some r, some i => (s.sendReq r i).pumpMem n
       | _, _ => s)
    else s

/-- Everything that may go out. -/
def State.pumpAll (s : State) : State := s.pumpMem (s.mem.waits.length + s.mem.queued.length)

/-- A request is made: `addr` is MEM_REQ_ADDR, `data` MEM_REQ_DATA. -/
def State.memEnter (s : State) (above : Bool) (o : MemOwner) (write : Bool) (addr : BitVec 47) (data : BitVec 256) (again : Bool) : State :=
  let u := s.memUnit o
  let r : MemReq :=
    { id := 0, act := u.1, scope := u.2.1, unit := u.2.2.1, above := above, qos := 0, par := 0, input := u.2.2.2, owner := o, write := write, addr := addr,
      data := data, inRation := false, again := again, since := 0 }
  (s.modMem (fun m => { m with waits := m.waits ++ [r] })).pumpAll

/-- A request on its activity's budget (spec/12 R309). -/
def State.memIssue (s : State) (o : MemOwner) (write : Bool) (addr : BitVec 47) (data : BitVec 256) (again : Bool) : State :=
  s.memEnter false o write addr data again

/-- A line written above ration (spec/11 R449). -/
def State.memAbove (s : State) (o : MemOwner) (addr : BitVec 47) (data : BitVec 256) : State := s.memEnter true o true addr data false

/-- Whether a request that has not been answered satisfies a condition. -/
def Mem.has (m : Mem) (p : MemReq → Bool) : Bool := m.waits.any p || m.queued.any p || m.out.any p

/-- A line read. -/
def State.memRead (s : State) (o : MemOwner) (addr : BitVec 47) : State := s.memIssue o false addr 0 false

/-- A line written: a line of that address held after a failed write is replaced by it (spec/13 R355). -/
def State.memWrite (s : State) (o : MemOwner) (addr : BitVec 47) (data : BitVec 256) : State :=
  (s.modMem (fun m => { m with retained := m.retained.filter (fun r => r.addr != addr) })).memIssue o true addr data false

/-- A line address the spec leaves open: a place in the spill pool or the overflow region (assumption log 2). -/
def State.drawLine (s : State) : BitVec 47 × State :=
  ((Config.freeValue s.freeCtr).setWidth 47, { s with freeCtr := s.freeCtr + 1 })

/-- Whether the write-retain buffer holds a line address: its write is not yet acknowledged, or it is held as the only copy (spec/04 R105, spec/12
R322, spec/13 R355). -/
def State.lineHeld (s : State) (addr : BitVec 47) : Bool :=
  let mine (r : MemReq) : Bool := r.write && r.addr == addr
  s.mem.has mine || s.mem.retained.any mine

/-- A walk's or other table read: served at once from the write-retain buffer while it holds the line, else by the port (spec/04 R105, spec/12 R322). -/
def State.tableRead (s : State) (o : MemOwner) (addr : BitVec 47) : State :=
  if s.lineHeld addr then s.modMem (fun m => { m with done := m.done ++ [(o, none)] }) else s.memRead o addr

/-- Whether the write-retain buffer holds the line that an owner wrote: its write is not yet acknowledged, or it is held as the only copy
(spec/12 R322, spec/13 R355). -/
def State.retains (s : State) (o : MemOwner) : Bool :=
  let mine (r : MemReq) : Bool := r.write && r.owner == o
  s.mem.has mine || s.mem.retained.any mine

/-- A held line that its owner no longer needs (spec/13 R355). -/
def State.unretain (s : State) (o : MemOwner) : State :=
  s.modMem (fun m => { m with retained := m.retained.filter (fun r => r.owner != o) })

/-- A line read back: from the write-retain buffer while it holds the line, which `w` wrote, else from memory (spec/12 R322, spec/13 R355). -/
def State.readBack (s : State) (w o : MemOwner) (addr : BitVec 47) : State :=
  if s.retains w then s.modMem (fun m => { m with done := m.done ++ [(o, none)] }) else s.memRead o addr

/-- The read that a delivered result answers, taken from the list: `none` inside means that its data came. -/
def State.takeRead (s : State) (o : MemOwner) : Option (Option (BitVec 2)) × State :=
  match s.mem.done.find? (fun p => p.1 == o) with
  | some p => (some p.2, s.modMem (fun m => { m with done := dropFirst (fun q => q.1 == o) m.done }))
  | none => (none, s)

end Sys2Proof.Machine
end

