-- ==== Sys2Proof/Machine/Report.lean ====
section
/-! DEFINITION. Reports and faults (spec/13 R338, R339, R342, R357): how a unit's report reaches the merging queue. -/

namespace Sys2Proof.Machine

/-- Who observes a fault: a ridge position or a belay, whose FAULT ration the report spends (spec/13 R339), or another unit by number. -/
inductive Reporter where
  | ridge (p : Nat)
  | belay (b : Nat)
  | other (n : Nat)
  deriving DecidableEq, Repr

/-- The number under which a reporting unit holds its keys. -/
def Reporter.num (r : Reporter) : Nat := match r with | .ridge p => p | .belay b => 16 + b | .other n => 1024 + n

/-- Whether the FAULT quota of a reporting unit is exhausted in this round (spec/13 R339). -/
def State.faultMasked (s : State) (r : Reporter) : Bool :=
  match r with
  | .ridge p => (s.quotaAt 10 0 p).masked && (s.quotaAt 10 0 p).round = s.rat.round && s.cyclesOf 10 0 p > 0
  | .belay b => (s.quotaAt 10 1 b).masked && (s.quotaAt 10 1 b).round = s.rat.round && s.cyclesOf 10 1 b > 0
  | .other _ => false

/-- Whether a report's key is that of a waiting report. -/
def Report.sameKey (a b : Report) : Bool := a.cause == b.cause && a.kind == b.kind && a.unit == b.unit

/-- A report merged into one of its key that waits (spec/13 R338, R339). -/
def Report.absorb (q r : Report) : Report :=
  { q with count := satAdd q.count r.count.toNat, last := r.last, latest := r.latest, sev := if q.sev.ult r.sev then r.sev else q.sev }

/-- A report merged into the first waiting report of its key. -/
def absorbInto (r : Report) : List Report → List Report
  | [] => []
  | q :: qs => if q.sameKey r then q.absorb r :: qs else q :: absorbInto r qs

/-- The same at the units that hold reports. -/
def absorbHeld (u : Nat) (r : Report) : List (Nat × Report) → List (Nat × Report)
  | [] => []
  | q :: qs => if q.1 = u && q.2.sameKey r then (u, q.2.absorb r) :: qs else q :: absorbHeld u r qs

/-- Severity 2 reports from a ridge, a belay, the Plain, SRAM or Camp are faults (spec/13 R357). -/
def countsAsFault (kind : BitVec 8) (sev : BitVec 2) : Bool :=
  sev == 2 && (kind == 1 || kind == 2 || kind == 3 || kind == 4 || kind == 13)

/-- Whether a fault counted now is a second fault: within 1,000,000 TCLK ticks of FAULT_TIME (spec/13 R357). -/
def State.secondFault (s : State) : Bool := s.cairn.faultAny && decide (s.clk.ticks < s.cairn.faultAt + 1000000)

/-- The key of a fault, for the 2 µs rule of spec/13 R357. -/
def faultKey (cause kind : BitVec 8) (unit : BitVec 16) : BitVec 32 := cause ++ kind ++ unit

/-- Whether a fault's key was counted within the previous 2 µs, 200 TCLK ticks (spec/13 R357). -/
def State.sameFault (s : State) (k : BitVec 32) : Bool :=
  s.cairn.faultKeys.any (fun p => p.1 == k && decide (s.clk.ticks < p.2 + 200))

/-- FAULT_TIME and the counted keys after a report (spec/13 R357). -/
def State.countFault (s : State) (cause kind : BitVec 8) (unit : BitVec 16) (sev : BitVec 2) : State :=
  if countsAsFault kind sev && !s.sameFault (faultKey cause kind unit) then
    s.modCairn (fun c =>
      { c with
        faultTime := s.now48, faultAny := true, faultAt := s.clk.ticks,
        faultKeys := (faultKey cause kind unit, s.clk.ticks) :: c.faultKeys.filter (fun p => decide (s.clk.ticks < p.2 + 200)) })
  else s

/-- A report enters the merging queue, or is held at its unit, or is lost (spec/13 R339). -/
def State.queueReport (s : State) (by_ : Reporter) (r : Report) : State :=
  if s.cairn.queue.any (fun q => q.sameKey r) then
    { s with cairn := { s.cairn with queue := absorbInto r s.cairn.queue, merged := s.cairn.merged + 1 } }
  else if s.cairn.queue.length < 64 && !s.faultMasked by_ then
    { s with cairn := { s.cairn with queue := s.cairn.queue ++ [r] } }
  else if s.cairn.held.any (fun q => q.1 = by_.num && q.2.sameKey r) then
    { s with cairn := { s.cairn with held := absorbHeld by_.num r s.cairn.held, merged := s.cairn.merged + 1 } }
  else if (s.cairn.held.filter (fun q => q.1 = by_.num)).length < 4 then
    { s with cairn := { s.cairn with held := s.cairn.held ++ [(by_.num, r)] } }
  else
    { s with cairn := { s.cairn with lost := s.cairn.lost + 1, lostSeen := true } }

/-- One FAULT cycle of the reporting ridge or belay (spec/12 R306, spec/13 R339). -/
def State.chargeFault (s : State) (by_ : Reporter) : State :=
  match by_ with
  | .ridge p => s.charge 10 0 p
  | .belay b => s.charge 10 1 b
  | .other _ => s

/-- A unit observes a fault and sends its report (spec/13 R338): CAUSE, UNIT_KIND, UNIT, SEVERITY (R342), DETAIL. -/
def State.report (s : State) (by_ : Reporter) (cause kind : BitVec 8) (unit : BitVec 16) (sev : BitVec 2) (detail : BitVec 32) : State :=
  let s := s.countFault cause kind unit sev
  let s := s.queueReport by_
    { cause := cause, kind := kind, unit := unit, sev := sev, detail := detail, last := detail, first := s.now48, latest := s.now48,
      count := 1 }
  s.chargeFault by_

/-- A DEGRADED report (spec/13 R359). -/
def State.degrade (s : State) (by_ : Reporter) (kind : BitVec 8) (unit : BitVec 16) (detail : BitVec 32) : State :=
  s.report by_ 0x1B kind unit 3 detail

/-- The keys held at units enter the queue while it has room and their unit's FAULT quota is not exhausted (spec/13 R339). -/
def releaseOne (q : Nat × Report) (s : State) : State :=
  let by_ : Reporter := if q.1 < 16 then .ridge q.1 else if q.1 < 1024 then .belay (q.1 - 16) else .other (q.1 - 1024)
  if s.cairn.queue.any (fun x => x.sameKey q.2) then
    { s with cairn := { s.cairn with queue := absorbInto q.2 s.cairn.queue, merged := s.cairn.merged + 1 } }
  else if s.cairn.queue.length < 64 && !s.faultMasked by_ then
    { s with cairn := { s.cairn with queue := s.cairn.queue ++ [q.2] } }
  else { s with cairn := { s.cairn with held := s.cairn.held ++ [q] } }

/-- All held keys, oldest first. -/
def State.releaseHeld (s : State) : State :=
  foldList releaseOne s.cairn.held { s with cairn := { s.cairn with held := [] } }

end Sys2Proof.Machine
end

