-- ==== Sys2Proof/Machine/Log.lean ====
section
/-! DEFINITION. The logbook (spec/01 R21, R29; spec/04 R97, R98; spec/13 R346, R347) and the way of a record onto the Plain (spec/05 R140). -/

namespace Sys2Proof.Machine

/-- On-chip logbook entries in use (spec/01 R29). -/
def State.logOnChip (s : State) : Nat := (s.log.filter (fun p => !p.2.overflow)).length

/-- Entries in the overflow region (spec/01 R29). -/
def State.logOver (s : State) : Nat := (s.log.filter (fun p => p.2.overflow)).length

/-- Whether the next entry of a class goes to the overflow region (spec/01 R29). -/
def State.overflows (s : State) (cls : BitVec 2) : Bool :=
  decide (32768 ≤ s.logOnChip) || (cls == 2 && decide (28672 ≤ s.logOnChip))

/-- Whether an entry of a class finds no place: the overflow region is full (spec/01 R29). -/
def State.logFullFor (s : State) (cls : BitVec 2) : Bool := s.overflows cls && decide (229376 ≤ s.logOver)

/-- The next serial of a position: position in bits 31:30, counter in bits 29:0 (spec/04 R97). -/
def State.serialOf (s : State) (p : Nat) : BitVec 32 := BitVec.ofNat 2 p ++ (s.posAt p).serial

/-- A logbook entry written; in the overflow region it is a DRAM line of the LOGBOOK ration, and the first raises LOGBOOK_FULL (spec/01 R29). An entry
that finds the overflow region full takes a kept on-chip entry: only the entry that follows a completion (spec/06 R165) can (DESIGN CHOICE, assumption
log 52). -/
def State.logWrite (s : State) (p : Nat) (serial : BitVec 32) (e : LogEntry) : State :=
  let out := s.overflows e.origin.cls && !(decide (229376 ≤ s.logOver) && decide (s.logOnChip < 32768))
  let e := { e with overflow := out }
  let s := s.updLog serial.toNat (fun _ => e)
  if !out then s
  else
    let d := (s.charge 4 0 p).drawLine
    let s := d.2.memWrite (.logWrite serial) d.1 (Config.neighbour d.2.freeCtr ++ e.bits serial)
    if s.logFull then s
    else { s with logFull := true }.report (.ridge p) 0x1A 0 0 1 (BitVec.ofNat 32 s.logOver)

/-- The entry of a record when its serial is assigned, STATE 1 (spec/13 R346, R347). -/
def Rec.entry (r : Rec) : LogEntry :=
  { origin := r.origin, kind := r.kind, input := r.input, counted := decide (2 ≤ r.count.toNat), payload := if 2 ≤ r.count.toNat then r.count else r.payload,
    state := 1, replayed := r.replayed, arrival := r.arrival.setWidth 31, overflow := false, intact := true }

/-- A serial acknowledged: its entry retires, and retirement zeroes it (spec/01 R21, spec/13 R347). No line is
kept for it any longer (spec/13 R355). -/
def State.ack (s : State) (serial : BitVec 32) : State :=
  let mine (o : MemOwner) : Bool := match o with
    | .logWrite x => x == serial
    | .spillWrite _ x => x == serial
    | .bivWrite _ x => x == serial
    | _ => false
  let s := { s with log := Tbl.erase s.log serial.toNat }
  s.modMem (fun m => { m with retained := m.retained.filter (fun r => !mine r.owner) })

/-- Several serials acknowledged. -/
def State.ackAll (s : State) (l : List (BitVec 32)) : State := foldList (fun x s => s.ack x) l s

/-- A merged record's weight added to its opener's entry and its own entry retired, in one step (spec/07 R185). -/
def State.ackMerge (s : State) (opener serial : BitVec 32) (count : BitVec 16) : State :=
  let s := s.updLog opener.toNat (fun e => if e.state == 0 then e else { e with counted := true, payload := count })
  s.ack serial

/-- The ledge marks a landed record's entry STATE 2 (spec/13 R347). -/
def State.landedLog (s : State) (serial : BitVec 32) : State :=
  s.updLog serial.toNat (fun e => if e.state == 1 then { e with state := 2 } else e)

/-- The target an item crosses to. -/
def PItem.target (i : PItem) : BitVec 9 :=
  match i with
  | .record r => r.target
  | .moved x _ => x.target
  | .moveNotice _ t => t
  | .rerank _ _ t => t

/-- Whether an item is a notice, which has its own landing entry (spec/05 R140). -/
def PItem.notice (i : PItem) : Bool := match i with | .moveNotice _ _ => true | .rerank _ _ _ => true | _ => false

/-- The class by which a full egress queue treats an item: parked when 2 (spec/05 R140). R140 names record classes only; a move or re-rank notice and a
moved instance of classes 0, 1 and 3 are treated as their own class, a notice as class 2 (DESIGN CHOICE, assumption log 52). -/
def PItem.cls (i : PItem) : BitVec 2 :=
  match i with
  | .record r => r.record.origin.cls
  | .moved x _ => x.origin.cls
  | .moveNotice _ _ => 2
  | .rerank _ _ _ => 2

/-- The ledge of a target: belay t >> 1, ledge b >> 4 (spec/01 R22). -/
def ledgeOf (t : BitVec 9) : Nat := t.toNat / 32

/-- An item leaves translation for its ledge: the egress queue, or it is parked (class 2), or it enters the hold, or it stops the position
(spec/05 R140). Move and re-rank notices and moved instances are treated as class 2 records are (`PItem.cls`). -/
def Pos.leave (q : Pos) (i : PItem) : Pos :=
  let l := ledgeOf i.target
  if !q.stuck.isEmpty then { q with stuck := q.stuck ++ [i] }
  else if (Tbl.get [] q.egress l).length < 8 then { q with egress := Tbl.upd [] q.egress l (fun x => x ++ [i]) }
  else if i.cls == 2 then { q with parked := q.parked ++ [(l, i)] }
  else if (Tbl.get [] q.hold l).isEmpty then { q with hold := Tbl.set [] q.hold l [i] }
  else { q with stuck := [i] }

/-- The items that stopped the position, once the hold they wait for is empty (spec/05 R140). -/
def Pos.resume (q : Pos) : Pos :=
  match q.stuck with
  | [] => q
  | i :: _ =>
    if (Tbl.get [] q.hold (ledgeOf i.target)).isEmpty then q.stuck.foldl Pos.leave { q with stuck := [] } else q

/-- An egress queue with room takes the ledge's hold first, then its parked items (spec/05 R140). -/
def Pos.refill (p : Pos) (ledge : Nat) : Nat → Pos
  | 0 => p
  | n + 1 =>
    let q := Tbl.get [] p.egress ledge
    if q.length < 8 then
      (match Tbl.get [] p.hold ledge with
       | i :: rest => { p with egress := Tbl.set [] p.egress ledge (q ++ [i]), hold := Tbl.set [] p.hold ledge rest }.refill ledge n
       | [] =>
         match p.parked.find? (fun x => x.1 == ledge) with
         | some x => { p with egress := Tbl.set [] p.egress ledge (q ++ [x.2]), parked := dropFirst (fun y => y.1 == ledge) p.parked }.refill ledge n
         | none => p)
    else p

/-- An item leaves translation for its ledge (spec/05 R140). -/
def State.toPlain (s : State) (p : Nat) (i : PItem) : State := s.updPos p (fun q => q.leave i)

/-- The items of a position that have not left for a ledge. -/
def Pos.items (q : Pos) : List PItem :=
  q.egress.foldr (fun e acc => e.2 ++ acc) [] ++ q.hold.foldr (fun e acc => e.2 ++ acc) [] ++ q.parked.map (fun x => x.2) ++ q.stuck

/-- Every item of a position changed where it waits. -/
def Pos.mapItems (f : PItem → PItem) (q : Pos) : Pos :=
  { q with
    egress := q.egress.map (fun e => (e.1, e.2.map f)), hold := q.hold.map (fun e => (e.1, e.2.map f)),
    parked := q.parked.map (fun x => (x.1, f x.2)), stuck := q.stuck.map f }

/-- Record slots taken: records behind walks, moves and residency changes, and parked items (spec/04 R103, spec/05 R140). -/
def Pos.slots (q : Pos) : Nat := q.walks.foldl (fun n w => n + (w.queue.length - 1)) 0 + q.waits.length + q.parked.length

/-- The couloir's retained copies: records granted whose entry is not written (spec/13 R350). -/
def Pos.copies (q : Pos) : Nat := q.walks.foldl (fun n w => n + w.queue.length) 0 + q.waits.length

/-- A position that has stopped forwarding: an item waits for a hold that is full (spec/05 R140). -/
def Pos.stopped (q : Pos) : Bool := !q.stuck.isEmpty

end Sys2Proof.Machine
end

