-- ==== Sys2Proof/Machine/Cache.lean ====
section
/-! DEFINITION. The device-table cache, the translation cache and the pinned store (spec/04 R106 to R112). -/

namespace Sys2Proof.Machine

/-- The line of a requester in the device-table cache. -/
def State.devLine (s : State) (q : BitVec 16) : Option DevLine := s.xl.devCache.find? (fun l => l.req == q)

/-- A use of a requester's line refreshes its recency (spec/04 R106). -/
def State.devTouch (s : State) (q : BitVec 16) : State :=
  match s.devLine q with
  | none => s
  | some l => s.modXl (fun x => { x with devCache := l :: dropFirst (fun m => m.req == q) x.devCache })

/-- The set of a requester: bits 9:0 (spec/04 R106). -/
def devSet (q : BitVec 16) : BitVec 10 := q.setWidth 10

/-- A list without its last element that satisfies `p`. -/
def dropLast {α : Type} (p : α → Bool) (l : List α) : List α := (dropFirst p l.reverse).reverse

/-- An entry filled into the device-table cache: its own line, a free way, or the least recently used unlocked way; nowhere when all four ways of the
set are locked (spec/04 R106). -/
def State.devFill (s : State) (q : BitVec 16) (e : DevEntry) (locked : Bool) : State :=
  s.modXl (fun x =>
    let others := x.devCache.filter (fun l => l.req != q)
    let locked := locked || x.devCache.any (fun l => l.req == q && l.locked)
    let inSet := others.filter (fun l => devSet l.req == devSet q)
    let line : DevLine := { req := q, entry := e, locked := locked }
    if inSet.length < 4 then { x with devCache := line :: others }
    else if inSet.all (fun l => l.locked) then { x with devCache := others }
    else { x with devCache := line :: dropLast (fun l => devSet l.req == devSet q && !l.locked) others })

/-- Whether all four ways of a requester's set are locked by others (spec/04 R106, R113). -/
def State.setLocked (s : State) (q : BitVec 16) : Bool :=
  decide (4 ≤ (s.xl.devCache.filter (fun l => l.req != q && devSet l.req == devSet q && l.locked)).length)

/-- A requester's device entry in DRAM. -/
def State.devEntry (s : State) (q : BitVec 16) : DevEntry := Tbl.get DevEntry.reset s.xl.dev q.toNat

/-- A requester's device entry written, DRAM and cached line alike (spec/04 R105, R106). -/
def State.setDev (s : State) (q : BitVec 16) (e : DevEntry) : State :=
  s.modXl (fun x =>
    { x with
      dev := Tbl.set DevEntry.reset x.dev q.toNat e,
      devCache := x.devCache.map (fun l => if l.req == q then { l with entry := e } else l) })

/-- The key of an event entry in the tables: requester · 2^20 + event. -/
def evtKey (q : BitVec 16) (e : BitVec 20) : Nat := q.toNat * 1048576 + e.toNat

/-- An event entry in DRAM. -/
def State.evtEntry (s : State) (q : BitVec 16) (e : BitVec 20) : EvtEntry := Tbl.get EvtEntry.reset s.xl.evt (evtKey q e)

/-- An event entry written to DRAM. -/
def State.setEvt (s : State) (q : BitVec 16) (e : BitVec 20) (v : EvtEntry) : State :=
  s.modXl (fun x => { x with evt := Tbl.set EvtEntry.reset x.evt (evtKey q e) v })

/-- Entry `i` of the pinned store. -/
def State.pinnedAt (s : State) (i : Nat) : EvtEntry := Tbl.get EvtEntry.reset s.xl.pinned i

/-- Entry `i` of the pinned store written. -/
def State.setPinned (s : State) (i : Nat) (v : EvtEntry) : State :=
  s.modXl (fun x => { x with pinned := Tbl.set EvtEntry.reset x.pinned i v })

/-- A set folded onto its neighbour bank while its own bank is fenced (spec/04 R110). -/
def State.foldSet (s : State) (set : BitVec 13) : BitVec 13 :=
  if bitAt s.xl.fenced (set.toNat / 512) then set ^^^ 0x200 else set

/-- Set and tag of a pair under the present key. -/
def State.indexOf (s : State) (q : BitVec 16) (e : BitVec 20) : BitVec 13 × BitVec 23 := cacheIndex s.xl.ckey q e

/-- Whether a line is that of (set, tag) in the current key epoch. -/
def State.isLine (s : State) (i : BitVec 13 × BitVec 23) (l : XLine) : Bool := l.set == i.1 && l.tag == i.2 && l.epoch == s.xl.epoch

/-- A lookup in the translation cache: a current line whose GENERATION equals DEV_GEN (spec/04 R108). -/
def State.cacheHit (s : State) (q : BitVec 16) (e : BitVec 20) (gen : BitVec 32) : Option EvtEntry :=
  match s.xl.cache.find? (s.isLine (s.indexOf q e)) with
  | some l => if l.entry.gen == gen then some l.entry else none
  | none => none

/-- A hit refreshes the way's recency (spec/04 R108). -/
def State.cacheTouch (s : State) (q : BitVec 16) (e : BitVec 20) : State :=
  match s.xl.cache.find? (s.isLine (s.indexOf q e)) with
  | none => s
  | some l => s.modXl (fun x => { x with cache := l :: dropFirst (s.isLine (s.indexOf q e)) x.cache })

/-- A fill (spec/04 R109): never with VALID = 0; over the pair's own line, into a free way (one of an earlier epoch counts as free), or over the least
recently used way, which counts in EVICTIONS. -/
def State.cacheFill (s : State) (q : BitVec 16) (e : BitVec 20) (v : EvtEntry) : State :=
  if !v.valid then s
  else
    let i := s.indexOf q e
    let same (l : XLine) : Bool := s.foldSet l.set == s.foldSet i.1
    s.modXl (fun x =>
      let others := x.cache.filter (fun l => !s.isLine i l)
      let line : XLine := { set := i.1, tag := i.2, epoch := x.epoch, entry := { v with pinned := false } }
      let ways := (others.filter same).length
      if ways < 12 then { x with cache := line :: others }
      else if others.any (fun l => same l && l.epoch != x.epoch) then
        { x with cache := line :: dropLast (fun l => same l && l.epoch != x.epoch) others }
      else { x with cache := line :: dropLast same others, evictions := x.evictions + 1 })

/-- The lines of one handle dropped. -/
def State.cacheDropOne (s : State) (q : BitVec 16) (e : BitVec 20) : State :=
  s.modXl (fun x => { x with cache := x.cache.filter (fun l => !s.isLine (s.indexOf q e) l) })

/-- A cache bank fenced: its lines are dropped (spec/04 R110, spec/14 R381). -/
def State.fenceBank (s : State) (b : Nat) : State :=
  s.modXl (fun x =>
    { x with
      fenced := setBit x.fenced b true, fenceTest := setBit x.fenceTest b false, cache := x.cache.filter (fun l => l.set.toNat / 512 != b) })

/-- A cache bank in use again, its sets empty (spec/14 R381). -/
def State.unfenceBank (s : State) (b : Nat) : State :=
  s.modXl (fun x =>
    { x with
      fenced := setBit x.fenced b false, fenceSwap := setBit x.fenceSwap b false, cache := x.cache.filter (fun l => l.set.toNat / 512 != b) })

end Sys2Proof.Machine
end

