-- ==== Sys2Proof/Machine/Refuse.lean ====
section
/-! DEFINITION. Refusals at the ingresses (spec/03 R74, R87 to R89; spec/09 R222). -/

namespace Sys2Proof.Machine

/-- The ACCESS_VIOLATION unit of an ingress (spec/13 R342): Pass ports 0 to 7, the doorbell 8, link k 16 + k. -/
def ingressUnit (r : Rec) : Nat :=
  if r.input < 9 then r.input
  else match r.origin with
    | .handle h => 16 + h.req.toNat % 16
    | .doorbell _ => 16

/-- The port of an ingress as a reporting unit: Pass ports 0 to 7, the doorbell 8, link k 16 + k. -/
def portUnit (n : Nat) : Reporter := .other (0x70000 + n)

/-- An ingress code recorded for a Pass port: its error bit and the report of the unit that detected it (spec/03 R74). -/
def State.passCode (s : State) (by_ : Reporter) (n : Nat) (code : Nat) : State :=
  let s := s.updPass n (fun p => { p with err := setBit p.err code true })
  s.report by_ 0x10 7 (BitVec.ofNat 16 n) 1 (BitVec.ofNat 32 code)

/-- An ingress code recorded for the doorbell (spec/03 R74, R89). -/
def State.doorCode (s : State) (by_ : Reporter) (code : Nat) : State :=
  let s := s.modDoor (fun d => { d with err := setBit d.err code true })
  s.report by_ 0x10 7 8 1 (BitVec.ofNat 32 code)

/-- A refusal counted at a Pass port, with the record kept (spec/03 R74, R87). -/
def State.passRefuse (s : State) (by_ : Reporter) (n : Nat) (raw : BitVec 128) (par : BitVec 16) (code : Nat) : State :=
  let s := s.updPass n (fun p =>
    { p with refused := p.refused + 1, lastErr := raw, lastPar := par, lastCode := BitVec.ofNat 4 code, lastTime := s.now32 })
  s.passCode by_ n code

/-- A refusal counted at the doorbell (spec/03 R74, R89). -/
def State.doorRefuse (s : State) (by_ : Reporter) (data : BitVec 64) (req : BitVec 16) (code : Nat) : State :=
  let s := s.modDoor (fun d =>
    { d with refused := d.refused + 1, lastErrData := data, lastReq := req, lastCode := BitVec.ofNat 4 code, lastTime := s.now32 })
  s.doorCode by_ code

/-- A refusal counted at a link (spec/09 R222, R247): the entry's 12 bytes and the code. -/
def State.linkRefuse (s : State) (by_ : Reporter) (k : Nat) (entry : BitVec 96) (code : Nat) : State :=
  let s := s.updLink k (fun l =>
    { l with refused := l.refused + 1, err := setBit l.err code true, lastErr := entry, lastCode := BitVec.ofNat 4 code })
  s.report by_ 0x10 7 (BitVec.ofNat 16 (16 + k)) 1 (BitVec.ofNat 32 code)

/-- A record refused by the ridge of position `p`: counted in the frame of the ingress through which it entered, and reported by that ridge under its
FAULT ration (spec/03 R74, spec/13 R339). -/
def State.refuse (s : State) (p : Nat) (r : Rec) (code : Nat) : State :=
  let req : BitVec 16 := match r.origin with | .handle h => h.req | .doorbell _ => 0
  if r.input < 8 then s.passRefuse (.ridge p) r.input r.raw r.par code
  else if r.input = 8 then s.doorRefuse (.ridge p) (r.raw.setWidth 64) req code
  else s.linkRefuse (.ridge p) (ingressUnit r - 16) (r.raw.setWidth 96) code

end Sys2Proof.Machine
end

