-- ==== Sys2Proof/Machine/Wired.lean ====
section
/-! DEFINITION. The wired collector's state machine (spec/02 R33 to R54, R447) as shared operations; the commands are in WiredCmd.lean. -/

namespace Sys2Proof.Machine

/-- The number of a source in the collector's table. -/
def srcNum (x : Src) : Nat :=
  match x with
  | .shared n => n.val
  | .priv t k => 8192 + 64 * t.val + k.val

/-- Whether source `n` is an SGI (spec/02 "The private bank"). -/
def isSgi (n : Nat) : Bool := decide (8192 ≤ n) && decide ((n - 8192) % 64 < 16)

/-- Whether source `n` is a reserved private number, 48 to 63 (spec/02 R50). -/
def isReserved (n : Nat) : Bool := decide (8192 ≤ n) && decide (48 ≤ (n - 8192) % 64)

/-- Whether a source is an edge source: SGIs always, others by TRIGGER (spec/02 R35, R50). -/
def Source.isEdge (x : Source) (n : Nat) : Bool := isSgi n || x.trigger != 0

/-- The asserted state of a source's line (spec/02 R35 POLARITY). -/
def Source.asserted (x : Source) : Bool := x.line != x.polarity

/-- The priority as the collector uses it: 0 where both configuration copies failed (spec/13 R354). -/
def Source.prioNow (x : Source) : BitVec 8 := if x.cfgBad then 0 else x.prio

/-- The effective enable E = EN AND NOT STORM AND (PRIORITY ≠ 0) (spec/02). -/
def Source.eff (x : Source) : Bool := x.en && !x.storm && x.prioNow != 0

/-- An offered instance is withdrawn: its withdraw waits (spec/02 R34, R39), marked where a write caused it (R41). Merge records not yet emitted
are not: their occurrences are in the weight of PEND (spec/07 R179). -/
def Source.withdraw (x : Source) (written : Bool) : Source :=
  if x.offered then { x with offered := false, wdraw := true, byWrite := x.byWrite || written, mergeOwed := 0 } else x

/-- E has become 0: an offered instance is withdrawn and PEND stays (spec/02 R39). -/
def Source.drop (x : Source) (written : Bool) : Source := if x.eff then x else x.withdraw written

/-- Software clears PEND of an edge source, or a level line deasserts while ACT = 0 (spec/02 R39). -/
def Source.clearPend (x : Source) (written : Bool) : Source := { x.withdraw written with pend := false, weight := 0 }

/-- The instance of a source is claimed (spec/02 R39). -/
def Source.claimed (x : Source) : Source := { x with pend := false, offered := false, act := true, weight := 0 }

/-- A source whose record may be emitted as a new instance (spec/02 R34, R39). -/
def Source.ready (x : Source) : Bool := x.pend && !x.offered && x.eff && !x.act && !x.wdraw

/-- The storm window and limit of a source; the limit is 0 for an SGI (spec/02 R35, R47, R50, R51). -/
def State.stormOf (s : State) (n : Nat) : Nat × Nat :=
  if n < 8192 then ((s.srcAt n).stormWindow.toNat, (s.srcAt n).stormLimit.toNat)
  else if isSgi n then (0, 0)
  else ((s.bankAt ((n - 8192) / 64)).window.toNat, (s.bankAt ((n - 8192) / 64)).limit.toNat)

/-- Ticks of the time counter in a storm window: 100 to each µs, 0 acts as 1 (spec/02 R35). -/
def windowTicks (w : Nat) : Nat := 100 * (if w = 0 then 1 else w)

/-- Whether a source's storm window has closed by the time counter (spec/02 R47). -/
def State.windowOver (s : State) (n : Nat) : Bool :=
  decide ((s.srcAt n).winStart.toNat + windowTicks (s.stormOf n).1 ≤ s.clk.time.toNat)

/-- The window count after one more occurrence (spec/02 R47). -/
def State.countStorm (s : State) (n : Nat) : State :=
  if (s.stormOf n).2 = 0 then s
  else if !(s.srcAt n).winOpen || s.windowOver n then
    s.updSrc n (fun x => { x with winOpen := true, winStart := s.clk.time, winCount := 1 })
  else s.updSrc n (fun x => { x with winCount := x.winCount + 1 })

/-- Whether the occurrence just counted is occurrence STORM_LIMIT + 1 of its window (spec/02 R47). -/
def State.tripped (s : State) (n : Nat) : Bool :=
  decide ((s.stormOf n).2 ≠ 0) && (s.srcAt n).winOpen && decide ((s.srcAt n).winCount = (s.stormOf n).2 + 1)

/-- A storm trip: STORM = 1, EN = 0, a withdraw where offered, and a STORM_MASK report (spec/02 R47, spec/13 R342). -/
def State.trip (s : State) (n : Nat) : State :=
  let s := s.updSrc n (fun x => { x with storm := true, en := false }.drop false)
  s.report (.other 0) 0x13 (if n < 8192 then 8 else 9) (BitVec.ofNat 16 (if n < 8192 then n else n - 8192)) 1 (BitVec.ofNat 32 (s.stormOf n).2)

/-- A record of the wired collector's source `n` (spec/02 R39, spec/03 R67): class 0 carries its weight where the source names a group
(spec/07 R179), an SGI its sender (R54), every other record PAYLOAD 0. -/
def State.wiredRec (s : State) (n : Nat) (kind : RKind) (payload : BitVec 16) (input : Nat) : Rec :=
  { origin := .handle (srcHandle n), kind := kind, payload := payload, srcTime := s.now48, input := input, arrival := 0, replayed := false,
    count := 0, unchecked := false, devGen := 0, wid := none, snap := false, written := false, raw := 0, par := 0 }

/-- Whether a source's merged occurrences travel as merge records: an edge source of class 0 with CGROUP ≠ 0 (spec/07 R179). -/
def Source.merges (x : Source) (n : Nat) : Bool := decide (n < 8192) && x.isEdge n && x.cgroup != 0

/-- A merged occurrence (spec/02 R39): MERGED + 1 for a shared source and one more in the weight of PEND; while OFFERED = 1 the collector owes a
merge record for it (spec/07 R179). -/
def State.mergeOccur (s : State) (n : Nat) : State :=
  s.updSrc n (fun x =>
    { x with merged := if n < 8192 then satInc x.merged else x.merged, weight := satInc x.weight,
             mergeOwed := if x.offered && x.merges n then x.mergeOwed + 1 else x.mergeOwed })

/-- An occurrence of source `n` (spec/02 R38, R39, R47): it sets PEND or merges, counts toward the storm guard, and may trip it. `payload` is the
PAYLOAD of an SGI occurrence. -/
def State.occur (s : State) (n : Nat) (payload : BitVec 16) : State :=
  let s := s.countStorm n
  let s := if (s.srcAt n).pend then s.mergeOccur n
           else s.updSrc n (fun x => { x with pend := true, weight := 1, sender := payload })
  if s.tripped n then s.trip n else s

/-- The present state of a level source's line applied to PEND (spec/02 R38, R39). -/
def State.levelLine (s : State) (n : Nat) : State :=
  let x := s.srcAt n
  if x.act then s
  else if x.asserted then (if x.pend then s else s.occur n 0)
  else if x.pend then s.updSrc n (fun x => x.clearPend false) else s

/-- The collector sees the line of source `n` at a level (spec/02 R38, R39): an edge makes an occurrence, a level source follows its line. -/
def State.lineSeen (s : State) (n : Nat) (level : Bool) : State :=
  let x := s.srcAt n
  let edge := x.ref != level && (x.trigger == 2 || level != x.polarity)
  let s := s.updSrc n (fun x => { x with line := level, ref := level })
  if x.isEdge n then (if edge then s.occur n 0 else s) else s.levelLine n

/-- The instance of source `n` is claimed at its belay (spec/02 R39). -/
def State.wiredClaim (s : State) (n : Nat) : State := s.updSrc n Source.claimed

/-- The instance of source `n` is completed: ACT = 0, and an asserted level line is an occurrence at once (spec/02 R39). -/
def State.wiredComplete (s : State) (n : Nat) : State :=
  let s := s.updSrc n (fun x => { x with act := false })
  if (s.srcAt n).isEdge n then s else s.levelLine n

/-- EN of a source set or cleared (spec/02 R43, R46, R48). -/
def State.setEn (s : State) (n : Nat) (en : Bool) : State := s.updSrc n (fun x => { x with en := en }.drop true)

/-- PEND of a source written (spec/02 R43, R46): an occurrence or a clear for an edge source, nothing for a level source. The PAYLOAD of an SGI
instance whose PEND software set is 0 (DESIGN CHOICE, assumption log 49: the spec gives one only to SGI_SEND and to the block's own
occurrences). -/
def State.setPend (s : State) (n : Nat) (v : Bool) : State :=
  if (s.srcAt n).isEdge n then (if v then s.occur n 0 else s.updSrc n (fun x => x.clearPend true)) else s

/-- STORM cleared: the window count restarts and E follows EN again (spec/02 R48). A written 1 to a STORM bit that reads 0 leaves the window and
its count (DESIGN CHOICE, assumption log 49). -/
def State.clearStorm (s : State) (n : Nat) : State :=
  s.updSrc n (fun x => if x.storm then { x with storm := false, winOpen := false, winCount := 0 } else x)

/-- One bit of a write to a STORM word, where the source's line may change in the same FCLK cycle (spec/02 R48, R49): the change is seen in the window
that stands, and where its occurrence trips the guard the set wins over the written 1. -/
def State.stormBit (s : State) (n : Nat) (one racing : Bool) : State :=
  let t := if racing && !isSgi n then s.lineSeen n (!(s.srcAt n).line) else s
  let trips := (t.srcAt n).winCount != (s.srcAt n).winCount && t.tripped n
  if one && !trips then t.clearStorm n else t

/-- The first source number of a word of 64 (spec/02 R43, R50). -/
def srcBase (w : SrcWord) : Nat :=
  match w with
  | .shared i => 64 * i.val
  | .priv t => 8192 + 64 * t.val

/-- One bit operation applied to each source of a word that an access reaches, in ascending order (spec/02 R44). Reserved numbers are skipped. -/
def State.eachBit (s : State) (base : Nat) (acc : Acc) (data : Word) (f : State → Nat → Bool → State) : State :=
  foldBelow 64 (fun i s => if reaches acc i && !isReserved (base + i) then f s (base + i) (wrote1 acc data i) else s) s

/-- A withdraw record emitted (spec/02 R34, R41). -/
def State.emitWithdraw (s : State) (n : Nat) : State :=
  (s.updSrc n (fun x => { x with wdraw := false, byWrite := false })).enqueue
    { s.wiredRec n .withdraw 0 11 with written := (s.srcAt n).byWrite }

/-- A merge record emitted (spec/07 R179). -/
def State.emitMerge (s : State) (n : Nat) : State :=
  (s.updSrc n (fun x => { x with mergeOwed := x.mergeOwed - 1 })).enqueue (s.wiredRec n .merge 1 11)

/-- Whether a record of source `n` still waits for its grant on couloir input 8 (spec/02 R54). -/
def State.onInput8 (s : State) (n : Nat) : Bool := (s.inqAt 8).any (fun r => r.origin == .handle (srcHandle n))

/-- The PAYLOAD of a new instance's record (spec/02 R51, R54; spec/07 R179). -/
def Source.payloadOf (x : Source) (n : Nat) : BitVec 16 :=
  if x.merges n then x.weight else if isSgi n then x.sender else 0

/-- A new instance's record emitted (spec/02 R39). -/
def State.emitNew (s : State) (n : Nat) (input : Nat) : State :=
  let x := s.srcAt n
  let kind : RKind := if x.isEdge n then .event else .levelAssert
  (s.updSrc n (fun x => { x with offered := true })).enqueue (s.wiredRec n kind (x.payloadOf n) input)

/-- The sources bound for a position in the order of spec/02 R34: shared ones first, each part in descending number. -/
def State.emitOrder (s : State) (pos : Nat) : List (Nat × Source) :=
  let mine := s.wired.src.reverse.filter (fun p => s.posOf (srcHandle p.1) == pos)
  mine.filter (fun p => decide (p.1 < 8192)) ++ mine.filter (fun p => decide (8192 ≤ p.1))

/-- One emission toward a position's couloir: a waiting withdraw before any new record, and a source's merge records before its next new record
(spec/02 R34, spec/07 R179). The withdraw of an SGI waits while the record it follows is still ungranted on input 8, for it reaches the belay after
that record (spec/02 R41). -/
def State.emitOne (s : State) (pos : Nat) : State :=
  match (s.emitOrder pos).find? (fun p => p.2.wdraw && !s.onInput8 p.1) with
  | some p => s.emitWithdraw p.1
  | none =>
    match (s.emitOrder pos).find? (fun p => p.2.mergeOwed != 0 || p.2.ready) with
    | some p => if p.2.mergeOwed != 0 then s.emitMerge p.1 else s.emitNew p.1 11
    | none => s

/-- An SGI occurrence the block makes itself (spec/02 R447): it sets PEND or merges, and the collector emits it later. -/
def State.sgiOccur (s : State) (t k : Nat) (payload : BitVec 16) : State := s.occur (8192 + 64 * t + k) payload

/-- The lines read afresh at FAST_READY (spec/02 R33): each line's level is the edge reference, and an asserted level source pends. -/
def State.sampleLines (s : State) : State :=
  foldList (fun p s =>
    let s := s.updSrc p.1 (fun x => { x with ref := x.line })
    if (s.srcAt p.1).isEdge p.1 || isReserved p.1 then s else s.levelLine p.1) s.wired.src
    (s.modWired (fun w => { w with live := true }))

end Sys2Proof.Machine
end

