-- ==== Sys2Proof/Machine/WiredCmd.lean ====
section
/-! DEFINITION. The commands of the wired collector (spec/02), but the configuration write, which is in ConfigCmd.lean. -/

namespace Sys2Proof.Machine

/-- Whether a source has a line: shared sources, and private sources 16 to 47 (spec/02 "Lines and sampling"). -/
def srcHasLine (x : Src) : Bool :=
  match x with
  | .shared _ => true
  | .priv _ k => decide (16 ≤ k.val) && decide (k.val < 48)

/-- What a parked block's wake latch records of a line change: an edge, or the asserted level, of an enabled source (spec/15 R396). -/
def State.parkedLine (s : State) (n : Nat) (level : Bool) : State :=
  let x := s.srcAt n
  let edge := x.isEdge n && x.ref != level && (x.trigger == 2 || level != x.polarity)
  let lev := !x.isEdge n && level != x.polarity && !x.act && !x.pend
  let s := s.updSrc n (fun x => { x with line := level, ref := level })
  if x.en && (edge || lev) && !s.pwr.latches.contains n then s.modPwr (fun p => { p with latches := p.latches ++ [n] }) else s

/-- WIRED_LINE_CHANGE: before the lines are live only the level is kept (spec/02 R33); parked, the wake latch sees it (spec/15 R396). -/
def execWiredLineChange (src : Src) (level : Bool) (s : State) : Host.Outcome State Fault Refusal :=
  ok (if !srcHasLine src then s
      else if s.pwr.state == 3 && s.wired.live then s.parkedLine (srcNum src) level
      else if s.running && s.wired.live then s.lineSeen (srcNum src) level
      else s.updSrc (srcNum src) (fun x => { x with line := level }))

/-- STORM_WINDOW_EXPIRY: a window that has lasted STORM_WINDOW µs on the time counter closes (spec/02 R47). -/
def execStormWindowExpiry (src : Src) (s : State) : Host.Outcome State Fault Refusal :=
  ok (if s.running && (s.srcAt (srcNum src)).winOpen && s.windowOver (srcNum src) then
        s.updSrc (srcNum src) (fun x => { x with winOpen := false, winCount := 0 })
      else s)

/-- COLLECTOR_EMIT: one emission toward the couloir of a position (spec/02 R34). -/
def execCollectorEmit (pos : Fin 4) (s : State) : Host.Outcome State Fault Refusal :=
  ok (if s.running && s.wired.live then s.emitOne pos.val else s)

/-- EN_WORD_WRITE: every bit of the access applies (spec/02 R43, R44). -/
def execEnWordWrite (w : SrcWord) (acc : Acc) (data : Word) (s : State) : Host.Outcome State Fault Refusal :=
  ok (if s.running then s.eachBit (srcBase w) acc data State.setEn else s)

/-- PEND_WORD_WRITE: an occurrence for each written 1 and a clear for each written 0 of an edge source (spec/02 R43, R44). -/
def execPendWordWrite (w : SrcWord) (acc : Acc) (data : Word) (s : State) : Host.Outcome State Fault Refusal :=
  ok (if s.running then s.eachBit (srcBase w) acc data State.setPend else s)

/-- SETPEND, PRIV_SETPEND (spec/02 R46, R50). -/
def execSetpend (src : Src) (s : State) : Host.Outcome State Fault Refusal :=
  ok (if s.running && !isReserved (srcNum src) then s.setPend (srcNum src) true else s)

/-- CLRPEND, PRIV_CLRPEND (spec/02 R46, R50). -/
def execClrpend (src : Src) (s : State) : Host.Outcome State Fault Refusal :=
  ok (if s.running && !isReserved (srcNum src) then s.setPend (srcNum src) false else s)

/-- SETEN, PRIV_SETEN (spec/02 R46, R50). -/
def execSeten (src : Src) (s : State) : Host.Outcome State Fault Refusal :=
  ok (if s.running && !isReserved (srcNum src) then s.setEn (srcNum src) true else s)

/-- CLREN, PRIV_CLREN (spec/02 R46, R50). -/
def execClren (src : Src) (s : State) : Host.Outcome State Fault Refusal :=
  ok (if s.running && !isReserved (srcNum src) then s.setEn (srcNum src) false else s)

/-- STORM_CLEAR: each written 1 clears its STORM bit, but where a trip sets it in the same cycle (spec/02 R43, R48, R49). `racing` has a 1 for
each source of the word whose line changes in the clearing FCLK cycle. -/
def execStormClear (w : SrcWord) (acc : Acc) (x : StormWrite) (s : State) : Host.Outcome State Fault Refusal :=
  ok (if s.running then
        foldBelow 64 (fun i s =>
          if isReserved (srcBase w + i) then s
          else s.stormBit (srcBase w + i) (reaches acc i && wrote1 acc x.data i) (s.wired.live && bitAt x.racing i)) s
      else s)

/-- A write takes an entry of the posted-write buffer that owes `left` records (spec/03 R83, spec/16 R419). -/
def State.openWrite (s : State) (tag : BitVec 8) (frame left : Nat) : State :=
  State.answerWrites (s.modCp (fun c =>
    { c with wbuf := c.wbuf ++ [{ wid := c.nextWid, tag := tag, frame := frame, left := left, err := 0 }], nextWid := c.nextWid + 1 }))

/-- A write that the checks of spec/16 R417 refuse is answered after the writes before it (spec/03 R83). -/
def State.refuseWrite (s : State) (tag : BitVec 8) (err : BitVec 2) : State :=
  State.answerWrites (s.modCp (fun c =>
    { c with wbuf := c.wbuf ++ [{ wid := c.nextWid, tag := tag, frame := 0, left := 0, err := err }], nextWid := c.nextWid + 1 }))

/-- The destinations of an SGI_SEND write, in ascending order (spec/02 R53). -/
def sgiTargets (acc : Acc) (data : Word) : List Nat :=
  let d := accData acc data
  let base := (field d 16 9).toNat
  match acc with
  | .hi => []
  | _ =>
    if field d 6 2 == 0 then [base]
    else if field d 6 2 == 1 && base % 32 = 0 then
      ((List.range 32).filter (fun j => bitAt d (32 + j))).map (fun j => base + j)
    else []

/-- Whether an SGI's occurrence forms a record at once on couloir input 8 (spec/02 R54). While the source's withdraw still waits no new record of it
leaves before that withdraw, as R34 has it, so the occurrence waits in PEND (DEDUCED, assumption log 49). -/
def State.sgiAtOnce (s : State) (n : Nat) : Bool :=
  let x := s.srcAt n
  !x.pend && x.eff && !x.act && !x.offered && !x.wdraw

/-- One occurrence of an SGI_SEND write: it forms a class 1 record on input 8 at once, or waits in PEND (spec/02 R54). -/
def State.sgiSendOne (s : State) (n : Nat) (payload : BitVec 16) (wid : Nat) : State :=
  if s.sgiAtOnce n then
    let s := s.occur n payload
    let r := { s.wiredRec n .event payload 8 with arrival := s.door.arrival, wid := some wid }
    let s := s.modDoor (fun d => { d with arrival := d.arrival + 1 })
    (s.updSrc n (fun x => { x with offered := true })).enqueue r
  else s.occur n payload

/-- SGI_SEND leaving the posted-write buffer (spec/02 R53, R54): one occurrence for each destination; the write's response waits for the grant of
each record formed (spec/03 R83). -/
def State.sgiWrite (s : State) (t n : Nat) (acc : Acc) (data : Word) (tag : BitVec 8) : State :=
  let ds := (sgiTargets acc data).map (fun d => 8192 + 64 * d + (field data 0 4).toNat)
  let wid := s.cp.nextWid
  let payload : BitVec 16 := 0#5 ++ BitVec.ofNat 2 n ++ BitVec.ofNat 9 t
  let s := s.openWrite tag (4096 + 4 * t + n) ((ds.filter s.sgiAtOnce).length + 1)
  let s := foldList (fun d s => s.sgiSendOne d payload wid) ds s
  s.settleWrite (some wid)

/-- SGI_SEND. -/
def execSgiSend (t : Fin 512) (n : Fin 4) (acc : Acc) (data : Word) (tag : BitVec 8) (s : State) : Host.Outcome State Fault Refusal :=
  ok (if s.running && !s.bufferFull then s.sgiWrite t.val n.val acc data tag else s)

end Sys2Proof.Machine
end

