-- ==== Sys2Proof/Machine/Pass.lean ====
section
/-! DEFINITION. The Pass ports and the MSI doorbell (spec/03). -/

namespace Sys2Proof.Machine

/-- The first of checks 5 to 7 that fails, by a device entry, for an ingress bit (spec/03 R71). -/
def devCheck (e : DevEntry) (ingress : Nat) (evt : BitVec 20) : Option Nat :=
  if !e.valid then some 6
  else if !bitAt e.ingress ingress then some 7
  else if evt.toNat < 2 ^ e.eventBits.toNat then none
  else some 8

/-- The outcome of checks 5 to 7 at a port: refused with a code, passed with the entry's DEV_GEN, or passed on unchecked (spec/03 R73). -/
inductive PortCheck where
  | refused (code : Nat)
  | passed (gen : BitVec 32)
  | unchecked
  deriving DecidableEq, Repr

/-- Checks 5 to 7 against the device-table cache (spec/03 R71, R73). -/
def State.portCheck (s : State) (ingress : Nat) (q : BitVec 16) (evt : BitVec 20) : PortCheck :=
  match s.devLine q with
  | none => .unchecked
  | some l => (match devCheck l.entry ingress evt with | some c => .refused c | none => .passed l.entry.devGen)

/-- A requester that links own (spec/03 R67). -/
def reservedRequester (q : BitVec 16) : Bool := field q 4 12 == 0xFF0

/-- KIND of a Pass record but SYNC (spec/03 R67). -/
def passKind (k : BitVec 4) : Option RKind :=
  if k == 1 then some .event else if k == 2 then some .eventPayload else if k == 3 then some .levelAssert
  else if k == 4 then some .levelDeassert else none

/-- An entry of a port's buffer is freed: W + 1 (spec/03 R60). -/
def PassPort.free (p : PassPort) : PassPort := { p with owed := p.owed + 1 }

/-- `n` cycles of PCLK without a beat: a credit in each with W ≥ 1 at a live port (spec/03 R60), and FULL_CYCLES where every entry is occupied and
none owed (R87). -/
def PassPort.cycles (p : PassPort) (n : Nat) : PassPort :=
  if !p.live || p.pclk.isSome then p
  else
    let k := min n p.owed
    { p with owed := p.owed - k, credit := p.credit + k,
             fullCycles := if p.buf.length = 32 then p.fullCycles + BitVec.ofNat 64 (n - k) else p.fullCycles }

/-- The SEQ comparison of a record that passed checks 1 and 2 (spec/03 R70). -/
def State.seqCheck (s : State) (n : Nat) (d : BitVec 128) : State :=
  if !bitAt d 107 then s
  else
    let seq := field d 8 8
    let gap := match (s.passAt n).seqRef with | some r => seq != r + 1 | none => false
    let s := s.updPass n (fun p => { p with seqRef := some seq, seqGaps := if gap then satInc p.seqGaps else p.seqGaps })
    if gap then s.passCode (portUnit n) n 0xB else s

/-- SOURCE_TIME as the record carries it: the time counter where none is given (spec/03 R68). -/
def State.stampTime (s : State) (t : BitVec 48) : BitVec 48 := if t == 0 then s.now48 else t

/-- The first stored marker of a requester and TAG consumed (spec/03 R77): its arrival count. -/
def State.takeMarker (s : State) (q tag : BitVec 16) : Option (BitVec 40) × State :=
  match s.door.markers.find? (fun m => m.master == q && m.tag == tag) with
  | some m => (some m.arrival, s.modDoor (fun d => { d with markers := dropFirst (fun m => m.master == q && m.tag == tag) d.markers }))
  | none => (none, s)

/-- A SYNC accepted into the port's buffer (spec/03 R75, R77). -/
def State.acceptSync (s : State) (n : Nat) (d : BitVec 128) : State :=
  let q : BitVec 16 := field d 112 16
  let tag : BitVec 16 := field d 64 16
  let mark := bitAt d 104
  let m := if mark then s.takeMarker q tag else (none, s)
  m.2.updPass n (fun p => { p with buf := p.buf ++ [.sync tag mark q s.clk.ticks m.1] })

/-- A record that passed checks 1 to 4 meets checks 5 to 7 and enters the buffer, checked or unchecked (spec/03 R71, R73). `a` is its arrival count. -/
def State.acceptRecord (s : State) (n : Nat) (d : BitVec 128) (par : BitVec 16) (k : RKind) (a : BitVec 40) : State :=
  let q : BitVec 16 := field d 112 16
  let e : BitVec 20 := field d 80 20
  let r : Rec :=
    { origin := .handle { cls := 2, req := q, evt := e }, kind := k, payload := if k = .eventPayload then field d 64 16 else 0,
      srcTime := s.stampTime (field d 16 48), input := n, arrival := a, replayed := false, count := 0, unchecked := false, devGen := 0,
      wid := none, snap := false, written := false, raw := d, par := par }
  match s.portCheck n q e with
  | .refused c => (s.devTouch q).passRefuse (portUnit n) n d par c |>.updPass n PassPort.free
  | .passed g => (s.devTouch q).updPass n (fun p => { p with buf := p.buf ++ [.record { r with devGen := g }] })
  | .unchecked => s.updPass n (fun p => { p with buf := p.buf ++ [.record { r with unchecked := true }] })

/-- PASS_RECORD: one cycle of PCLK with VALID at a live port (spec/03 R59 to R73); it may return a credit that was owed (R60). -/
def State.passBeat (s : State) (n : Nat) (d : BitVec 128) (par : BitVec 16) : State :=
  let p := s.passAt n
  let s := s.updPass n (fun p => { { p with pclk := none }.cycles 1 with accepted := p.accepted + 1, arrival := p.arrival + 1 })
  if p.credit = 0 then s.passRefuse (portUnit n) n d par 2
  else
    let s := s.updPass n (fun p => { p with credit := p.credit - 1 })
    if !parityOk d par 16 then (s.passRefuse (portUnit n) n d par 1).updPass n PassPort.free
    else
      let s := s.seqCheck n d
      if reservedRequester (field d 112 16) then (s.passRefuse (portUnit n) n d par 3).updPass n PassPort.free
      else if field d 108 4 == 8 then s.acceptSync n d
      else match passKind (field d 108 4) with
        | none => (s.passRefuse (portUnit n) n d par 4).updPass n PassPort.free
        | some k => s.acceptRecord n d par k p.arrival

/-- PASS_RECORD. A port that is not live ignores the beat (spec/03 R57, R66). -/
def execPassRecord (n : Fin 8) (data : BitVec 128) (par : BitVec 16) (s : State) : Host.Outcome State Fault Refusal :=
  ok (if s.running && (s.passAt n.val).live then s.passBeat n.val data par else s)

/-- A port rises live when nothing holds it down: W restarts at 32 less the occupied entries (spec/03 R60, R63). -/
def State.passRise (s : State) (n : Nat) : State :=
  let p := s.passAt n
  if p.resetN && !p.live && s.running && s.boot.campReady && s.pwr.state == 0 then
    s.updPass n (fun p => { p with live := true, credit := 0, owed := 32 - p.buf.length })
  else s

/-- PASS_RESET: PASSn_RESET_N falls or rises (spec/03 R63, R64). -/
def execPassReset (n : Fin 8) (pins : PassPins) (s : State) : Host.Outcome State Fault Refusal :=
  ok (let s := s.updPass n.val (fun p =>
        { p with
          resetN := pins.resetN, pclk := if pins.clock then none else p.pclk.or (some (s.clk.ticks + 100)), live := p.live && pins.resetN, credit := if pins.resetN then p.credit else 0,
          seqRef := if pins.resetN && !p.resetN then none else p.seqRef })
      if pins.resetN then s.passRise n.val else s)

/-- Whether some record inside the ridges, on the Plain or in a landing satisfies `p`: granted and not yet inserted (spec/03 R75). -/
def State.inFlight (s : State) (p : Rec → Bool) : Bool :=
  let item (i : PItem) : Bool := match i with | .record r => p r.record | _ => false
  s.xl.pos.any (fun q => q.walks.any (fun w => w.queue.any p) || q.waits.any (fun w => p w.item) || q.parked.any (fun x => item x.2) ||
    q.egress.any (fun x => x.2.any item) || q.hold.any (fun x => x.2.any item) || q.stuck.any item) ||
  s.bel.any (fun b => b.2.landing.any (fun l => item l.item))

/-- Arrival count `a` is higher than `b` (spec/05 R124). -/
def arrHigher (a b : BitVec 40) : Bool := let d := (a - b).toNat; decide (1 ≤ d) && decide (d < 2 ^ 39)

/-- A record that a DOORBELL write formed: class 2 on input 8. -/
def Rec.fromDoorbell (r : Rec) : Bool := r.input == 8 && (match r.origin with | .handle h => h.cls == 2 | .doorbell _ => false)

/-- The first SYNC of a port's buffer, which the records behind it wait for (spec/03 R75, R77). -/
def firstSync : List PassItem → Option (BitVec 16 × Nat)
  | [] => none
  | .sync tag _ _ accepted _ :: _ => some (tag, accepted)
  | .record _ :: rest => firstSync rest

/-- A buffer without its first SYNC. -/
def dropSync : List PassItem → List PassItem
  | [] => []
  | .sync _ _ _ _ _ :: rest => rest
  | .record r :: rest => .record r :: dropSync rest

/-- Whether a SYNC of the buffer holds later records (spec/03 R75, R87). -/
def syncHolds : List PassItem → Bool
  | [] => false
  | .sync _ _ _ _ _ :: rest => !rest.isEmpty
  | .record _ :: rest => syncHolds rest

/-- Whether the SYNC at the head of a port's buffer has its conditions (spec/03 R75). -/
def State.syncReady (s : State) (n : Nat) (mark : Bool) (marker : Option (BitVec 40)) : Bool :=
  !s.inFlight (fun r => r.input == n) &&
  (!mark || (match marker with
    | none => false
    | some a =>
      let before (r : Rec) : Bool := r.fromDoorbell && arrHigher a r.arrival
      !s.inFlight before && !(s.inqAt 8).any before))

/-- The first SYNC of a port completes; one past its 20 µs completes with SYNC_ERR and its code (spec/03 R75 to R77). -/
def State.finishSync (s : State) (n : Nat) (tag : BitVec 16) (accepted : Nat) : State :=
  let late := decide (accepted + 2000 ≤ s.clk.ticks)
  let s := s.updPass n (fun p =>
    { p with
      buf := dropSync p.buf, syncDone := (tag, late) :: p.syncDone,
      syncTimeouts := if late then satInc p.syncTimeouts else p.syncTimeouts } |>.free)
  if late then s.passCode (portUnit n) n 0xC else s

/-- SYNC_COMPLETE: the head SYNC whose conditions hold completes (spec/03 R75). -/
def execSyncComplete (n : Fin 8) (s : State) : Host.Outcome State Fault Refusal :=
  ok (if !s.running then s
      else match (s.passAt n.val).buf with
        | .sync tag mark _ accepted marker :: _ => if s.syncReady n.val mark marker then s.finishSync n.val tag accepted else s
        | _ => s)

/-- SYNC_TIMEOUT: the first SYNC of the buffer that has waited 2,000 TCLK ticks completes with SYNC_ERR, whatever waits before it (spec/03 R76, R77). -/
def execSyncTimeout (n : Fin 8) (s : State) : Host.Outcome State Fault Refusal :=
  ok (if !s.running then s
      else match firstSync (s.passAt n.val).buf with
        | some (tag, accepted) => if accepted + 2000 ≤ s.clk.ticks then s.finishSync n.val tag accepted else s
        | none => s)

/-- The record a DOORBELL write forms (spec/03 R81, R82). -/
def State.doorRec (s : State) (master : BitVec 16) (acc : Acc) (data : Word) (wid : Nat) (gen : BitVec 32) (unchecked : Bool) : Rec :=
  { origin := .handle { cls := 2, req := master, evt := field data 0 20 }, kind := if acc = .full then .eventPayload else .event,
    payload := if acc = .full then field data 32 16 else 0, srcTime := s.now48, input := 8, arrival := s.door.arrival, replayed := false,
    count := 0, unchecked := unchecked, devGen := gen, wid := some wid, snap := false, written := false,
    raw := (if acc = .full then data else data &&& 0xFFFFFFFF).setWidth 128, par := 0 }

/-- The first check of a DOORBELL write that fails, before the device entry (spec/03 R82). -/
def doorFormat (master : BitVec 16) (acc : Acc) (data : Word) : Option Nat :=
  if reservedRequester master then some 3
  else if acc = .hi || field data 20 12 != 0 then some 5
  else none

/-- A doorbell record presented on couloir input 8 (spec/03 R82). Only records formed on input 8 take an arrival count; a refused DOORBELL write takes
none (DESIGN CHOICE, assumption log 50). -/
def State.doorPush (s : State) (r : Rec) : State := (s.modDoor (fun d => { d with arrival := d.arrival + 1 })).enqueue r

/-- DOORBELL: the write leaves the posted-write buffer, forms its record and meets its checks; its response waits for the grant or refusal
(spec/03 R81 to R83). -/
def State.doorbellWrite (s : State) (master : BitVec 16) (acc : Acc) (data : Word) (tag : BitVec 8) : State :=
  let wid := s.cp.nextWid
  let shown := if acc = .full then data else data &&& 0xFFFFFFFF
  let s := s.modDoor (fun d => { d with accepted := d.accepted + 1 })
  match doorFormat master acc data with
  | some c => (s.doorRefuse (portUnit 8) shown master c).openWrite tag 528 0
  | none =>
    match s.portCheck 8 master (field data 0 20) with
    | .refused c => ((s.devTouch master).doorRefuse (portUnit 8) shown master c).openWrite tag 528 0
    | .passed g => ((s.devTouch master).openWrite tag 528 1).doorPush (s.doorRec master acc data wid g false)
    | .unchecked => (s.openWrite tag 528 1).doorPush (s.doorRec master acc data wid 0 true)

/-- DOORBELL. -/
def execDoorbell (master : BitVec 16) (acc : Acc) (data : Word) (tag : BitVec 8) (s : State) : Host.Outcome State Fault Refusal :=
  ok (if s.running && !s.bufferFull then s.doorbellWrite master acc data tag else s)

/-- The port whose waiting SYNC a new marker meets (spec/03 R75, R77). Where SYNCs of one requester and TAG wait on several ports, the one accepted at
the earliest tick takes it, then the one of the lowest port (DESIGN CHOICE, assumption log 50). -/
def State.markerPort (s : State) (q tag : BitVec 16) : Option Nat :=
  let wants (n : Nat) : Option Nat := (s.passAt n).buf.foldl (fun acc i =>
    match acc, i with
    | none, .sync t true r a none => if t == tag && r == q then some a else none
    | acc, _ => acc) none
  let found := (List.range 8).filterMap (fun n => (wants n).map (fun a => (a, n)))
  (bestOf (fun x y => decide (x.1 < y.1)) found).map (fun x => x.2)

/-- The first unmatched SYNC of a requester and TAG in a buffer takes a marker. -/
def matchSync (q tag : BitVec 16) (a : BitVec 40) : List PassItem → List PassItem
  | [] => []
  | .sync t true r acc none :: rest =>
    if t == tag && r == q then .sync t true r acc (some a) :: rest else .sync t true r acc none :: matchSync q tag a rest
  | i :: rest => i :: matchSync q tag a rest

/-- DB_MARK: a marker meets a waiting SYNC or is stored; a 17th evicts the oldest with MARKER_DROPPED in ERR (spec/03 R77, R81, R89), which is
no refusal and makes no report (R74). -/
def State.dbMarkWrite (s : State) (q tag : BitVec 16) : State :=
  match s.markerPort q tag with
  | some n => s.updPass n (fun p => { p with buf := matchSync q tag s.door.arrival p.buf })
  | none =>
    let m : Marker := { master := q, tag := tag, arrival := s.door.arrival }
    if s.door.markers.length < 16 then s.modDoor (fun d => { d with markers := d.markers ++ [m] })
    else s.modDoor (fun d => { d with markers := d.markers.drop 1 ++ [m], err := setBit d.err 0xD true })

/-- DB_MARK. -/
def execDbMark (master : BitVec 16) (data : Word) (s : State) : Host.Outcome State Fault Refusal :=
  ok (if s.running then s.dbMarkWrite master (field data 0 16) else s)

/-- The records of a port's buffer ahead of its first SYNC (spec/03 R75). -/
def beforeSync : List PassItem → List Rec
  | [] => []
  | .sync _ _ _ _ _ :: _ => []
  | .record r :: rest => r :: beforeSync rest

/-- The position a record is bound for (spec/03 R78, spec/04 R94). A virtual target's doorbell never waits at an input (spec/08 R197). -/
def State.recPos (s : State) (r : Rec) : Nat :=
  match r.origin with
  | .handle h => s.posOf h
  | .doorbell _ => 0

/-- A port's buffer without its first record bound for a position. -/
def State.dropRecord (s : State) (pos : Nat) : List PassItem → List PassItem
  | [] => []
  | .record r :: rest => if s.recPos r == pos then rest else .record r :: State.dropRecord s pos rest
  | i :: rest => i :: rest

end Sys2Proof.Machine
end

