-- ==== Sys2Proof/Machine/Ridge.lean ====
section
/-! DEFINITION. The ridges (spec/04 R90 to R105; spec/08 R192, R197): translation, serials, walks. -/

namespace Sys2Proof.Machine

/-- The route of a wired or private source (spec/04 R91). -/
def State.directRoute (s : State) (n : Nat) : Route :=
  let x := s.srcAt n
  if n < 8192 then
    { target := if x.virt then x.target else x.target &&& 0x1FF, virt := x.virt, ring := x.ring, prio := x.prioNow,
      cgroup := if x.isEdge n then x.cgroup else 0,
      vector := BitVec.ofNat 24 n, level := !x.isEdge n }
  else
    { target := BitVec.ofNat 16 ((n - 8192) / 64), virt := false, ring := x.ring, prio := x.prioNow, cgroup := 0,
      vector := BitVec.ofNat 24 ((n - 8192) % 64), level := !x.isEdge n }

/-- A serial assigned, its logbook entry written and the record queued for the Plain (spec/04 R92 steps 5 to 7, spec/13 R347). -/
def State.launch (s : State) (p : Nat) (r : Rec) (route : Route) (t : BitVec 9) (ring : BitVec 2) (slot : Option (BitVec 11))
    (biv : Option (BitVec 16)) : State :=
  let serial := s.serialOf p
  let s := s.updPos p (fun q => { q with serial := q.serial + 1 })
  let s := s.updRidge (s.ridgeOf p) (fun x => { x with forwarded := x.forwarded + 1 })
  (s.logWrite p serial r.entry).toPlain p
    (.record { record := r, serial := serial, route := route, target := t, ring := ring, slot := slot, biv := biv })

/-- The doorbell record of a virtual target (spec/08 R199); its route is read from the pair's DOORBELL_CFG at the belay. A doorbell comes through no
couloir input: it carries 12 as its ingress (DESIGN CHOICE, assumption log 51). -/
def State.doorbellOf (s : State) (v : BitVec 16) (err : Bool) : Rec × Route × BitVec 9 × BitVec 2 :=
  let m := s.vtAt v.toNat
  let cfg := s.pairAt (4 * m.dbTarget.toNat + m.dbRing.toNat)
  let vec : BitVec 24 := bit err ++ bit m.resident ++ cfg.dbVector
  ({ origin := .doorbell v, kind := .doorbell, payload := v, srcTime := s.now48, input := 12, arrival := 0, replayed := false, count := 0,
     unchecked := false, devGen := 0, wid := none, snap := false, written := false, raw := if err then 1 else 0, par := 0 },
   { target := m.dbTarget.setWidth 16, virt := false, ring := m.dbRing, prio := cfg.dbPrio, cgroup := 0, vector := vec, level := false },
   m.dbTarget, m.dbRing)

/-- A record put behind those that wait at a position. -/
def State.addWait (s : State) (p : Nat) (r : Rec) (counted fence : Bool) : State :=
  s.updPos p (fun q => { q with waits := q.waits ++ [{ item := r, counted := counted, fence := fence }] })

/-- A doorbell leaves its ridge, or waits for a place in the logbook (spec/08 R199, spec/01 R29). -/
def State.sendBell (s : State) (p : Nat) (v : BitVec 16) (err : Bool) : State :=
  let d := s.doorbellOf v err
  if s.logFullFor 2 then s.addWait p d.1 true false else s.launch p d.1 d.2.1 d.2.2.1 d.2.2.2 none none

/-- A doorbell raised by a ridge position: NOTIFIED set, and a doorbell forwarded (spec/08 R197, R206). -/
def State.ring (s : State) (p : Nat) (v : BitVec 16) (err : Bool) : State :=
  (s.updVt v.toNat (fun m => { m with notified := true })).sendBell p v err

/-- Whether a record with a route to a virtual target raises its doorbell (spec/08 R193, R197). -/
def Vt.rings (m : Vt) (prio : BitVec 8) : Bool :=
  !m.running && !m.notified && decide ((if m.dbLevel == 0 then 1 else m.dbLevel.toNat) ≤ (prio >>> 4).toNat)

/-- A drop that is no refusal: DISABLED_DROPS (spec/04 R93, spec/08 R192). -/
def State.disabledDrop (s : State) (p : Nat) : State :=
  s.updRidge (s.ridgeOf p) (fun x => { x with disabledDrops := satInc x.disabledDrops })

/-- Whether a map entry is being rewritten by Tamri (spec/08 R193). -/
def State.mapBroken (s : State) (v : BitVec 16) : Bool := s.xl.rewrites.contains (.map v)

/-- Whether an entry of the pinned store is being reloaded from its DRAM master (spec/13 R354). -/
def State.pinLost (s : State) (i : Nat) : Bool := s.xl.rewrites.contains (.pinned i)

/-- A translated record goes its way (spec/04 R92, spec/08 R197): to its pair, to a resident virtual target, to a bivouac; or it waits for a residency
change, a map entry (spec/08 R193) or a place in the logbook (spec/01 R29). `fence`: it ends a walk whose fence stands until it is forwarded (spec/05
R131). -/
def State.forward (s : State) (p : Nat) (r : Rec) (route : Route) (fence : Bool) : State :=
  let m := s.vtAt route.target.toNat
  if route.virt && !m.defined then s.disabledDrop p
  else if s.logFullFor r.origin.cls || (route.virt && (m.moving || s.mapBroken route.target)) then s.addWait p r true fence
  else if !route.virt then s.launch p r route (route.target.setWidth 9) route.ring none none
  else
    let s' := if m.resident then
        (let c := s.ctxAt m.slot.toNat
         s.launch p r route c.target m.ring (some m.slot) none)
      else s.launch p r route m.dbTarget m.ring none (some route.target)
    if m.rings route.prio then s'.ring p route.target false else s'

/-- Records of one handle. -/
def Rec.ofHandle (r : Rec) (h : Handle) : Bool := r.origin == .handle h

/-- Whether records of a handle wait at a position, so that a later one waits behind them (spec/01 R28, spec/05 R134). -/
def Pos.blocks (q : Pos) (h : Handle) : Bool := q.moves.any (fun m => m.handle == h) || q.waits.any (fun w => w.item.ofHandle h)

/-- A ridge's counter of lookups, unless the record has been counted before it had to wait (spec/04 R120). -/
def State.countLookup (s : State) (p : Nat) (counted : Bool) (f : Ridge → Ridge) : State := if counted then s else s.updRidge (s.ridgeOf p) f

/-- A class 0 or class 1 record routed directly (spec/04 R91, R93). -/
def State.direct (s : State) (p : Nat) (r : Rec) (h : Handle) (counted : Bool) : State :=
  let route := s.directRoute (handleSrc h)
  if route.prio == 0 && r.kind != .withdraw then s.disabledDrop p
  else (s.countLookup p counted (fun x => { x with direct := x.direct + 1 })).forward p r route false

/-- Checks 8 and 9, the priority test and the forwarding of a record whose entry is known (spec/04 R92, R102). -/
def State.finish (s : State) (p : Nat) (r : Rec) (d : DevEntry) (h : Handle) (e : EvtEntry) (fence : Bool) : State :=
  let mapped := e.valid && d.valid && decide (h.evt.toNat < 2 ^ d.eventBits.toNat) && e.gen == d.devGen
  let level := r.kind == .levelAssert || r.kind == .levelDeassert
  if !mapped && h.cls == 2 then s.refuse p r 9
  else if h.cls == 3 && !e.valid then s.refuse p r 9
  else if level != e.route.level then s.refuse p r 0xA
  else if e.route.prio == 0 then s.disabledDrop p
  else s.forward p r e.route fence

/-- A record meets entry `i` of the pinned store (spec/04 R108): while the entry is being reloaded the record waits as behind a walk (spec/13 R354). -/
def State.meetPinned (s : State) (p : Nat) (r : Rec) (d : DevEntry) (h : Handle) (i : Nat) (counted fence : Bool) : State :=
  if s.pinLost i then s.addWait p r counted true
  else (s.countLookup p counted (fun x => { x with pinnedHits := x.pinnedHits + 1 })).finish p r d h (s.pinnedAt i) fence

/-- Checks 5 to 7 at the ridge: of a record its port passed unchecked, and of one whose DEV_GEN is no longer that of the entry (spec/04 R92 step 1,
R106). -/
def recCheck (r : Rec) (h : Handle) (d : DevEntry) : Option Nat :=
  if r.unchecked || r.devGen != d.devGen then devCheck d r.input h.evt else none

/-- The byte address of a device entry (spec/04 R99). -/
def State.devByteAddr (s : State) (q : BitVec 16) : BitVec 52 := (s.boot.devBase ++ (0#12 : BitVec 12)) + (q.setWidth 52 <<< 4)

/-- Its line. -/
def State.devLineAddr (s : State) (q : BitVec 16) : BitVec 47 := (s.devByteAddr q >>> 5).setWidth 47

/-- The byte address of an event entry (spec/04 R101). -/
def evtByteAddr (d : DevEntry) (e : BitVec 20) : BitVec 52 := (d.evtBase ++ (0#12 : BitVec 12)) + (e.setWidth 52 <<< 4)

/-- Its line. -/
def State.evtLineAddr (s : State) (q : BitVec 16) (e : BitVec 20) : BitVec 47 := (evtByteAddr (s.devEntry q) e >>> 5).setWidth 47

/-- The 16 bytes of an entry. -/
def entryBits (w : Word × Word) : BitVec 128 := w.2 ++ w.1

/-- Line address and content of a table entry's line, with the entry that shares it (spec/04 R99, R101). -/
def State.tableLine (s : State) (r : Rewrite) : BitVec 47 × BitVec 256 :=
  match r with
  | .device q =>
    (s.devLineAddr q, entryBits (s.devEntry (setBit q 0 true)).words ++ entryBits (s.devEntry (setBit q 0 false)).words)
  | .event q e =>
    (s.evtLineAddr q e, entryBits (s.evtEntry q (setBit e 0 true)).words ++ entryBits (s.evtEntry q (setBit e 0 false)).words)
  | _ => (0, 0)

/-- Tamri writes a table entry's line to DRAM (spec/04 R105). -/
def State.tableWrite (s : State) (r : Rewrite) : State :=
  let l := s.tableLine r
  s.memWrite (.table r) l.1 l.2

/-- A device entry written: DRAM, and the cached line (spec/04 R105, R106). -/
def State.storeDev (s : State) (q : BitVec 16) (e : DevEntry) : State := (s.setDev q e).tableWrite (.device q)

/-- An event entry written to DRAM (spec/04 R105). -/
def State.storeEvt (s : State) (q : BitVec 16) (e : BitVec 20) (v : EvtEntry) : State := (s.setEvt q e v).tableWrite (.event q e)

/-- Whether a table entry lies in a SUSPECT page (spec/13 R355, spec/11 R289). -/
def State.tableSuspect (s : State) (r : Rewrite) : Bool := s.boot.suspect.contains (field (s.tableLine r).1 7 40)

/-- The read that a walk needs next is issued (spec/04 R103, R120), from the write-retain buffer where that holds the line (R105). -/
def State.walkRead (s : State) (p : Nat) (h : Handle) (dev : Bool) : State :=
  let r := s.ridgeOf p
  if dev then
    (s.updRidge r (fun x => { x with deviceWalks := x.deviceWalks + 1 })).tableRead (.walkDev (BitVec.ofNat 2 p) h) (s.devLineAddr h.req)
  else
    (s.updRidge r (fun x => { x with eventWalks := x.eventWalks + 1 })).tableRead (.walkEvt (BitVec.ofNat 2 p) h) (s.evtLineAddr h.req h.evt)

/-- A walk started for a class 2 record (spec/04 R103). -/
def State.startWalk (s : State) (p : Nat) (r : Rec) (h : Handle) (dev : Bool) : State :=
  let w : Walk := { handle := h, queue := [r], readDev := dev, gotDev := false, started := s.clk.ticks }
  (s.updPos p (fun q => { q with walks := q.walks ++ [w] })).walkRead p h dev

/-- A class 2 record meets the device-table cache, the pinned store and the translation cache (spec/04 R91, R103, R106, R108). -/
def State.message (s : State) (p : Nat) (r : Rec) (h : Handle) (counted : Bool) : State :=
  if (s.posAt p).walks.any (fun w => w.handle == h) then
    s.updPos p (fun q => { q with walks := q.walks.map (fun w => if w.handle == h then { w with queue := w.queue ++ [r] } else w) })
  else match s.devLine h.req with
    | none => s.startWalk p r h true
    | some l =>
      let s := s.devTouch h.req
      match recCheck r h l.entry with
      | some c => s.refuse p r c
      | none =>
        if l.entry.pinned then s.meetPinned p r l.entry h (l.entry.pinBase.toNat + h.evt.toNat) counted false
        else match s.cacheHit h.req h.evt l.entry.devGen with
          | some e =>
            ((s.cacheTouch h.req h.evt).countLookup p counted (fun x => { x with cacheHits := x.cacheHits + 1 })).finish p r l.entry h e false
          | none => s.startWalk p r h false

/-- A class 3 record meets its link's pinned entry (spec/04 R91, R101; spec/09 R222). -/
def State.remote (s : State) (p : Nat) (r : Rec) (h : Handle) (counted : Bool) : State :=
  match (s.linkAt (h.req.toNat % 16)).cfg with
  | some c => s.meetPinned p r DevEntry.reset h (c.pinBase.toNat + h.evt.toNat) counted false
  | none => (s.countLookup p counted (fun x => { x with pinnedHits := x.pinnedHits + 1 })).finish p r DevEntry.reset h EvtEntry.reset false

/-- A granted record translated (spec/04 R91): a record of a moving handle waits (spec/05 R134). `counted`: its lookup has been counted before. -/
def State.translate (s : State) (p : Nat) (r : Rec) (counted : Bool) : State :=
  match r.origin with
  | .doorbell v => s.sendBell p v (r.raw != 0)
  | .handle h =>
    if (s.posAt p).blocks h then s.addWait p r counted false
    else if h.cls == 2 then s.message p r h counted
    else if h.cls == 3 then s.remote p r h counted
    else s.direct p r h counted

/-- The records that waited at a position are translated again, in order (spec/05 R134, spec/08 R202); those still held back wait on, and a position that has
stopped, or that no ridge serves, forwards none (spec/05 R140, spec/13 R351). -/
def State.releaseWaits (s : State) (p : Nat) : State :=
  if (s.posAt p).stopped || (s.posAt p).unserved.isSome then s
  else
    let w := (s.posAt p).waits
    foldList (fun (x : Waiting) s => s.translate p x.item x.counted) w (s.updPos p (fun q => { q with waits := [] }))

/-- The same at every position. -/
def State.releaseAllWaits (s : State) : State := foldBelow 4 (fun p s => s.releaseWaits p) s

/-- A walk leaves: its slots are free, inputs 0 to 8 are granted again, its length is kept (spec/01 R28, spec/04 R103, R120). -/
def State.endWalk (s : State) (p : Nat) (h : Handle) : State :=
  match (s.posAt p).walks.find? (fun w => w.handle == h) with
  | none => s
  | some w =>
    let len := BitVec.ofNat 32 (s.clk.ticks - w.started)
    let s := s.updPos p (fun q => { q with walks := dropFirst (fun w => w.handle == h) q.walks, withhold := false })
    s.updRidge (s.ridgeOf p) (fun x => { x with longestWalk := if x.longestWalk.ult len then len else x.longestWalk })

/-- One record queued on a walk that has returned (spec/04 R92, R103): it waits where its handle is moving or an earlier record of it waits (R96, spec/05
R134), else it meets the entries read. `first`: the record the walk was started for (spec/05 R131). -/
def State.walkHandle (s : State) (p : Nat) (h : Handle) (d : DevEntry) (e : EvtEntry) (first : Bool) (r : Rec) : State :=
  let s := s.charge 1 0 p
  if (s.posAt p).blocks h then s.addWait p r false first
  else match recCheck r h d with
    | some c => s.refuse p r c
    | none =>
      if d.pinned then s.meetPinned p r d h (d.pinBase.toNat + h.evt.toNat) false first
      else s.finish p r d h e first

/-- The queue of a walk handled in order, ahead of the later records of its handle that wait (spec/04 R96, R103). -/
def State.walkQueue (s : State) (p : Nat) (w : Walk) (d : DevEntry) (e : EvtEntry) : State :=
  let later := (s.posAt p).waits.filter (fun x => x.item.ofHandle w.handle)
  let s := (s.endWalk p w.handle).updPos p (fun q => { q with waits := q.waits.filter (fun x => !x.item.ofHandle w.handle) })
  let s := match w.queue with
    | [] => s
    | r :: rest => foldList (fun r s => s.walkHandle p w.handle d e false r) rest (s.walkHandle p w.handle d e true r)
  s.updPos p (fun q => { q with waits := q.waits ++ later })

/-- The caches filled when a walk returns: the device entry where the walk has read it (spec/04 R103, R106). -/
def State.walkFill (s : State) (w : Walk) (got : Bool) (d : DevEntry) (e : Option EvtEntry) : State :=
  let s := if got then s.devFill w.handle.req d d.pinned else s
  match e with | some e => s.cacheFill w.handle.req w.handle.evt e | none => s

/-- The walk's device entry has been read (spec/04 R103): where the requester is pinned, or no queued record passes checks 5 to 7, the walk
returns; else the event entry is read. -/
def State.walkDevDone (s : State) (p : Nat) (w : Walk) : State :=
  let d := s.devEntry w.handle.req
  let s := s.charge 1 0 p
  if d.pinned || w.queue.all (fun r => (recCheck r w.handle d).isSome) then (s.walkFill w true d none).walkQueue p w d EvtEntry.reset
  else
    (s.updPos p (fun q =>
      { q with walks := q.walks.map (fun x => if x.handle == w.handle then { x with readDev := false, gotDev := true } else x) })).walkRead
      p w.handle false

/-- The walk's event entry has been read: the caches are filled and the queue handled (spec/04 R103). -/
def State.walkEvtDone (s : State) (p : Nat) (w : Walk) : State :=
  let d := s.devEntry w.handle.req
  let e := s.evtEntry w.handle.req w.handle.evt
  ((s.charge 1 0 p).walkFill w w.gotDev d (some e)).walkQueue p w d e

/-- A walk read failed twice (spec/04 R104): the cairn, the ridge's last-failure registers, the queued records discarded, Tamri's rewrite due. -/
def State.walkFail (s : State) (p : Nat) (w : Walk) (kind : BitVec 2) : State :=
  let addr : BitVec 52 := if w.readDev then s.devByteAddr w.handle.req else evtByteAddr (s.devEntry w.handle.req) w.handle.evt
  let r := s.ridgeOf p
  let s := s.report (.ridge p) 0x09 14 (BitVec.ofNat 16 (16 + r)) 2 (field addr 12 32)
  let s := s.updRidge r (fun x =>
    { x with
      walkFail := true, walkFailed := satAdd x.walkFailed w.queue.length, lastFailAddr := addr.setWidth 64, lastFailH := w.handle.val,
      lastFailKind := kind })
  let s := s.endWalk p w.handle
  let rw : Rewrite := if w.readDev then .device w.handle.req else .event w.handle.req w.handle.evt
  s.modXl (fun x => { x with rewrites := x.rewrites ++ [rw] })

/-- WALK_COMPLETE: the next result of a walk's reads is used (spec/04 R103, R104). -/
def State.walkStep (s : State) (p : Nat) (h : Handle) : State :=
  match (s.posAt p).walks.find? (fun w => w.handle == h) with
  | none => s
  | some w =>
    let owner : MemOwner := if w.readDev then .walkDev (BitVec.ofNat 2 p) h else .walkEvt (BitVec.ofNat 2 p) h
    let t := s.takeRead owner
    match t.1 with
    | none => s
    | some (some k) => t.2.walkFail p w k
    | some none => if w.readDev then t.2.walkDevDone p w else t.2.walkEvtDone p w

/-- Whether a walk's result may be used: its ridge serves and forwards (spec/05 R140, spec/13 R351). -/
def State.walkOpen (s : State) (p : Nat) : Bool := s.running && (s.posAt p).unserved.isNone && !(s.posAt p).stopped

/-- Every walk of a requester's handles reads both entries again (spec/04 R105): the results of its earlier reads serve no one. -/
def State.cancelWalks (s : State) (q : BitVec 16) (only : Option (BitVec 20)) : State :=
  let hit (h : Handle) : Bool := h.req == q && (match only with | none => true | some e => h.evt == e)
  let old (o : MemOwner) : Bool := match o with | .walkDev _ h => hit h | .walkEvt _ h => hit h | _ => false
  let strip (r : MemReq) : MemReq := if old r.owner then { r with owner := .config } else r
  let s := s.modMem (fun m =>
    { m with waits := m.waits.map strip, queued := m.queued.map strip, out := m.out.map strip, done := m.done.filter (fun d => !old d.1) })
  foldBelow 4 (fun p s =>
    foldList (fun (w : Walk) s =>
      if hit w.handle then
        (s.updPos p (fun x => { x with walks := x.walks.map (fun y => if y.handle == w.handle then { y with readDev := true, gotDev := false } else y) })).walkRead
          p w.handle true
      else s) (s.posAt p).walks s) s

/-- Whether granting a class 2 record would start a walk, or need a slot, that the position has not got (spec/01 R28, spec/04 R103). -/
def State.noRoom (s : State) (p : Nat) (r : Rec) : Bool :=
  let q := s.posAt p
  match r.origin with
  | .doorbell _ => false
  | .handle h =>
    let walking := q.walks.any (fun w => w.handle == h)
    let full := decide (256 ≤ q.slots)
    if walking || q.blocks h then full
    else
      let misses := match s.devLine h.req with
        | none => true
        | some l => !l.entry.pinned && (s.cacheHit h.req h.evt l.entry.devGen).isNone
      h.cls == 2 && ((misses && (decide (64 ≤ q.walks.length) || full)) || (full && !q.parked.isEmpty))

end Sys2Proof.Machine
end

