-- ==== Sys2Proof/Machine/Couloir.lean ====
section
/-! DEFINITION. The couloirs (spec/12 R325 to R330; spec/01 R28, R29; spec/03 R78; spec/13 R350): contest and grant. -/

namespace Sys2Proof.Machine

/-- A new record of an SGI that must follow a withdraw still waiting on input 11, which leaves the same ridge before it (spec/02 R34, R41). -/
def State.behindWithdraw (s : State) (r : Rec) : Bool :=
  r.origin.cls == 1 && (s.inqAt 11).any (fun q => q.origin == r.origin && q.kind == .withdraw)

/-- The record that couloir input `i` presents to a position: the head of its order (spec/03 R78); of input 10 the head of the lowest link that
has one (spec/01 R17). -/
def State.couloirHead (s : State) (p i : Nat) : Option Rec :=
  let mine (r : Rec) : Bool := s.recPos r == p
  if i < 8 then (beforeSync (s.passAt i).buf).find? mine
  else if i = 10 then (List.range 16).findSome? (fun k => (s.inqAt (linkQueue k)).find? mine)
  else if i = 8 then ((s.inqAt 8).find? mine).filter (fun r => !s.behindWithdraw r)
  else (s.inqAt i).find? mine

/-- What every input presents. -/
def State.couloirHeads (s : State) (p : Nat) : List (Nat × Rec) :=
  (List.range 12).filterMap (fun i => (s.couloirHead p i).map (fun r => (i, r)))

/-- The rank of an input in a couloir's contest: effective priority, then the higher input (spec/12 R325). -/
def State.couloirRank (s : State) (r i : Nat) : Nat := (s.arbAt (12 * r + i)).effective * 16 + i

/-- The winner of a contest. -/
def State.couloirWinner (s : State) (r : Nat) (l : List (Nat × Rec)) : Option (Nat × Rec) :=
  bestOf (fun a b => decide (s.couloirRank r b.1 < s.couloirRank r a.1)) l

/-- A position whose walk queue is full (spec/04 R103). -/
def Pos.walkFull (q : Pos) : Bool := decide (64 ≤ q.walks.length) || decide (256 ≤ q.slots)

/-- Whether a position's ridge takes records: the block runs, the position is served, its ridge has not stopped forwarding (spec/05 R140,
spec/13 R350, R351) and no SLICE_SWAP stalls it (spec/14 R369). -/
def State.couloirOpen (s : State) (p : Nat) : Bool :=
  s.running && (s.posAt p).unserved.isNone && (s.ridgeAt (s.ridgeOf p)).role == 0 && !(s.posAt p).stopped && decide ((s.posAt p).copies < 320) &&
  !(s.posAt p).stalled && !s.pwr.parking

/-- The granted record leaves its ingress; a Pass port's entry is freed (spec/03 R60). -/
def State.takeHead (s : State) (p : Nat) (w : Nat × Rec) : State :=
  if w.1 < 8 then s.updPass w.1 (fun x => { x with buf := s.dropRecord p x.buf } |>.free)
  else s.updInq (queueOf w.2) (dropFirst (fun r => s.recPos r == p))

/-- A contest's winner is granted and translated; the others that competed lose (spec/12 R325, R330). A write's response waits for this (spec/03
R83). -/
def State.grantTo (s : State) (p : Nat) (l : List (Nat × Rec)) (w : Nat × Rec) : State :=
  let r := s.ridgeOf p
  let s := foldList (fun (h : Nat × Rec) s =>
    if h.1 = w.1 then s else s.updArb (12 * r + h.1) (fun a => { a.waitOne with losses := a.losses + 1 })) l s
  let s := s.updArb (12 * r + w.1) (fun a => a.grantOne false)
  ((s.takeHead p w).settleWrite w.2.wid).translate p w.2 false

/-- Inputs that present without competing wait and keep their losses (spec/12 R325, R330). -/
def State.waitAll (s : State) (p : Nat) (l : List (Nat × Rec)) : State :=
  foldList (fun (h : Nat × Rec) s => s.updArb (12 * s.ridgeOf p + h.1) ArbReq.waitOne) l s

/-- WITHHOLD rises (spec/04 R103, R120). -/
def State.setWithhold (s : State) (p : Nat) : State :=
  if (s.posAt p).withhold then s
  else (s.updPos p (fun q => { q with withhold := true })).updRidge (s.ridgeOf p) (fun x => { x with withheld := true })

/-- A contest while inputs 0 to 8 are withheld: inputs 9 to 11 compete (spec/01 R28). -/
def State.grantWithheld (s : State) (p : Nat) (l : List (Nat × Rec)) : State :=
  let s := s.updRidge (s.ridgeOf p) (fun x => { x with withholdCyc := x.withholdCyc + 1 })
  let s := s.waitAll p (l.filter (fun h => decide (h.1 < 9)))
  let c := l.filter (fun h => decide (9 ≤ h.1) && !s.noRoom p h.2)
  match s.couloirWinner (s.ridgeOf p) c with
  | none => s
  | some w => s.grantTo p c w

/-- A couloir's requesters that their sidebands mask lose what they had aged (spec/12 R326). -/
def State.clearMasked (s : State) (p : Nat) : State :=
  foldBelow 12 (fun i s => if s.arbMasked (12 * s.ridgeOf p + i) then s.updArb (12 * s.ridgeOf p + i) (fun a => { a with losses := 0 }) else s) s

/-- A couloir's contest in one FCLK cycle (spec/01 R28, spec/12 R325). -/
def State.contest (s : State) (p : Nat) : State :=
  let s := s.clearMasked p
  let l := (s.couloirHeads p).filter (fun h => !(s.arbAt (12 * s.ridgeOf p + h.1)).forced && !s.logFullFor h.2.origin.cls)
  if (s.posAt p).withhold && (s.posAt p).walkFull then s.grantWithheld p l
  else
    let s := s.updPos p (fun q => { q with withhold := false })
    match s.couloirWinner (s.ridgeOf p) l with
    | none => s
    | some w =>
      if s.noRoom p w.2 then
        (if w.1 < 9 then (s.setWithhold p).grantWithheld p l
         else match s.couloirWinner (s.ridgeOf p) (l.filter (fun h => !s.noRoom p h.2)) with
           | none => s
           | some w => s.grantTo p (l.filter (fun h => !s.noRoom p h.2)) w)
      else s.grantTo p l w

/-- COULOIR_GRANT: one contest of the couloir that serves a position (spec/12 R325). -/
def execCouloirGrant (pos : Fin 4) (s : State) : Host.Outcome State Fault Refusal :=
  ok (if s.couloirOpen pos.val then s.contest pos.val else s)

end Sys2Proof.Machine
end

