-- ==== Sys2Proof/Machine/Gmac.lean ====
section
/-! DEFINITION. AES-128-GMAC, the tag of a burst (spec/09 R232). The spec names the standard; its steps are taken from FIPS 197 and SP 800-38D
(assumption log 12). Byte lists are in byte order; `BitVec` operands hold byte 0 in bits 7:0 (spec/00 R14). -/

namespace Sys2Proof.Machine

/-- The AES S-box: byte `i` is the substitute of `i`. -/
def aesBox : Nat :=
  0x16bb54b00f2d99416842e6bf0d89a18cdf2855cee9871e9b948ed9691198f8e19e1dc186b95735610ef6034866b53e708a8bbd4b1f74dde8c6b4a61c2e2578ba08ae7a65eaf4566ca94ed58d6d37c8e779e4959162acd3c25c2406490a3a32e0db0b5ede14b8ee4688902a22dc4f816073195d643d7ea7c41744975fec130ccdd2f3ff1021dab6bcf5389d928f40a351a89f3c507f02f94585334d43fbaaefd0cf584c4a39becb6a5bb1fc20ed00d153842fe329b3d63b52a05a6e1b1a2c830975b227ebe28012079a059618c323c7041531d871f1e5a534ccf73f362693fdb7c072a49cafa2d4adf04759fa7dc982ca76abd7fe2b670130c56f6bf27b777c63

/-- The substitute of a byte. -/
def aesSub (b : BitVec 8) : BitVec 8 := BitVec.ofNat 8 (aesBox >>> (8 * b.toNat))

/-- A byte times x in AES's field. -/
def aesTwice (b : BitVec 8) : BitVec 8 := (b <<< 1) ^^^ (if bitAt b 7 then 0x1B else 0)

/-- Byte `i` of a list. -/
def byteAt (l : List (BitVec 8)) (i : Nat) : BitVec 8 := l.getD i 0

/-- SubBytes and ShiftRows of a state of 16 bytes. -/
def aesShift (l : List (BitVec 8)) : List (BitVec 8) := (List.range 16).map (fun i => aesSub (byteAt l ((5 * i) % 16)))

/-- MixColumns. -/
def aesMix (l : List (BitVec 8)) : List (BitVec 8) :=
  (List.range 16).map (fun i =>
    let c := 4 * (i / 4)
    let a := byteAt l (c + i % 4)
    let b := byteAt l (c + (i + 1) % 4)
    aesTwice a ^^^ aesTwice b ^^^ b ^^^ byteAt l (c + (i + 2) % 4) ^^^ byteAt l (c + (i + 3) % 4))

/-- AddRoundKey. -/
def aesAdd (l k : List (BitVec 8)) : List (BitVec 8) := (List.range 16).map (fun i => byteAt l i ^^^ byteAt k i)

/-- The next round key, with round constant `rc`. -/
def aesNextKey (k : List (BitVec 8)) (rc : BitVec 8) : List (BitVec 8) :=
  let g (j : Nat) : BitVec 8 := aesSub (byteAt k (12 + (j + 1) % 4)) ^^^ (if j = 0 then rc else 0)
  let upto (j n : Nat) : BitVec 8 := (List.range (n + 1)).foldl (fun a m => a ^^^ byteAt k (4 * m + j)) (g j)
  (List.range 16).map (fun i => upto (i % 4) (i / 4))

/-- Rounds to come: the last one has no MixColumns. -/
def aesRounds : Nat → List (BitVec 8) → List (BitVec 8) → BitVec 8 → List (BitVec 8)
  | 0, l, _, _ => l
  | n + 1, l, k, rc =>
    let k1 := aesNextKey k rc
    let m := aesShift l
    aesRounds n (aesAdd (if n = 0 then m else aesMix m) k1) k1 (aesTwice rc)

/-- AES-128 of a block of 16 bytes. -/
def aes128 (key block : List (BitVec 8)) : List (BitVec 8) := aesRounds 10 (aesAdd block key) key 1

/-- Bytes as one number, the first the most significant. -/
def bytesBig (l : List (BitVec 8)) : Nat := l.foldl (fun a b => 256 * a + b.toNat) 0

/-- The product of GHASH's field, over the bits that remain: `x` from its most significant bit on, `v` the running multiple of H. -/
def ghashMul (x : BitVec 128) : Nat → BitVec 128 → BitVec 128 → BitVec 128
  | 0, _, z => z
  | n + 1, v, z =>
    ghashMul x n ((v >>> 1) ^^^ (if bitAt v 0 then (0xE1 : BitVec 128) <<< 120 else 0)) (if bitAt x n then z ^^^ v else z)

/-- GHASH over whole blocks. -/
def ghash (h : BitVec 128) (blocks : List (BitVec 128)) : BitVec 128 := blocks.foldl (fun y b => ghashMul (y ^^^ b) 128 h 0) 0

/-- Block `i` of data, the last filled with zeros. -/
def dataBlock (l : List (BitVec 8)) (i : Nat) : BitVec 128 :=
  BitVec.ofNat 128 (bytesBig ((List.range 16).map (fun j => byteAt l (16 * i + j))))

/-- A number as its 16 bytes, the most significant first. -/
def bigBytes (n : Nat) : List (BitVec 8) := (List.range 16).map (fun i => BitVec.ofNat 8 (n >>> (8 * (15 - i))))

/-- AES-128-GMAC over additional data: bit 95 of the IV is its first bit (assumption log 12); byte 0 of the tag is in bits 7:0. -/
def gmac (key : BitVec 128) (iv : BitVec 96) (data : List (BitVec 8)) : BitVec 128 :=
  let k := (List.range 16).map (fun i => (field key (8 * i) 8 : BitVec 8))
  let h := BitVec.ofNat 128 (bytesBig (aes128 k (bigBytes 0)))
  let s := ghash h ((List.range ((data.length + 15) / 16)).map (dataBlock data) ++ [BitVec.ofNat 128 (8 * data.length * 2 ^ 64)])
  let mask := bytesBig (aes128 k (bigBytes (iv.toNat * 2 ^ 32 + 1)))
  let tag := bigBytes (s.toNat ^^^ mask)
  BitVec.ofNat 128 (bytesBig tag.reverse)

end Sys2Proof.Machine
end

