-- ==== Sys2Proof/Machine/Phy.lean ====
section
/-! DEFINITION. Between flits and line levels (spec/10 R251 to R256, R263, R264, R271, R272): scrambler, symbols, frames, patterns. -/

namespace Sys2Proof.Machine

/-- Whether a lane carries flits, in either direction (spec/10 R258, R275): on a narrow link whose lanes are permuted the two directions use different lanes. -/
def Lane.carries (x : Lane) : Bool := x.inUse || x.rxUse

/-- A PAM4 symbol, 0 to 3 (spec/10 R253). -/
abbrev Sym := BitVec 2

/-- The level of a symbol (spec/10 R253). -/
def levelOf (p : Sym) : Level := if p == 0 then .minusFull else if p == 1 then .minusThird else if p == 2 then .plusThird else .plusFull

/-- The seed of logical lane `j`'s scrambler (spec/10 R252). -/
def scrSeed (j : Nat) : BitVec 31 := 0x7FFFFFFF ^^^ (BitVec.ofNat 31 j <<< 8)

/-- One step of a scrambler (spec/10 R252). -/
def scrStep (s : BitVec 31) : BitVec 31 := (s <<< 1) ||| (((s >>> 30) ^^^ (s >>> 27)) &&& 1)

/-- Data bits scrambled, or scrambled bits recovered: the sequence is added either way (spec/10 R252). -/
def scramble : List Bool → BitVec 31 → List Bool
  | [], _ => []
  | d :: ds, s => (d ^^ s.getLsbD 30) :: scramble ds (scrStep s)

/-- The scrambler `n` bits later. -/
def scrAfter : Nat → BitVec 31 → BitVec 31
  | 0, s => s
  | n + 1, s => scrAfter n (scrStep s)

/-- The Gray map between a pair of bits and a symbol (spec/10 R253), its own inverse. -/
def gray (v : BitVec 2) : Sym := if v == 2 then 3 else if v == 3 then 2 else v

/-- Bits taken in pairs, the first as bit 0, and Gray-mapped (spec/10 R253). -/
def symbolsOf : List Bool → List Sym
  | a :: b :: rest => gray (BitVec.ofBool b ++ BitVec.ofBool a) :: symbolsOf rest
  | _ => []

/-- The bits of symbols. -/
def bitsOfSymbols : List Sym → List Bool
  | [] => []
  | g :: rest => (gray g).getLsbD 0 :: (gray g).getLsbD 1 :: bitsOfSymbols rest

/-- Precoding after symbol `p` (spec/10 R253). -/
def precodeSyms : List Sym → Sym → List Sym
  | [], _ => []
  | g :: gs, p => (g - p) :: precodeSyms gs (g - p)

/-- What a receiver makes of precoded symbols after symbol `p` (spec/10 R253). -/
def unprecodeSyms : List Sym → Sym → List Sym
  | [], _ => []
  | q :: qs, p => (q + p) :: unprecodeSyms qs q

/-- The last of some symbols, or the one before them. -/
def lastSym (l : List Sym) (p : Sym) : Sym := l.getLastD p

/-- The data bits of a flit on the `i`-th of `u` in-use lanes: bytes `i`, `i + u`, … in order, bit 0 of each first (spec/10 R251). -/
def laneData (f : BitVec 256) (u i : Nat) : List Bool :=
  ((List.range 32).filter (fun k => k % u == i)).foldr (fun k acc => (List.range 8).map (fun b => bitAt f (8 * k + b)) ++ acc) []

/-- Data bits as the symbols a lane sends (spec/10 R252, R253). -/
def encodeBits (scr : BitVec 31) (p : Sym) (d : List Bool) : List Sym := precodeSyms (symbolsOf (scramble d scr)) p

/-- The data bits that a receiver recovers from symbols (spec/10 R253). -/
def recoverBits (scr : BitVec 31) (p : Sym) (l : List Sym) : List Bool := scramble (bitsOfSymbols (unprecodeSyms l p)) scr

/-- One level toward the centre (spec/10 R272). -/
def towardCentre (p : Sym) : Sym := if p == 0 then 1 else if p == 3 then 2 else if p == 1 then 2 else 1

/-- The first `n` of some symbols moved by an injection (spec/10 R272). -/
def moveSyms : Nat → List Sym → List Sym
  | n + 1, p :: ps => towardCentre p :: moveSyms n ps
  | _, ps => ps

/-- Symbols leave a lane, the first of them moved by an injection that is due; a squelched transmitter sends none (spec/10 R269), a near-end loopback passes them inside the PHY (R273). DESIGN CHOICE (assumption log 61): an injection moves the next
symbols of data or of a test pattern. -/
def Lane.send (x : Lane) (l : List Sym) : Lane :=
  { x with pre := lastSym l x.pre, inj := x.inj - l.length, out := if x.squelched then x.out else (moveSyms x.inj l).map levelOf :: x.out }

/-- What a lane's transmit balls show (spec/10 R263, R269). -/
inductive Drive where
  /-- not driven: POLUIF_AVAIL is 0 -/
  | undriven
  /-- held below 30 mV: squelched or idle -/
  | quiet
  /-- the levels of what the lane sends -/
  | levels
  deriving DecidableEq, Repr

/-- Symbols that no injection reaches leave a lane: a training frame, an idle frame, an exit burst. -/
def Lane.sendFrame (x : Lane) (l : List Sym) : Lane := { x with out := l.map levelOf :: x.out }

/-- Data bits leave a lane (spec/10 R251 to R253). -/
def Lane.sendData (x : Lane) (d : List Bool) : Lane := { x.send (encodeBits x.scr x.pre d) with scr := scrAfter d.length x.scr }

/-- A lane's receiver has recovered data bits: its scrambler and precoder have followed. -/
def Lane.recvData (x : Lane) (d : List Bool) : Lane :=
  { x with signal := true, rxPre := lastSym (encodeBits x.rxScr x.rxPre d) x.rxPre, rxScr := scrAfter d.length x.rxScr }

/-- The register of a pattern one step later (spec/10 R271; R252 for PRBS31): the bit that leaves is the highest. DEDUCED (assumption log 61): the PRBS7 and PRBS13 registers
are laid out as R252's. -/
def prbsNext (pattern : BitVec 3) (s : BitVec 31) : BitVec 31 :=
  if pattern == 0 then ((s <<< 1) ||| (((s >>> 6) ^^^ (s >>> 5)) &&& 1)) &&& 0x7F
  else if pattern == 1 then ((s <<< 1) ||| (((s >>> 12) ^^^ (s >>> 11) ^^^ (s >>> 1) ^^^ s) &&& 1)) &&& 0x1FFF
  else scrStep s

/-- The bit that leaves a pattern's register. -/
def prbsOut (pattern : BitVec 3) (s : BitVec 31) : Bool := if pattern == 0 then s.getLsbD 6 else if pattern == 1 then s.getLsbD 12 else s.getLsbD 30

/-- `n` bits of a pattern. -/
def prbsBits (pattern : BitVec 3) : Nat → BitVec 31 → List Bool
  | 0, _ => []
  | n + 1, s => prbsOut pattern s :: prbsBits pattern n (prbsNext pattern s)

/-- A pattern's register `n` bits later. -/
def prbsAfter (pattern : BitVec 3) : Nat → BitVec 31 → BitVec 31
  | 0, s => s
  | n + 1, s => prbsAfter pattern n (prbsNext pattern s)

/-- A pattern's seed: all ones; the phase of SSPRQ starts at 0 (spec/10 R271). -/
def patternSeed (pattern : BitVec 3) : BitVec 31 := if pattern == 0 then 0x7F else if pattern == 1 then 0x1FFF else if pattern == 2 then 0x7FFFFFFF else 0

/-- `n` Gray-mapped symbols of a pattern; of SSPRQ, whose register is its phase, those of its 65,535 (spec/10 R271). -/
def patternSyms (pattern : BitVec 3) (n : Nat) (s : BitVec 31) : List Sym :=
  if pattern == 3 then (List.range n).map (fun i => Config.ssprq ((s.toNat + i) % 65535)) else symbolsOf (prbsBits pattern (2 * n) s)

/-- A pattern's register `n` symbols later. -/
def patternAfter (pattern : BitVec 3) (n : Nat) (s : BitVec 31) : BitVec 31 :=
  if pattern == 3 then BitVec.ofNat 31 ((s.toNat + n) % 65535) else prbsAfter pattern (2 * n) s

/-- MARK (spec/10 R255). -/
def mark : List Sym := [3, 0, 3, 0, 3, 0, 3, 0, 0, 3, 0, 3, 0, 3, 0, 3]

/-- The exit burst: MARK eight times (spec/10 R264). -/
def exitBurst : List Sym := mark ++ mark ++ mark ++ mark ++ mark ++ mark ++ mark ++ mark

/-- INFO as symbols (spec/10 R255). -/
def infoSyms (info : BitVec 16) : List Sym := symbolsOf ((List.range 16).map (fun i => bitAt info i))

/-- A training frame (spec/10 R255): MARK, INFO twice, 448 bits of PRBS13 precoded from 0. -/
def trainingFrame (info : BitVec 16) (prbs : BitVec 31) : List Sym := mark ++ infoSyms info ++ infoSyms info ++ precodeSyms (symbolsOf (prbsBits 1 448 prbs)) 0

/-- A training frame leaves a lane: its PRBS13 goes on from frame to frame (spec/10 R255). -/
def Lane.sendTraining (x : Lane) (info : BitVec 16) : Lane := { x.sendFrame (trainingFrame info x.prbs) with prbs := prbsAfter 1 448 x.prbs }

/-- An exit burst leaves a lane, whose precoder then restarts and whose scrambler resumes where it paused (spec/10 R264). -/
def Lane.sendBurst (x : Lane) : Lane := { x.sendFrame exitBurst with pre := 0 }

/-- INFO (spec/10 R256). -/
def infoWord (lane : Nat) (width : BitVec 2) (locked : BitVec 4) (ready last : Bool) (count : BitVec 4) (idle : Bool) : BitVec 16 :=
  (0#1 : BitVec 1) ++ BitVec.ofBool idle ++ count ++ BitVec.ofBool last ++ BitVec.ofBool ready ++ locked ++ width ++ BitVec.ofNat 2 lane

/-- Whether an INFO is that of an idle frame (spec/10 R263). -/
def isIdleInfo (info : BitVec 16) : Bool := bitAt info 14 && bitAt info 8 && !bitAt info 9 && field info 10 4 == 0

/-- Symbols that a lane carries in `t` TCLK ticks at a rate code (spec/10 R248): 125, 50, 25 or 12.5 a tick. -/
def symsBy (rate : BitVec 2) (t : Nat) : Nat := if rate == 3 then 125 * t else if rate == 2 then 50 * t else if rate == 1 then 25 * t else 25 * t / 2

/-- The symbols of the tick that ends at `t`. -/
def symsOf (rate : BitVec 2) (t : Nat) : Nat := symsBy rate t - symsBy rate (t - 1)

/-- Whether a lane's pattern is precoded: SSPRQ never is (spec/10 R271). -/
def Lane.precodes (x : Lane) : Bool := x.precode && x.chkPattern != 3

/-- The symbols that differ between two lists, and the bits that do. -/
def symErrors : List Sym → List Sym → Nat × Nat
  | a :: as, b :: bs =>
    let r := symErrors as bs
    if a == b then r else (r.1 + 1, r.2 + (if gray a ^^^ gray b == 3 then 2 else 1))
  | _, _ => (0, 0)

/-- The errors that a checker finds in `g`, where its register expects a pattern (spec/10 R271): none is counted out of lock. -/
def Lane.check (x : Lane) (g : List Sym) : Lane :=
  if x.chkLocked then
    let e := symErrors g (patternSyms x.chkPattern g.length x.chk)
    { x with
      chkSymErr := x.chkSymErr + BitVec.ofNat 64 e.1, chkBitErr := x.chkBitErr + BitVec.ofNat 64 e.2, chkErr := x.chkErr || decide (0 < e.1) }
  else x

/-- `n` symbols of a test pattern leave the generator (spec/10 R271 to R273); in the near-end loopback the lane's own checker receives them. -/
def Lane.generate (x : Lane) (n : Nat) : Lane :=
  let g := patternSyms x.chkPattern n x.gen
  let p := if x.precodes then precodeSyms g x.pre else g
  let seen := moveSyms x.inj p
  let y : Lane := { x.send p with gen := patternAfter x.chkPattern n x.gen }
  if x.test == 4 then { y.check (if x.precodes then unprecodeSyms seen x.rxPre else seen) with rxPre := lastSym seen x.rxPre } else y

/-- The part of a tick that a lane under test has (spec/10 R271): its generator runs, and its locked checker counts symbols. -/
def Lane.testTick (x : Lane) (t : Nat) : Lane :=
  let n := symsOf x.rateNow t
  let y := if x.test == 1 || x.test == 3 || x.test == 4 then x.generate n else x
  if x.chkLocked then { y with chkSymbols := y.chkSymbols + BitVec.ofNat 64 n, chk := patternAfter x.chkPattern n x.chk } else y

end Sys2Proof.Machine
end

