-- ==== Sys2Proof/Machine/LinkOps.lean ====
section
/-! DEFINITION. What the links send (spec/09 R213 to R246): flits, bursts, EOIs, notices, roles and syncs. -/

namespace Sys2Proof.Machine

/-- A flit's bytes 0 to 27 (spec/09 R213, R214). -/
def flitBody (type : BitVec 4) (req slot : Bool) (seq ack : BitVec 12) (payload : BitVec 192) : BitVec 224 :=
  payload ++ (ack ++ seq ++ (0#2 : BitVec 2) ++ bit slot ++ bit req ++ type)

/-- A flit with its CRC (spec/09 R213). -/
def flitOf (b : BitVec 224) : BitVec 256 := crc32 b 28 ++ b

/-- Whether link `k` is the col link (spec/09 R235). -/
def Link.isCol (l : Link) : Bool := match l.cfg with | some c => c.col | none => false

/-- Whether link `k` is authenticated (spec/09 R231). -/
def Link.isAuth (l : Link) : Bool := match l.cfg with | some c => c.auth | none => false

/-- The pair of a valley link, where it has one (spec/09 R235). -/
def Link.pairNo (l : Link) : Option Nat := match l.cfg with | some c => if c.paired && !c.col then some c.pair.toNat else none | none => none

/-- The col link (spec/09 R237). -/
def State.colLink (s : State) : Option Nat := firstBelow 16 (fun k => (s.linkAt k).isCol)

/-- The valley link of a pair. -/
def State.pairLink (s : State) (p : Nat) : Option Nat := firstBelow 16 (fun k => (s.linkAt k).pairNo == some p)

/-- Whether the block is ACTIVE for a link's sources (spec/09 R237). -/
def State.activeFor (s : State) (k : Nat) : Bool :=
  match (s.linkAt k).pairNo with | some p => bitAt s.partner.active p | none => true

/-- Whether the block is the block side of a link (spec/09 R232). -/
def State.blockSide (s : State) (k : Nat) : Bool := !(s.linkAt k).isCol || s.straps.senior

/-- The IV of a burst that travels from the block (`out`) or to it, at XSEQ `x` (spec/09 R232). -/
def State.linkIV (s : State) (k : Nat) (out : Bool) (x : Nat) : BitVec 96 :=
  let l := s.linkAt k
  let b := s.blockSide k
  let saltB := if b then l.tx.salt else l.rx.peerSalt
  let saltZ := if b then l.rx.peerSalt else l.tx.salt
  saltB ++ saltZ ++ bit (b != out) ++ BitVec.ofNat 55 x

/-- The additional authenticated data of a burst: bytes 0 to 27 of each covered flit, then bytes 0 to 3 and 20 to 27 of the TAG flit (spec/09 R232). -/
def burstData (flits : List (BitVec 224)) (tag : BitVec 224) : List (BitVec 8) :=
  flits.foldr (fun f acc => bytesFrom f 0 28 ++ acc) (bytesFrom tag 0 4 ++ bytesFrom tag 20 8)

/-- The lanes of a configuration, in logical order (spec/10 R250). -/
def LinkCfg.lanes (c : LinkCfg) : List Nat := (List.range c.width).map (fun j => 4 * c.quad.toNat + c.firstLane.toNat + j)

/-- A link's lanes. -/
def Link.lanes (l : Link) : List Nat := match l.cfg with | some c => c.lanes | none => []

/-- A flit's bytes leave on the in-use lanes, in ascending logical order (spec/10 R251). -/
def State.sendLanes (s : State) (k : Nat) (f : BitVec 256) : State :=
  let used := (s.linkAt k).lanes.filter (fun n => (s.laneAt n).inUse)
  foldList (fun (p : Nat × Nat) s => s.updLane p.2 (fun x => x.sendData (laneData f used.length p.1))) (enumFrom 0 used) s

/-- The lanes that receive a link's flits, ordered by INFO.LANE (spec/10 R257). -/
def State.rxLanes (s : State) (k : Nat) : List Nat :=
  (List.range 4).filterMap (fun j => (s.linkAt k).lanes.find? (fun n => (s.laneAt n).rxUse && (field (s.laneAt n).info 0 2).toNat == j))

/-- The receivers of a link's lanes have recovered a flit (spec/10 R253). -/
def State.recvLanes (s : State) (k : Nat) (f : BitVec 256) : State :=
  let used := s.rxLanes k
  foldList (fun (p : Nat × Nat) s => s.updLane p.2 (fun x => x.recvData (laneData f used.length p.1))) (enumFrom 0 used) s

/-- A flit leaves a link: counted, it carries the acknowledgement owed. -/
def State.sendFlit (s : State) (k : Nat) (f : BitVec 256) : State :=
  (s.updLink k (fun l =>
    { l with
      flitsTx := l.flitsTx + 1, lastActive := if l.tx.ackOwed then s.clk.ticks else l.lastActive,
      tx := { l.tx with ackOwed := false, reqOwed := false, sent := f :: l.tx.sent } })).sendLanes k f

/-- An unsequenced flit (spec/09 R214, R215). -/
def State.sendPlain (s : State) (k : Nat) (type : BitVec 4) (payload : BitVec 192) : State :=
  let l := s.linkAt k
  s.sendFlit k (flitOf (flitBody type l.tx.reqOwed false l.tx.seq l.rx.released payload))

/-- A sequenced flit enters the replay buffer as it leaves (spec/09 R215, R218, R219); an injection of kind 3 inverts bit 0 of byte 28
on the wire only, of one flit each (spec/10 R272). -/
def State.sendSeq (s : State) (k : Nat) (b : BitVec 224) : State :=
  (s.sendFlit k (if 0 < (s.linkAt k).tx.crcFlips then flitOf b ^^^ (1#256 <<< 224) else flitOf b)).updLink k (fun l =>
    { l with
      lastActive := s.clk.ticks,
      tx := { l.tx with
        crcFlips := l.tx.crcFlips - 1, seq := l.tx.seq + 1, xseq := l.tx.xseq + 1, timer := if l.tx.replay.isEmpty then s.clk.ticks else l.tx.timer,
        replay := l.tx.replay ++ [flitOf b] } })

/-- The key slot of a burst: that of its first flit, or the transmit slot where it begins (spec/09 R233). -/
def Link.burstSlot (l : Link) : Bool := match l.tx.burst with | f :: _ => bitAt f 5 | [] => l.isAuth && l.txSlot

/-- The key in a slot. -/
def Link.key (l : Link) (slot : Bool) : Option (BitVec 128) := l.keys.getD (if slot then 1 else 0) none

/-- The burst is closed with its TAG flit (spec/09 R232). -/
def State.closeBurst (s : State) (k : Nat) : State :=
  let l := s.linkAt k
  if l.tx.burst.isEmpty || 256 ≤ l.tx.replay.length then s
  else
    let rest : BitVec 64 := BitVec.ofNat 64 l.tx.burst.length
    let shape (tag : BitVec 128) : BitVec 224 := flitBody 5 l.tx.reqOwed l.burstSlot l.tx.seq l.rx.released (rest ++ tag)
    let tag := gmac ((l.key l.burstSlot).getD 0) (s.linkIV k true l.tx.xseq) (burstData l.tx.burst (shape 0))
    (s.sendSeq k (shape tag)).updLink k (fun l => { l with tx := { l.tx with burst := [] } })

/-- An ENTRY flit (spec/09 R221, R232). -/
def State.sendEntries (s : State) (k : Nat) (e0 e1 : BitVec 96) : State :=
  let l := s.linkAt k
  let b := flitBody 4 l.tx.reqOwed l.burstSlot l.tx.seq l.rx.released (e1 ++ e0)
  let s := s.sendSeq k b
  if l.isAuth then
    (let s := s.updLink k (fun l => { l with tx := { l.tx with burst := l.tx.burst ++ [b], burstAt := s.clk.ticks } })
     if (s.linkAt k).tx.burst.length = 4 then s.closeBurst k else s)
  else s

/-- Entries leave their queue while the link is up, not idle, and its replay buffer has room (spec/09 R218, R220, R224), after the TAG flit of a full burst
that found none (R232). -/
def State.pumpLink (s : State) (k : Nat) : Nat → State
  | 0 => s
  | n + 1 =>
    let l := s.linkAt k
    if l.state == 5 && !l.txIdle && decide (l.tx.replay.length < 256) && (!l.isAuth || decide (l.tx.xseq + 2 < 2 ^ 55)) then
      if l.isAuth && decide (4 ≤ l.tx.burst.length) then (s.closeBurst k).pumpLink k n
      else (match l.tx.queue with
       | [] => s
       | [e] => (s.updLink k (fun l => { l with tx := { l.tx with queue := [] } })).sendEntries k e 0
       | e0 :: e1 :: rest => ((s.updLink k (fun l => { l with tx := { l.tx with queue := rest } })).sendEntries k e0 e1).pumpLink k n)
    else s

/-- All that may leave a link's queue. -/
def State.pump (s : State) (k : Nat) : State := s.pumpLink k ((s.linkAt k).tx.queue.length + 1)

/-- An entry queued on a link. -/
def State.queueEntry (s : State) (k : Nat) (e : BitVec 96) : State :=
  (s.updLink k (fun l => { l with tx := { l.tx with queue := l.tx.queue ++ [e] } })).pump k

/-- An EOI entry (spec/09 R221). -/
def eoiEntry (src : BitVec 12) (orphaned : Bool) : BitVec 96 := BitVec.ofNat 79 0 ++ bit orphaned ++ src ++ (5#4 : BitVec 4)

/-- An EOI put on the orphan list; a full list drops its oldest (spec/09 R228, R229). -/
def State.orphan (s : State) (k : Nat) (src : BitVec 12) : State :=
  s.updLink k (fun l =>
    if l.orphans.length < 1024 then { l with orphans := l.orphans ++ [eoiEntry src true] }
    else
      { l with
        orphans := l.orphans.drop 1 ++ [eoiEntry src true], orphanDrops := satInc l.orphanDrops, orphOverflow := true })

/-- The EOI of a completed class 3 instance: held while the link is orphaned, sent by the ACTIVE block (spec/09 R223, R228, R237). -/
def State.sendEoi (s : State) (k : Nat) (src : BitVec 12) : State :=
  if (s.linkAt k).orphaned then s.orphan k src
  else if s.activeFor k then s.queueEntry k (eoiEntry src false)
  else s

/-- A col entry of a kind with its payload bits (spec/09 R240). -/
def colEntry (kind : BitVec 4) (payload : BitVec 92) : BitVec 96 := payload ++ kind

/-- Sync in progress: whether the sync being sent has not yet recorded a source of its pair (spec/09 R246). -/
def Partner.suppresses (p : Partner) (pair src : Nat) : Bool :=
  match p.sync with | some y => y.pair.toNat == pair && decide (y.next ≤ src) | none => false

/-- Waiting notices leave on credits: shared first, then the notice credits with RSV = 1 (spec/09 R245). -/
def State.pumpNotices (s : State) (k : Nat) : Nat → State
  | 0 => s
  | n + 1 =>
    match s.partner.notices with
    | [] => s
    | e :: rest =>
      if (s.linkAt k).sharedAvail > 0 then
        (((s.modPartner (fun p => { p with notices := rest })).updLink k (fun l => { l with sharedAvail := l.sharedAvail - 1 })).queueEntry k e).pumpNotices k n
      else if (s.linkAt k).noticeAvail > 0 then
        (((s.modPartner (fun p => { p with notices := rest })).updLink k (fun l => { l with noticeAvail := l.noticeAvail - 1 })).queueEntry k (e ||| 0x10)).pumpNotices k n
      else s

/-- A notice for a source of a pair: none while the partner is lost or the col link is down (spec/09 R238, R239, R246). -/
def State.notice (s : State) (pair src : Nat) (e : BitVec 96) : State :=
  match s.colLink with
  | none => s
  | some k =>
    if s.partner.lost || (s.linkAt k).state != 5 || s.partner.suppresses pair src then s
    else
      let s := s.modPartner (fun p => { p with notices := p.notices ++ [e] })
      s.pumpNotices k s.partner.notices.length

/-- CLAIM_NOTICE (spec/09 R239, R240). -/
def claimNotice (pair : BitVec 4) (src : BitVec 12) (level : Bool) (count : BitVec 16) : BitVec 96 :=
  colEntry 0xB (BitVec.ofNat 58 0 ++ count ++ bit level ++ src ++ pair ++ (0#1 : BitVec 1))

/-- COMPLETE_NOTICE (spec/09 R240). -/
def completeNotice (pair : BitVec 4) (src : BitVec 12) : BitVec 96 :=
  colEntry 0xC (BitVec.ofNat 75 0 ++ src ++ pair ++ (0#1 : BitVec 1))

/-- ROLE with an OP for a pair (spec/09 R240, R242). -/
def roleEntry (op : BitVec 4) (pair : BitVec 4) : BitVec 96 := colEntry 0xE (BitVec.ofNat 84 0 ++ pair ++ op)

/-- CREDIT (spec/09 R240, R245). -/
def creditEntry (shared : BitVec 7) (notice : BitVec 2) : BitVec 96 := colEntry 0xF (BitVec.ofNat 83 0 ++ notice ++ shared)

/-- SYNC (spec/09 R240, R246). -/
def syncEntry (phase : BitVec 2) (pair : BitVec 4) (src : BitVec 12) (pend : BitVec 16) (act : BitVec 5) (asserted : Bool) (id : BitVec 16) : BitVec 96 :=
  colEntry 0xD (BitVec.ofNat 36 0 ++ id ++ bit asserted ++ act ++ pend ++ src ++ pair ++ phase)

/-- A ROLE entry sent on the col link where it is up: it needs no credit (spec/09 R245). -/
def State.sendRole (s : State) (op : BitVec 4) (pair : Nat) : State :=
  match s.colLink with
  | some k => if (s.linkAt k).state == 5 then s.queueEntry k (roleEntry op (BitVec.ofNat 4 pair)) else s
  | none => s

/-- A class 3 handle of link `k` and source `src` (spec/01 R18). -/
def remoteHandle (k src : Nat) : Handle := { cls := 3, req := BitVec.ofNat 16 (0xFF00 + k), evt := BitVec.ofNat 20 src }

/-- The moved instances of a handle on their way to a new target (spec/05 R134). -/
def State.movingInsts (s : State) (h : Handle) : List Inst :=
  let pick (i : PItem) : Option Inst := match i with | .moved x _ => if x.origin == .handle h then some x else none | _ => none
  s.xl.pos.foldr (fun q acc => q.items.filterMap pick ++ acc) [] ++ s.bel.foldr (fun b acc => b.2.landing.filterMap (fun l => pick l.item) ++ acc) []

/-- The pending instances of a handle: at every target, in every bivouac, and on their way. -/
def State.pendingOf (s : State) (h : Handle) : List Inst :=
  s.tgt.foldr (fun t acc => t.2.store.filter (fun x => x.origin == .handle h) ++ acc) [] ++
    (s.vt.foldr (fun v acc => v.2.bivouac.filter (fun x => x.origin == .handle h) ++ acc) [] ++ s.movingInsts h)

/-- The active entries of a handle: in every stack and every save area. -/
def State.activeOf (s : State) (h : Handle) : List Active :=
  s.pair.foldr (fun p acc => p.2.stack.filter (fun a => a.inst.origin == .handle h) ++ acc) [] ++
    s.vt.foldr (fun v acc => v.2.savedAct.filter (fun a => a.inst.origin == .handle h) ++ acc) []

/-- Occurrences an instance stands for. -/
def Inst.weight (x : Inst) : Nat := if x.counted then max 1 x.count.toNat else 1

/-- The state of a source as a sync records it: edge occurrences pending, active instances, level pending or asserted (spec/09 R240). -/
def State.syncState (s : State) (k src : Nat) : Nat × Nat × Bool :=
  let h := remoteHandle k src
  let pend := s.pendingOf h
  let edge := (pend.filter (fun x => !x.level)).foldl (fun n x => n + x.weight) 0
  (min edge 65535, min (s.activeOf h).length 16, pend.any (fun x => x.level) || bitAt (s.linkAt k).levelView src)

/-- The next source of a pair with nonzero state, from a number on. -/
def State.nextSync (s : State) (k from_ : Nat) : Option Nat :=
  match (s.linkAt k).cfg with
  | none => none
  | some c => firstFrom (fun i => let y := s.syncState k i; decide (0 < y.1) || decide (0 < y.2.1) || y.2.2) from_ (c.sources - from_)

/-- One SYNC entry sent on a shared credit (spec/09 R245). -/
def State.sendSync (s : State) (col : Nat) (e : BitVec 96) : State :=
  (s.updLink col (fun l => { l with sharedAvail := l.sharedAvail - 1 })).queueEntry col e

/-- The sync in progress goes on while shared credits last: a RECORD for each source with nonzero state, then END (spec/09
R246). A junior that has aborted waits for the senior's END. -/
def State.pumpSync (s : State) (col : Nat) : Nat → State
  | 0 => s
  | n + 1 =>
    if (s.linkAt col).sharedAvail = 0 then s
    else match s.partner.abort, s.partner.sync with
      | some a, _ => ((s.modPartner (fun x => { x with abort := none })).sendSync col (syncEntry 3 a.1 0 0 0 false a.2)).pumpSync col n
      | none, none =>
        if s.partner.rxSync.isSome && !s.straps.senior then s
        else (match s.partner.syncQ with
         | [] => s
         | p :: rest =>
           let id := s.partner.syncId + 1
           let s := s.modPartner (fun x => { x with sync := some { pair := p, id := id, next := 0 }, syncQ := rest, syncId := id })
           (s.sendSync col (syncEntry 0 p 0 0 0 false id)).pumpSync col n)
      | none, some y =>
        match (s.pairLink y.pair.toNat).bind (fun k => (s.nextSync k y.next).map (fun i => (k, i))) with
        | some (k, i) =>
          let v := s.syncState k i
          let s := s.modPartner (fun x => { x with sync := some { y with next := i + 1 } })
          (s.sendSync col (syncEntry 1 y.pair (BitVec.ofNat 12 i) (BitVec.ofNat 16 v.1) (BitVec.ofNat 5 v.2.1) v.2.2 y.id)).pumpSync col n
        | none =>
          let s := s.modPartner (fun x => { x with sync := none })
          (s.sendSync col (syncEntry 2 y.pair 0 0 0 false y.id)).pumpSync col n

/-- Notices and syncs go on as credits allow. -/
def State.pumpCol (s : State) : State :=
  match s.colLink with
  | none => s
  | some k =>
    if (s.linkAt k).state != 5 then s
    else
      let s := s.pumpNotices k s.partner.notices.length
      if s.partner.notices.isEmpty then s.pumpSync k 64 else s

/-- A sync of a pair asked for (spec/09 R246). -/
def State.startSync (s : State) (pair : Nat) : State :=
  let p := BitVec.ofNat 4 pair
  if s.partner.syncQ.contains p then s else (s.modPartner (fun x => { x with syncQ := x.syncQ ++ [p] })).pumpCol

end Sys2Proof.Machine
end

