-- ==== Sys2Proof/Machine/Store.lean ====
section
/-! DEFINITION. The pending store (spec/05 R123 to R131, R135; spec/06 R125, R168 to R170; spec/07 R181; spec/08 R195, R196): rank, holds, levels,
spill. -/

namespace Sys2Proof.Machine

/-- The rank of a requester of class 2: a doorbell stands above every requester ID (spec/05 R123 row 4, spec/08 R199). -/
def Origin.reqRank (o : Origin) : Nat := match o with | .handle h => h.req.toNat | .doorbell v => 65536 + v.toNat

/-- Rows 1 to 4 of spec/05 R123 as one number: priority, class, then the handle value, or for class 2 the requester. -/
def Inst.rankKey (x : Inst) : Nat :=
  let c := x.origin.cls
  (x.prio.toNat * 4 + c.toNat) * 2 ^ 40 +
    (if c == 2 then x.origin.reqRank else match x.origin with | .handle h => h.val.toNat | .doorbell _ => 0)

/-- Whether an instance ranks above another: rows 1 to 4, then the earlier place in the requester sequence or the older instance (spec/05 R123). -/
def rankAbove (a b : Nat × Inst) : Bool :=
  decide (b.2.rankKey < a.2.rankKey) || (a.2.rankKey == b.2.rankKey && decide (a.1 < b.1))

/-- Whether two instances wait in one frame: one ring, one tag (spec/08 R195). -/
def Inst.sameFrame (x y : Inst) : Bool := x.ring == y.ring && x.slot == y.slot

/-- An instance of a handle. -/
def Inst.isOf (x : Inst) (h : Handle) : Bool := x.origin == .handle h

/-- Every serial an instance holds. -/
def Inst.serials (x : Inst) : List (BitVec 32) := x.serial :: x.more

/-- The fences of a position: the record that started each walk, until that record is forwarded, refused or discarded (spec/05 R131). -/
def Pos.fences (q : Pos) : List Rec := q.walks.filterMap (fun w => w.queue.head?) ++ (q.waits.filter (fun w => w.fence)).map (fun w => w.item)

/-- Whether a fence holds the instances of a requester and ingress with an arrival count (spec/05 R131). -/
def Rec.fences (r : Rec) (q : BitVec 16) (input : Nat) (a : BitVec 40) : Bool :=
  (match r.origin with | .handle h => h.req == q | .doorbell _ => false) && r.input == input && arrHigher a r.arrival

/-- An instance under a walk fence (spec/05 R131). -/
def State.fenced (s : State) (x : Inst) : Bool :=
  match x.origin with
  | .doorbell _ => false
  | .handle h => h.cls == 2 && s.xl.pos.any (fun q => q.fences.any (fun r => r.fences h.req x.input x.arrival))

/-- An instance under a move hold: its handle is active on another pair, under another tag, or in the save area of a virtual target (spec/05 R135). -/
def State.moveHeld (s : State) (x : Inst) : Bool :=
  match x.origin with
  | .doorbell _ => false
  | .handle h =>
    s.pair.any (fun p => p.2.stack.any (fun a => a.inst.isOf h && (p.1 != 4 * x.target.toNat + x.ring.toNat || a.inst.slot != x.slot))) ||
    s.vt.any (fun v => v.2.savedAct.any (fun a => a.inst.isOf h))

/-- An instance held for its group, or behind an older gathering instance of its handle (spec/07 R181). -/
def State.groupHeld (s : State) (l : List (Nat × Inst)) (a : Nat × Inst) : Bool :=
  (a.2.group != 0 && (!a.2.due || (s.grpAt a.2.group.toNat).active)) ||
  l.any (fun b => decide (b.1 < a.1) && b.2.origin == a.2.origin && b.2.group != 0 && !b.2.due)

/-- An instance below its frame's spill top, or spilled itself (spec/06 R169, spec/08 R195). -/
def spillHeld (l : List (Nat × Inst)) (a : Nat × Inst) : Bool :=
  a.2.spilled || l.any (fun b => b.2.spilled && b.2.sameFrame a.2 && rankAbove b a)

/-- Whether an instance is held (spec/05 R125; spec/06 R169; spec/07 R181; spec/08 R202). -/
def State.held (s : State) (l : List (Nat × Inst)) (a : Nat × Inst) : Bool :=
  a.2.settle || s.fenced a.2 || s.moveHeld a.2 || s.groupHeld l a || spillHeld l a ||
  (match a.2.slot with | some c => (s.ctxAt c.toNat).refilling | none => false)

/-- A target's store with places. -/
def State.storeOf (s : State) (t : Nat) : List (Nat × Inst) := enumFrom 0 (s.tgtAt t).store

/-- The instances of a frame (spec/08 R195). -/
def inFrame (n : Nat) (tag : Option (BitVec 11)) (a : Nat × Inst) : Bool := a.2.ring.toNat == n && a.2.slot == tag

/-- The highest-ranked instance of a list. -/
def topRank (l : List (Nat × Inst)) : Option (Nat × Inst) := bestOf rankAbove l

/-- T of a frame: its highest-ranked instance that is not held (spec/05 R125, spec/08 R196). -/
def State.topOf (s : State) (t n : Nat) (tag : Option (BitVec 11)) : Option Inst :=
  let l := s.storeOf t
  (topRank (l.filter (fun a => inFrame n tag a && !s.held l a))).map (fun a => a.2)

/-- RUNPRIO.PRIO of a frame: the priority of the topmost entry with its tag (spec/05 R128, spec/08 R195). -/
def Pair.prioOf (p : Pair) (tag : Option (BitVec 11)) : BitVec 8 :=
  match p.stack.find? (fun a => a.inst.slot == tag) with | some a => a.inst.prio | none => 0

/-- The key of a frame: target · 4 + ring, or 2048 + slot. -/
def frameKey (t n : Nat) (tag : Option (BitVec 11)) : Nat := match tag with | none => 4 * t + n | some c => 2048 + c.toNat

/-- Why a frame offers nothing, or 0 when it offers its T (spec/05 R125, R128): the lowest number that applies. -/
def State.whyNot (s : State) (t n : Nat) (tag : Option (BitVec 11)) : Nat :=
  let l := s.storeOf t
  let p := s.pairAt (4 * t + n)
  if !(l.any (inFrame n tag)) then 1
  else match s.topOf t n tag with
    | none => if !(s.tgtAt t).present then 5 else if 16 ≤ p.stack.length then 6 else 7
    | some x =>
      if x.prio.toNat < 0x10 then 2
      else if x.prio.toNat ≤ (p.prioOf tag).toNat then 3
      else if x.prio.toNat ≤ (s.frameAt (frameKey t n tag)).threshold.toNat then 4
      else if !(s.tgtAt t).present then 5
      else if 16 ≤ p.stack.length then 6
      else 0

/-- The belay that serves a target: its own, or the partner that covers it (spec/06 R173, R174). -/
def State.servingBelay (s : State) (t : Nat) : Option Nat :=
  let b := t / 2
  let role := (s.belAt b).role
  if role == 0 || role == 1 then some b
  else if (s.belAt (b ^^^ 1)).role == 1 then some (b ^^^ 1)
  else none

/-- The entry level a pair drives now: that of the running slot's instances, or of the physical ones; 0 while no belay serves the target
(spec/05 R125, spec/08 R196, spec/13 R337). -/
def State.levelOf (s : State) (t n : Nat) : BitVec 4 :=
  let tag := (s.pairAt (4 * t + n)).running
  if (s.servingBelay t).isSome && s.whyNot t n tag = 0 then
    (match s.topOf t n tag with | some x => field x.prio 4 4 | none => 0)
  else 0

/-- A pair evaluated afresh (spec/05 R127): its level, and WITHHELD each time depth 16 begins to withhold it (spec/06 R155). -/
def State.evalPair (s : State) (t n : Nat) : State :=
  let full := (s.servingBelay t).isSome && s.whyNot t n (s.pairAt (4 * t + n)).running = 6
  s.updPair (4 * t + n) (fun p =>
    { p with
      level := s.levelOf t n, withheldNow := full, withheld := if full && !p.withheldNow then satInc p.withheld else p.withheld })

/-- The four pairs of a target. -/
def State.evalTarget (s : State) (t : Nat) : State := foldBelow 4 (fun n s => s.evalPair t n) s

/-- Every target whose levels can be other than 0 (spec/05 R127). -/
def State.evalAll (s : State) : State :=
  let ts := s.tgt.map (fun p => p.1)
  let ps := (s.pair.filter (fun p => p.2.level != 0 || p.2.withheldNow)).map (fun p => p.1 / 4)
  foldList (fun t s => s.evalTarget t) (ts ++ ps) s

/-- A target's store, changed. -/
def State.updStore (s : State) (t : Nat) (f : List Inst → List Inst) : State := s.updTgt t (fun x => { x with store := f x.store })

/-- The first place that satisfies a test, counting from `i`. -/
def placeFrom {α : Type} (p : α → Bool) : Nat → List α → Option Nat
  | _, [] => none
  | i, a :: as => if p a then some i else placeFrom p (i + 1) as

/-- The place after the last element that satisfies a test. -/
def afterLast {α : Type} (p : α → Bool) : Nat → List α → Nat
  | _, [] => 0
  | i, a :: as => max (if p a then i + 1 else 0) (afterLast p (i + 1) as)

/-- Whether one serial is the lower of two: those of one position modulo 2^30 (spec/04 R97), those of two positions as 32-bit numbers (DESIGN CHOICE,
assumption log 51). -/
def serialBelow (a b : BitVec 32) : Bool :=
  if field a 30 2 == field b 30 2 then (let d := (field b 0 30 - field a 0 30).toNat; decide (1 ≤ d) && decide (d < 2 ^ 29))
  else decide (a.toNat < b.toNat)

/-- Whether a new instance moves before an instance of its requester sequence (spec/05 R124 step 2), or a doorbell before one of the same virtual
target with a higher serial (spec/08 R199). -/
def Inst.before (x y : Inst) : Bool :=
  x.ring == y.ring &&
  (match x.origin, y.origin with
   | .handle h, .handle g => h.cls == 2 && g.cls == 2 && h.req == g.req && x.input == y.input && arrHigher y.arrival x.arrival
   | .doorbell v, .doorbell w => v == w && serialBelow x.serial y.serial
   | _, _ => false)

/-- An instance put into its place in the requester sequence (spec/05 R124). -/
def placeInst (x : Inst) (l : List Inst) : List Inst :=
  match placeFrom x.before 0 l with
  | none => l ++ [x]
  | some i =>
    let j := max i (afterLast (fun y => y.origin == x.origin && y.ring == x.ring) 0 l)
    let k := (match x.origin with | .handle _ => j | .doorbell _ => i)
    l.take k ++ x :: l.drop k

/-- An instance read back from its bivouac put into its place: before what landed for its handle meanwhile, behind those read back before it
(spec/08 R202, spec/05 R123 row 6, R124). -/
def placeRefill (x : Inst) (l : List Inst) : List Inst :=
  let x := { x with refilled := true }
  let newer (y : Inst) : Bool := y.origin == x.origin && y.ring == x.ring && y.slot == x.slot && !y.refilled
  let older (y : Inst) : Bool := y.origin == x.origin && y.ring == x.ring && y.slot == x.slot && y.refilled
  let i := match placeFrom x.before 0 l, placeFrom newer 0 l with
    | some i, some j => min i j
    | some i, none => i
    | none, some j => j
    | none, none => l.length
  let k := max i (afterLast older 0 l)
  l.take k ++ x :: l.drop k

/-- The instance of a serial, changed. -/
def State.updInst (s : State) (t : Nat) (serial : BitVec 32) (f : Inst → Inst) : State :=
  s.updStore t (fun l => l.map (fun x => if x.serial == serial then f x else x))

/-- An instance taken out of a store. -/
def State.dropInst (s : State) (t : Nat) (serial : BitVec 32) : State := s.updStore t (dropFirst (fun x => x.serial == serial))

/-- A group after its pending instance has gone (spec/07 R178, R180). -/
def State.groupNoPending (s : State) (g : Nat) : State :=
  if g = 0 then s
  else s.updGrp g (fun x =>
    { x with pending := false, spilled := false, due := false, bound := if x.active then x.bound else none })

/-- A pending instance removed and all its serials acknowledged. -/
def State.removeInst (s : State) (t : Nat) (x : Inst) : State :=
  ((s.dropInst t x.serial).groupNoPending x.group.toNat).ackAll x.serials

/-- The belay that counts for a target. -/
def State.countBelay (s : State) (t : Nat) (f : Belay → Belay) : State := s.updBel ((s.servingBelay t).getD (t / 2)) f

/-- Whether a spilled instance takes its source's reserve entry: a source of class 0, 1 or 3 that holds none (spec/06 R170). -/
def State.reserveFree (s : State) (x : Inst) : Bool :=
  x.origin.cls != 2 && !(s.tgt.any (fun t => t.2.store.any (fun y => y.spilled && !y.openEntry && y.origin == x.origin)))

/-- Open entries of the spill pool in use (spec/06 R170). -/
def State.openUsed (s : State) : Nat := s.tgt.foldl (fun n t => n + (t.2.store.filter (fun y => y.spilled && y.openEntry)).length) 0

/-- A victim goes to the spill pool, or is discarded where the open part is full (spec/06 R168, R170). -/
def State.spill (s : State) (t : Nat) (x : Inst) : State :=
  let res := s.reserveFree x
  if !res && decide (s.boot.spillOpen.toNat ≤ s.openUsed) then
    ((s.removeInst t x).countBelay t (fun b => { b with spillDrops := satInc b.spillDrops })).degrade (.belay (t / 2)) 10 (BitVec.ofNat 16 t) 1
  else
    let d := s.drawLine
    let s := d.2.updInst t x.serial (fun y => { y with spilled := true, openEntry := !res, line := d.1 })
    let s := if x.group != 0 then s.updGrp x.group.toNat (fun g => { g with spilled := true }) else s
    let s := (s.charge 2 1 (t / 2)).countBelay t (fun b => { b with spills := b.spills + 1 })
    s.memWrite (.spillWrite (BitVec.ofNat 9 t) x.serial) d.1 (x.spillData (x.level && x.origin.cls == 2))

/-- Whether one instance is the lower of two in the order of spec/06 R168: priority, then ring, then rank. -/
def lowerThan (a b : Nat × Inst) : Bool :=
  decide (a.2.prio.toNat < b.2.prio.toNat) || (a.2.prio == b.2.prio &&
    (decide (a.2.ring.toNat < b.2.ring.toNat) || (a.2.ring == b.2.ring && rankAbove b a)))

/-- An instance just put into the store is spilled directly below its frame's spill top; else the lowest of 513 goes (spec/06 R168, R169). -/
def State.settleStore (s : State) (t : Nat) (serial : BitVec 32) : State :=
  let l := s.storeOf t
  match l.find? (fun a => a.2.serial == serial && spillHeld l a) with
  | some a => s.spill t a.2
  | none =>
    let chip := l.filter (fun a => !a.2.spilled)
    if 512 < chip.length then
      (match bestOf lowerThan chip with
       | some v => s.spill t v.2
       | none => s)
    else s

/-- A place in the store for an instance that lands (spec/06 R168, R169). -/
def State.placeAt (s : State) (t : Nat) (x : Inst) : State := (s.updStore t (placeInst x)).settleStore t x.serial

/-- A bivouac entry put back on chip, or spilled where it does not fit (spec/08 R202, spec/06 R168, R169). -/
def State.placeBack (s : State) (t : Nat) (x : Inst) : State := (s.updStore t (placeRefill x)).settleStore t x.serial

/-- Whether a refill read of a target is on its way. -/
def State.refilling (s : State) (t : Nat) : Bool :=
  let mine (o : MemOwner) : Bool := match o with | .refill u _ => u.toNat == t | _ => false
  s.mem.has (fun r => mine r.owner) || s.mem.done.any (fun d => mine d.1)

/-- On-chip entries of a target in use (spec/06 R168). -/
def State.onChip (s : State) (t : Nat) : Nat := ((s.tgtAt t).store.filter (fun x => !x.spilled)).length

/-- A free on-chip entry has the spilled instance of the highest spill top read back (spec/06 R169); a line still retained is read from the
write-retain buffer (spec/12 R322). One refill read of a target is on its way at a time, and the highest of the four rings' spill tops is the highest in
the order of R168: priority, then ring, then rank (DESIGN CHOICE, assumption log 53). -/
def State.pumpRefill (s : State) (t : Nat) : State :=
  let l := s.storeOf t
  if decide (s.onChip t < 512) && !s.refilling t then
    (match bestOf (fun a b => lowerThan b a) (l.filter (fun a => a.2.spilled)) with
     | none => s
     | some a =>
       let s := s.charge 2 1 (t / 2)
       let w : MemOwner := .spillWrite (BitVec.ofNat 9 t) a.2.serial
       let o : MemOwner := .refill (BitVec.ofNat 9 t) a.2.serial
       s.readBack w o a.2.line)
  else s

end Sys2Proof.Machine
end

