-- ==== Sys2Proof/Machine/Insert.lean ====
section
/-! DEFINITION. What a belay does with a landing (spec/05 R130, R134, R136, R140; spec/06 R165; spec/07 R177 to R187; spec/08 R199, R201, R205,
R206). -/

namespace Sys2Proof.Machine

/-- The instance a record makes (spec/06 R153). A doorbell takes its pair's DOORBELL_CFG as it stands at landing (spec/08 R212). -/
def State.mkInst (s : State) (r : Routed) : Inst :=
  let cfg := s.pairAt (4 * r.target.toNat + r.ring.toNat)
  let bell := match r.record.origin with | .doorbell _ => true | .handle _ => false
  let cls := r.record.origin.cls
  { origin := r.record.origin, serial := r.serial, more := [], level := r.record.kind == .levelAssert,
    prio := if bell then cfg.dbPrio else r.route.prio, payload := if cls == 1 || cls == 2 then r.record.payload else 0,
    vector := if bell then field r.route.vector 22 2 ++ cfg.dbVector else r.route.vector, replayed := r.record.replayed,
    counted := decide (2 ≤ r.record.count.toNat), count := r.record.count, target := r.target, ring := r.ring, slot := r.slot,
    input := r.record.input, arrival := r.record.arrival, landed := s.clk.time, settle := cls == 2 && r.biv.isNone, group := 0, due := false,
    spilled := false, openEntry := false, line := 0, refilled := false, moving := false,
    promoted := r.record.input == 9, newPrio := none }

/-- Whether a record's kind may join a group (spec/07 R177); a promoted record with a COUNT never does (spec/09 R243). -/
def Routed.joinable (r : Routed) : Bool :=
  decide (r.record.count.toNat < 2) &&
  (match r.record.origin with
   | .doorbell _ => false
   | .handle h =>
     if h.cls == 0 then r.record.kind == .event || r.record.kind == .merge
     else if h.cls == 2 then r.record.kind == .event || r.record.kind == .eventPayload
     else h.cls == 3 && r.record.kind == .event)

/-- The weight of a joining record (spec/07 R179). -/
def Routed.weight (r : Routed) : Nat := if r.record.origin.cls == 0 then max 1 r.record.payload.toNat else 1

/-- Whether a record joins the group its route names (spec/07 R177, R178). -/
def State.joins (s : State) (r : Routed) : Bool :=
  let g := s.grpAt r.route.cgroup.toNat
  r.route.cgroup != 0 && g.limit != 0 && r.joinable &&
  (match g.bound, r.record.origin with
   | none, _ => true
   | some h, o => o == .handle h)

/-- Whether a record is kept out of a group that is bound to another handle (spec/07 R178). -/
def State.conflicts (s : State) (r : Routed) : Bool :=
  let g := s.grpAt r.route.cgroup.toNat
  r.route.cgroup != 0 && g.limit != 0 && r.joinable && g.bound.isSome && !s.joins r

/-- P of a group, with its target, where it waits in a pending store (spec/07 R180). -/
def State.pendingOfGroup (s : State) (g : Nat) : Option (Nat × Inst) :=
  s.tgt.findSome? (fun t => (t.2.store.find? (fun x => x.group.toNat == g && g != 0)).map (fun x => (t.1, x)))

/-- P of a group, with its virtual target, where it waits in a bivouac, which is DRAM like the spill pool (spec/08 R205). -/
def State.bivOfGroup (s : State) (g : Nat) : Option (Nat × Inst) :=
  s.vt.findSome? (fun v => (v.2.bivouac.find? (fun x => x.group.toNat == g && g != 0)).map (fun x => (v.1, x)))

/-- A P whose count has reached COUNT_LIMIT, or whose group is off, is due (spec/07 R176, R180). -/
def dueByCount (limit : BitVec 16) (count : BitVec 16) : Bool := limit == 0 || decide (limit.toNat ≤ count.toNat)

/-- DUE of a group and its P. -/
def State.setDue (s : State) (g t : Nat) (serial : BitVec 32) : State :=
  (s.updInst t serial (fun x => { x with due := true })).updGrp g (fun x => { x with due := true })

/-- A joining record merges into P (spec/07 R180, R185, R187); one with REPLAYED = 1 leaves P a possible duplicate (spec/01 R10). -/
def State.mergeInto (s : State) (r : Routed) : State :=
  let g := r.route.cgroup.toNat
  let w := r.weight
  let dup (y : Inst) : Inst := { y with replayed := y.replayed || r.record.replayed }
  let merged (s : State) (x : Inst) : State :=
    let s := s.updGrp g (fun y => { y with spillMerge := satAdd y.spillMerge w })
    s.ackMerge x.serial r.serial (satAdd x.count (s.grpAt g).spillMerge.toNat)
  match s.pendingOfGroup g with
  | some (t, x) =>
    if x.spilled then merged (s.updInst t x.serial dup) x
    else
      let count := satAdd x.count w
      let s := s.updInst t x.serial (fun y => { dup y with count := count, counted := true })
      let s := if dueByCount (s.grpAt g).limit count then s.setDue g t x.serial else s
      s.ackMerge x.serial r.serial count
  | none =>
    match s.bivOfGroup g with
    | some (v, x) => merged (s.updVt v (fun m => { m with bivouac := m.bivouac.map (fun y => if y.serial == x.serial then dup y else y) })) x
    | none => s.ack r.serial

/-- A joining record that finds no P opens one (spec/07 R180). -/
def State.openP (s : State) (r : Routed) (h : Handle) (x : Inst) : Inst × State :=
  let g := r.route.cgroup.toNat
  let count := BitVec.ofNat 16 (min r.weight 65535)
  let due := dueByCount (s.grpAt g).limit count
  let s := s.updGrp g (fun y => { y with pending := true, due := due, bound := some h, spilled := false, spillMerge := 0 })
  let s := s.updLog r.serial.toNat (fun e => if e.state == 0 || r.weight < 2 then e else { e with counted := true, payload := count })
  ({ x with group := r.route.cgroup, count := count, counted := true, due := due }, s)

/-- The lowest bivouac entry of an area that is not in use (spec/08 R205). -/
def Vt.freeEntry (m : Vt) : Nat := (firstBelow m.cap.toNat (fun i => !(m.bivouac.any (fun x => x.line == m.area + 16 + BitVec.ofNat 47 i)))).getD 0

/-- An instance written to a virtual target's bivouac, or discarded where the area is full, or, a landing, SUSPECT (spec/08 R205, R206). While it waits there a
group's P counts as spilled, as in the spill pool (DESIGN CHOICE, assumption log 54). -/
def State.bivouacPut (s : State) (v : BitVec 16) (x : Inst) (landing : Bool) : State :=
  let m := s.vtAt v.toNat
  let drop (s : State) : State := (s.updVt v.toNat (fun m => { m with drops := satInc m.drops })).groupNoPending x.group.toNat |>.ackAll x.serials
  if landing && m.suspect then drop s
  else if m.cap.toNat ≤ m.bivouac.length then
    (let s := drop s
     if m.dropTold then s else (s.updVt v.toNat (fun m => { m with dropTold := true })).degrade (.belay (s.writerOf v.toNat / 2)) 12 v 2)
  else
    let line := m.area + 16 + BitVec.ofNat 47 m.freeEntry
    let x := { x with settle := false, spilled := false, openEntry := false, refilled := false, line := line }
    let s := s.updVt v.toNat (fun m => { m with bivouac := m.bivouac ++ [x] })
    let s := if x.group != 0 then s.updGrp x.group.toNat (fun g => { g with spilled := true }) else s
    (s.charge 3 1 (s.writerOf v.toNat / 2)).memWrite (.bivWrite v x.serial) line (x.areaData v (x.level && x.origin.cls == 2))

/-- An instance joins its pair, its resident virtual target, or a bivouac: INSERTS counts it (spec/06 R173). -/
def State.settleIn (s : State) (r : Routed) (x : Inst) : State :=
  let s := s.countBelay r.target.toNat (fun b => { b with inserts := b.inserts + 1 })
  match r.biv with
  | some v => s.bivouacPut v x true
  | none => s.placeAt r.target.toNat x

/-- A new instance lands, grouped or not (spec/07 R177, R180). -/
def State.landNew (s : State) (r : Routed) : State :=
  let x := s.mkInst r
  let g := r.route.cgroup.toNat
  if s.joins r then
    (if (s.grpAt g).pending then s.mergeInto r
     else match r.record.origin with
       | .handle h => let o := s.openP r h x; o.2.settleIn r o.1
       | .doorbell _ => s.settleIn r x)
  else
    let s := if s.conflicts r then s.updGrp g (fun y => { y with conflicts := satInc y.conflicts }) else s
    s.settleIn r x

/-- The virtual target whose bivouac a record's pending instance may wait in: that of a landing for the bivouac, or of a slot whose refill runs
(spec/08 R202). -/
def State.bivHere (s : State) (r : Routed) : Option (BitVec 16) :=
  match r.biv, r.slot with
  | some v, _ => some v
  | none, some c => some (s.ctxAt c.toNat).vt
  | none, none => none

/-- The pending instance of a handle where a record for it lands, with the bivouac it waits in: the bivouac's, which is the older, or that of the
target's store. -/
def State.pendingHere (s : State) (r : Routed) (h : Handle) : Option (Inst × Option (BitVec 16)) :=
  let inBiv := (s.bivHere r).bind (fun v => ((s.vtAt v.toNat).bivouac.find? (fun x => x.isOf h)).map (fun x => (x, some v)))
  match inBiv, r.biv with
  | some x, _ => some x
  | none, some _ => none
  | none, none => ((s.tgtAt r.target.toNat).store.find? (fun x => x.isOf h)).map (fun x => (x, none))

/-- That instance changed. -/
def State.updHere (s : State) (r : Routed) (w : Inst × Option (BitVec 16)) (f : Inst → Inst) : State :=
  match w.2 with
  | some v => s.updVt v.toNat (fun m => { m with bivouac := m.bivouac.map (fun x => if x.serial == w.1.serial then f x else x) })
  | none => s.updInst r.target.toNat w.1.serial f

/-- That instance removed with its serials acknowledged. -/
def State.removeHere (s : State) (r : Routed) (w : Inst × Option (BitVec 16)) : State :=
  match w.2 with
  | some v =>
    ((s.updVt v.toNat (fun m => { m with bivouac := dropFirst (fun y => y.serial == w.1.serial) m.bivouac })).groupNoPending w.1.group.toNat).ackAll
      w.1.serials
  | none => s.removeInst r.target.toNat w.1

/-- The active entries of a handle, changed, at every pair and in every save area. -/
def State.updActive (s : State) (h : Handle) (f : Active → Active) : State :=
  let g (a : Active) : Active := if a.inst.isOf h then f a else a
  let s := foldList (fun k s => s.updPair k (fun p => { p with stack := p.stack.map g }))
    ((s.pair.filter (fun p => p.2.stack.any (fun a => a.inst.isOf h))).map (fun p => p.1)) s
  foldList (fun k s => s.updVt k (fun m => { m with savedAct := m.savedAct.map g }))
    ((s.vt.filter (fun m => m.2.savedAct.any (fun a => a.inst.isOf h))).map (fun m => m.1)) s

/-- The active entry of a handle. -/
def State.activeEntry (s : State) (h : Handle) : Option Active :=
  (s.activeOf h).head?

/-- LEVEL_ASSERT of class 2 or 3 lands (spec/06 R165). -/
def State.levelAssertLands (s : State) (r : Routed) (h : Handle) : State :=
  match s.pendingHere r h with
  | some x => s.updHere r x (fun y => { y with more := y.more ++ [r.serial], replayed := y.replayed || r.record.replayed })
  | none =>
    match s.activeEntry h with
    | none => s.landNew r
    | some a =>
      if h.cls == 2 then
        (let s := s.updActive h (fun a => { a with asserted := true, recorded := some r.serial })
         match a.recorded with | some old => s.ack old | none => s)
      else s.ack r.serial

/-- LEVEL_DEASSERT of class 2 or 3 lands (spec/06 R165). -/
def State.levelDeassertLands (s : State) (r : Routed) (h : Handle) : State :=
  match s.pendingHere r h with
  | some x => (s.removeHere r x).ack r.serial
  | none =>
    match s.activeEntry h with
    | none => s.ack r.serial
    | some a =>
      if h.cls == 2 then
        (let s := (s.updActive h (fun a => { a with asserted := false, recorded := none })).ack r.serial
         match a.recorded with | some old => s.ack old | none => s)
      else s.ack r.serial

/-- A withdraw lands (spec/02 R41). -/
def State.withdrawLands (s : State) (r : Routed) (h : Handle) : State :=
  match s.pendingHere r h with
  | some x => (s.removeHere r x).ack r.serial
  | none => s.ack r.serial

/-- A record lands at its belay: its entry becomes STATE 2 and the instance joins its pair (spec/13 R347). -/
def State.recordLands (s : State) (r : Routed) : State :=
  let s := s.landedLog r.serial
  match r.record.origin with
  | .doorbell _ => if (s.pairAt (4 * r.target.toNat + r.ring.toNat)).dbPrio == 0 then s.ack r.serial else s.landNew r
  | .handle h =>
    if r.record.kind == .withdraw then s.withdrawLands r h
    else if h.cls == 2 || h.cls == 3 then
      (if r.record.kind == .levelAssert then s.levelAssertLands r h
       else if r.record.kind == .levelDeassert then s.levelDeassertLands r h
       else s.landNew r)
    else s.landNew r

/-- A moved instance lands on its new pair: one whose serial the belay already holds is discarded; the settle window runs again (spec/05 R130, R134;
spec/13 R351). -/
def State.movedLands (s : State) (x : Inst) (biv : Option (BitVec 16)) : State :=
  if (s.tgtAt x.target.toNat).store.any (fun y => y.serial == x.serial) then s
  else
    let s := s.countBelay x.target.toNat (fun b => { b with inserts := b.inserts + 1 })
    match biv with
    | some v => s.bivouacPut v x true
    | none => s.placeAt x.target.toNat { x with settle := x.origin.cls == 2 }

end Sys2Proof.Machine
end

