-- ==== Sys2Proof/Machine/Belay.lean ====
section
/-! DEFINITION. The belay's notices, claims and completions as shared operations (spec/05 R134 to R136; spec/06 R153 to R167; spec/07 R180 to
R188; spec/08 R195). -/

namespace Sys2Proof.Machine

/-- What a change at a target lets happen: a refill where an entry is free, and the levels afresh (spec/05 R127, spec/06 R169). -/
def State.after (s : State) (t : Nat) : State := (s.pumpRefill t).evalAll

/-- Where a route leads now: target, ring, tag and bivouac; `none` for an undefined virtual target (spec/08 R192, R197). -/
def State.destOf (s : State) (r : Route) : Option (BitVec 9 × BitVec 2 × Option (BitVec 11) × Option (BitVec 16)) :=
  if !r.virt then some (r.target.setWidth 9, r.ring, none, none)
  else
    let m := s.vtAt r.target.toNat
    if !m.defined then none
    else if m.resident then some ((s.ctxAt m.slot.toNat).target, m.ring, some m.slot, none)
    else some (m.dbTarget, m.ring, none, some r.target)

/-- The route of a handle as it stands (spec/04 R90, R91). -/
def State.routeOf (s : State) (h : Handle) : Option Route :=
  if h.cls == 0 || h.cls == 1 then some (s.directRoute (handleSrc h))
  else if h.cls == 3 then
    (match (s.linkAt (h.req.toNat % 16)).cfg with
     | some c => (let e := s.pinnedAt (c.pinBase.toNat + h.evt.toNat); if e.valid then some e.route else none)
     | none => none)
  else
    let d := s.devEntry h.req
    let e := if d.pinned then s.pinnedAt (d.pinBase.toNat + h.evt.toNat) else s.evtEntry h.req h.evt
    if d.valid && e.valid then some e.route else none

/-- A moved instance is forwarded under the route as it stands, with that route's priority; where the route is gone or disabled its serials are
acknowledged (spec/05 R134, R136). -/
def State.forwardMoved (s : State) (h : Handle) (x : Inst) : State :=
  let s := s.charge 5 0 (s.posOf h)
  let dest := (s.routeOf h).bind (fun r => if r.prio == 0 then none else (s.destOf r).map (fun d => (r, d)))
  match dest with
  | none => (s.groupNoPending x.group.toNat).ackAll x.serials
  | some (r, d) =>
    s.toPlain (s.posOf h) (.moved { x with target := d.1, ring := d.2.1, slot := d.2.2.1, prio := r.prio, moving := false } d.2.2.2)

/-- A move ends once the old belay has given up its last instance of the handle; the waiting records are forwarded (spec/05 R134). -/
def State.finishMove (s : State) (h : Handle) : State :=
  let p := s.posOf h
  let left := s.tgt.any (fun t => t.2.store.any (fun x => x.isOf h && x.moving))
  if (s.posAt p).moves.any (fun m => m.handle == h && m.done) && !left then
    (s.updPos p (fun q => { q with moves := q.moves.filter (fun m => m.handle != h) })).releaseWaits p
  else s

/-- P of a group leaves DRAM: the weight merged while it was there is added, and the due rule applied (spec/07 R186, R187). -/
def State.refillGroup (s : State) (x : Inst) : Inst × State :=
  if x.group == 0 then (x, s)
  else
    let g := s.grpAt x.group.toNat
    let count := satAdd x.count g.spillMerge.toNat
    let due := x.due || dueByCount g.limit count || decide (x.landed.toNat + g.time.toNat + 1 ≤ s.clk.time.toNat)
    ({ x with count := count, due := due }, s.updGrp x.group.toNat (fun y => { y with spillMerge := 0, spilled := false, due := due }))

/-- A move notice at the old belay: the on-chip and bivouacked instances go back to the ridge, spilled ones when they are refilled, active
entries are marked (spec/05 R134, spec/06 R165). -/
def State.moveLands (s : State) (h : Handle) (t : Nat) : State :=
  let s := s.charge 5 1 (t / 2)
  let gone := (s.tgtAt t).store.filter (fun x => x.isOf h && !x.spilled)
  let s := s.updStore t (fun l => (l.filter (fun x => !(x.isOf h && !x.spilled))).map (fun x => if x.isOf h then { x with moving := true } else x))
  let biv := s.vt.foldr (fun (m : Nat × Vt) acc => if s.writerOf m.1 == t then m.2.bivouac.filter (fun x => x.isOf h) ++ acc else acc) []
  let s := foldList (fun k s => s.updVt k (fun m => { m with bivouac := m.bivouac.filter (fun x => !x.isOf h) }))
    ((s.vt.filter (fun m => s.writerOf m.1 == t && m.2.bivouac.any (fun x => x.isOf h))).map (fun m => m.1)) s
  let s := s.updActive h (fun a => { a with marked := true })
  let s := s.updPos (s.posOf h) (fun q => { q with moves := q.moves.map (fun m => if m.handle == h then { m with done := true } else m) })
  let s := foldList (fun x s => s.forwardMoved h x) gone s
  (foldList (fun x s => let g := State.refillGroup s x; g.2.forwardMoved h g.1) biv s).finishMove h

/-- A re-rank notice at the belay (spec/05 R136): on-chip instances at once, spilled and bivouacked ones at their refill; priority 0 removes. -/
def State.rerankLands (s : State) (h : Handle) (prio : BitVec 8) (t : Nat) : State :=
  let s := (s.charge 5 1 (t / 2)).updActive h (fun a => { a with marked := true })
  let vs := (s.vt.filter (fun m => m.2.bivouac.any (fun x => x.isOf h))).map (fun m => m.1)
  if prio == 0 then
    let s := foldList (fun (x : Inst) s => s.removeInst t x) ((s.tgtAt t).store.filter (fun x => x.isOf h)) s
    foldList (fun k s =>
      let gone := (s.vtAt k).bivouac.filter (fun x => x.isOf h)
      foldList (fun (x : Inst) s => (s.groupNoPending x.group.toNat).ackAll x.serials) gone
        (s.updVt k (fun m => { m with bivouac := m.bivouac.filter (fun x => !x.isOf h) }))) vs s
  else
    let f (x : Inst) : Inst := if x.isOf h then (if x.spilled then { x with newPrio := some prio } else { x with prio := prio }) else x
    let s := s.updStore t (fun l => l.map f)
    foldList (fun k s => s.updVt k (fun m =>
      { m with bivouac := m.bivouac.map (fun x => if x.isOf h then { x with newPrio := some prio } else x) })) vs s

/-- Whether a withdraw that a write caused is on its way, so that no later claim takes the instance (spec/02 R41). -/
def State.withdrawing (s : State) (h : Handle) : Bool :=
  (h.cls == 0 || h.cls == 1) &&
  (let n := handleSrc h
   let x := s.srcAt n
   let caused (r : Rec) : Bool := r.ofHandle h && r.kind == .withdraw && r.written
   (x.wdraw && x.byWrite) || (s.inqAt 11).any caused || s.inFlight caused)

/-- The instance a CLAIM of a frame takes (spec/05 R126, spec/06 R155, spec/08 R195). -/
def State.claimPick (s : State) (t n : Nat) (tag : Option (BitVec 11)) : Option Inst :=
  let l := s.storeOf t
  let p := s.pairAt (4 * t + n)
  if 16 ≤ p.stack.length then none
  else
    (topRank (l.filter (fun a => inFrame n tag a && !s.held l a && decide ((p.prioOf tag).toNat < a.2.prio.toNat) &&
      !(match a.2.origin with | .handle h => s.withdrawing h | .doorbell _ => false)))).map (fun a => a.2)

/-- A class 3 source as link and number. -/
def Handle.link (h : Handle) : Nat := h.req.toNat % 16

/-- Notices of a claim of a class 3 instance by the ACTIVE block of its pair (spec/09 R239). -/
def State.claimNoticed (s : State) (x : Inst) : Bool × State :=
  match x.origin with
  | .doorbell _ => (false, s)
  | .handle h =>
    match (if h.cls == 3 then (s.linkAt h.link).pairNo else none) with
    | none => (false, s)
    | some p =>
      if bitAt s.partner.active p then
        (true, s.notice p h.evt.toNat (claimNotice (BitVec.ofNat 4 p) (h.evt.setWidth 12) x.level (BitVec.ofNat 16 x.weight)))
      else (false, s)

/-- CLAIM_TIME of a claim (spec/06 R172). -/
def State.claimTimeOf (s : State) (x : Inst) : Word :=
  let w := s.clk.time.toNat - x.landed.toNat
  BitVec.ofNat 16 (min w 0xFFFF) ++ s.now48

/-- A claim takes an instance (spec/06 R154; spec/07 R180). -/
def State.take (s : State) (t n : Nat) (tag : Option (BitVec 11)) (x : Inst) : State :=
  let c := s.claimNoticed x
  let a : Active := { inst := x, word := x.word, asserted := x.level && x.origin.cls == 2, recorded := none, marked := false, notices := c.1 }
  let s := c.2.dropInst t x.serial
  let s := s.updPair (4 * t + n) (fun p => { p with stack := a :: p.stack })
  let s := if x.group != 0 then
      s.updGrp x.group.toNat (fun g => { g with pending := false, due := false, spilled := false, active := true })
    else s
  let s := match x.origin with
    | .handle h => if h.cls == 0 || h.cls == 1 then s.wiredClaim (handleSrc h) else s
    | .doorbell _ => s
  let s := s.updFrame (frameKey t n tag) (fun f => { f with shadow := field x.word 32 32, claimTime := s.claimTimeOf x })
  (s.countBelay t (fun b => { b with claims := b.claims + 1 })).after t

/-- A CLAIM of a frame (spec/06 R154, R155): the claim word, or 0. -/
def State.claimAt (s : State) (t n : Nat) (tag : Option (BitVec 11)) : Word × State :=
  match s.claimPick t n tag with
  | some x => (x.word, s.take t n tag x)
  | none =>
    let s := s.updFrame (frameKey t n tag) (fun f => { f with shadow := 0 })
    (0, if 16 ≤ (s.pairAt (4 * t + n)).stack.length then
          s.updPair (4 * t + n) (fun p => { p with claimRefused := satInc p.claimRefused })
        else s)

/-- The pair and tag of a frame; `none` for a free slot (spec/08 R211). -/
def State.frameOf (s : State) (f : FrameId) : Option (Nat × Nat × Option (BitVec 11)) :=
  match f with
  | .phys t n => some (t.val, n.val, none)
  | .slot c =>
    let x := s.ctxAt c.val
    if x.used then some (x.target.toNat, x.ring.toNat, some (BitVec.ofNat 11 c.val)) else none

/-- The entry whose CLASS, LINK and VECTOR a completion names (spec/06 R162, spec/08 R195). -/
def Active.matches (tag : Option (BitVec 11)) (w : Word) (a : Active) : Bool :=
  a.inst.slot == tag && field a.word 59 2 == field w 59 2 && field a.word 0 32 == field w 0 32

/-- A fresh logbook entry for a level instance that follows a completion (spec/06 R165). -/
def State.freshEntry (s : State) (h : Handle) (x : Inst) (landed : Bool) : BitVec 32 × State :=
  let p := s.posOf h
  let serial := s.serialOf p
  let e : LogEntry := { origin := .handle h, kind := .levelAssert, input := x.input, counted := false, payload := 0, state := if landed then 2 else 1,
                        replayed := false, arrival := x.arrival.setWidth 31, overflow := false, intact := true }
  (serial, ((s.updPos p (fun q => { q with serial := q.serial + 1 })).updRidge (s.ridgeOf p) (fun x => { x with forwarded := x.forwarded + 1 })).logWrite
    p serial e)

/-- A class 2 level instance completed with ASSERTED = 1 is followed by a new one (spec/06 R165). It carries the ingress and arrival count of the completed one,
lands now, and has no settle window, for it does not come from the Plain (DESIGN CHOICE, assumption log 53). -/
def State.reassert (s : State) (t : Nat) (a : Active) (h : Handle) : State :=
  let r := match a.recorded with | some q => (q, s) | none => s.freshEntry h a.inst (!a.marked)
  let x : Inst :=
    { a.inst with
      serial := r.1, more := [], replayed := false, landed := s.clk.time, settle := false, spilled := false, openEntry := false, refilled := false, moving := false,
      promoted := false, newPrio := none }
  if a.marked then r.2.forwardMoved h x else (r.2.countBelay t (fun b => { b with inserts := b.inserts + 1 })).placeAt t x

/-- The effects of completing an entry, after it has left its stack (spec/06 R163). -/
def State.completed (s : State) (t : Nat) (a : Active) : State :=
  let x := a.inst
  let s := (s.ackAll x.serials).countBelay t (fun b => { b with completes := b.completes + 1 })
  let s := if x.group != 0 then
      s.updGrp x.group.toNat (fun g => { g with active := false, bound := if g.pending then g.bound else none })
    else s
  match x.origin with
  | .doorbell _ => s
  | .handle h =>
    if h.cls == 0 || h.cls == 1 then s.wiredComplete (handleSrc h)
    else if h.cls == 3 then
      let s := s.sendEoi h.link (h.evt.setWidth 12)
      match (s.linkAt h.link).pairNo with
      | some p =>
        if a.notices || bitAt s.partner.active p then s.notice p h.evt.toNat (completeNotice (BitVec.ofNat 4 p) (h.evt.setWidth 12)) else s
      | none => s
    else if x.level then (if a.asserted then s.reassert t a h else s)
    else s

/-- The first entry that satisfies a test leaves its stack and is completed. -/
def State.completeFirst (s : State) (t n : Nat) (p : Active → Bool) : State :=
  match (s.pairAt (4 * t + n)).stack.find? p with
  | none => s
  | some a => (s.updPair (4 * t + n) (fun q => { q with stack := dropFirst p q.stack })).completed t a

/-- The cairn unit of a frame: its pair, or its virtual target (spec/13 R342). -/
def State.frameUnit (s : State) (t n : Nat) (tag : Option (BitVec 11)) : BitVec 8 × BitVec 16 :=
  match tag with
  | none => (11, BitVec.ofNat 16 (4 * t + n))
  | some c => (12, (s.ctxAt c.toNat).vt)

/-- A stray counted (spec/06 R164, R167). -/
def State.stray (s : State) (t n : Nat) (tag : Option (BitVec 11)) (w : Option Word) : State :=
  let k := frameKey t n tag
  let old := (s.frameAt k).strayCount
  let s := s.updFrame k (fun f => { f with strayCount := satInc f.strayCount, strayLast := w.getD f.strayLast })
  let f := s.frameAt k
  if f.strayLimit != 0 && old != f.strayCount && f.strayCount == f.strayLimit.setWidth 32 then
    (let u := s.frameUnit t n tag
     s.report (.belay (t / 2)) 0x11 u.1 u.2 1 f.strayCount)
  else s

/-- A COMPLETE of a frame (spec/06 R162 to R164). -/
def State.completeAt (s : State) (t n : Nat) (tag : Option (BitVec 11)) (w : Word) : State :=
  if (s.pairAt (4 * t + n)).stack.any (Active.matches tag w) then (s.completeFirst t n (Active.matches tag w)).after t
  else s.stray t n tag (some w)

/-- Every entry of a frame's stack completed, from the top down. -/
def State.unwindAll (s : State) (t n : Nat) (tag : Option (BitVec 11)) : Nat → State
  | 0 => s
  | k + 1 => (s.completeFirst t n (fun a => a.inst.slot == tag)).unwindAll t n tag k

/-- UNWIND of a frame (spec/06 R167, spec/08 R211). -/
def State.unwindAt (s : State) (t n : Nat) (tag : Option (BitVec 11)) : State :=
  let allowed := match tag with
    | none => !(s.tgtAt t).present
    | some c => (s.pairAt (4 * t + n)).running != some c
  if allowed then (s.unwindAll t n tag (s.pairAt (4 * t + n)).stack.length).after t else s.stray t n tag none

/-- OLDEST of a frame: the age of its oldest counted instance (spec/05 R143). -/
def State.oldestOf (s : State) (t n : Nat) (tag : Option (BitVec 11)) : Nat :=
  let polled := (s.frameAt (frameKey t n tag)).polled
  let l := (s.tgtAt t).store.filter (fun x => x.ring.toNat == n && x.slot == tag && (polled || decide (0x10 ≤ x.prio.toNat)))
  min (l.foldl (fun m x => max m (s.clk.time.toNat - x.landed.toNat)) 0) 0xFFFFFFFF

/-- The starvation monitor looks at one frame (spec/05 R144). -/
def State.starveFrame (s : State) (t n : Nat) (tag : Option (BitVec 11)) : State :=
  let k := frameKey t n tag
  let f := s.frameAt k
  if f.limit != 0 && decide (f.limit.toNat < s.oldestOf t n tag) && !f.flag then
    (let u := s.frameUnit t n tag
     (s.updFrame k (fun f => { f with flag := true })).report (.belay (t / 2)) 0x12 u.1 u.2 1 0)
  else s

end Sys2Proof.Machine
end

