-- ==== Sys2Proof/Machine/ConfigCmd.lean ====
section
/-! DEFINITION. Source configuration (spec/02 R35 to R37, R50; spec/05 R133 to R137; spec/13 R349). -/

namespace Sys2Proof.Machine

/-- Word 0 of a shared source (spec/02 R35). -/
def Source.word0 (x : Source) : Word :=
  putBit 60 x.virt ||| put 58 x.ring ||| put 56 x.trigger ||| put 48 x.prio ||| put 32 x.cgroup ||| put 16 x.target ||| putBit 8 x.polarity

/-- Word 0 written. -/
def Source.setWord0 (w : Word) (x : Source) : Source :=
  { x with
    virt := bitAt w 60, ring := field w 58 2, trigger := field w 56 2, prio := field w 48 8, cgroup := field w 32 16, target := field w 16 16,
    polarity := bitAt w 8, cfgBad := false }

/-- Word 1 of a shared source (spec/02 R35). -/
def Source.word1 (x : Source) : Word := put 48 x.stormWindow ||| put 32 x.stormLimit ||| put 16 x.merged

/-- Word 1 written: any write clears MERGED (spec/02 R35). -/
def Source.setWord1 (w : Word) (x : Source) : Source :=
  { x with stormWindow := field w 48 16, stormLimit := field w 32 16, merged := 0, cfgBad := false }

/-- A private bank's word gathered from its sources: `width` bits at `width`·j for source `k0` + j. -/
def State.gather (s : State) (t k0 n width : Nat) (f : Source → Nat → Word) : Word :=
  foldBelow n (fun j w => w ||| ((f (s.srcAt (8192 + 64 * t + k0 + j)) (k0 + j)) <<< (width * j))) 0

/-- TRIGGER of private source `k` as PRIV_TRIG shows it: an SGI reads 0b01 (spec/02 R50). -/
def trigOf (x : Source) (k : Nat) : BitVec 2 := if k < 16 then 1 else x.trigger

/-- A configuration word as it reads (spec/02 R35, R50). -/
def State.cfgWord (s : State) (r : CfgReg) : Word :=
  match r with
  | .word0 n => (s.srcAt n.val).word0
  | .word1 n => (s.srcAt n.val).word1
  | .privPrio t i => s.gather t.val (8 * i.val) 8 8 (fun x k => if k < 48 then x.prio.setWidth 64 else 0)
  | .privTrigLo t => s.gather t.val 0 32 2 (fun x k => (trigOf x k).setWidth 64)
  | .privTrigHi t => s.gather t.val 32 16 2 (fun x _ => x.trigger.setWidth 64)
  | .privPol t => s.gather t.val 0 64 1 (fun x k => if 16 ≤ k ∧ k < 48 then (bit x.polarity).setWidth 64 else 0)
  | .privRingLo t => s.gather t.val 0 32 2 (fun x _ => x.ring.setWidth 64)
  | .privRingHi t => s.gather t.val 32 16 2 (fun x _ => x.ring.setWidth 64)

/-- The sources a configuration word holds, each with what a new word makes of it (spec/02 R35, R50). -/
def cfgTargets (r : CfgReg) (w : Word) : List (Nat × (Source → Source)) :=
  match r with
  | .word0 n => [(n.val, Source.setWord0 w)]
  | .word1 n => [(n.val, Source.setWord1 w)]
  | .privPrio t i => ((List.range 8).filter (fun j => decide (8 * i.val + j < 48))).map (fun j =>
      (8192 + 64 * t.val + 8 * i.val + j, fun x => { x with prio := field w (8 * j) 8 }))
  | .privTrigLo t => ((List.range 16).map (fun j => j + 16)).map (fun k =>
      (8192 + 64 * t.val + k, fun x => { x with trigger := field w (2 * k) 2 }))
  | .privTrigHi t => (List.range 16).map (fun j => (8192 + 64 * t.val + 32 + j, fun x => { x with trigger := field w (2 * j) 2 }))
  | .privPol t => ((List.range 32).map (fun j => j + 16)).map (fun k => (8192 + 64 * t.val + k, fun x => { x with polarity := bitAt w k }))
  | .privRingLo t => (List.range 32).map (fun k => (8192 + 64 * t.val + k, fun x => { x with ring := field w (2 * k) 2 }))
  | .privRingHi t => (List.range 16).map (fun j => (8192 + 64 * t.val + 32 + j, fun x => { x with ring := field w (2 * j) 2 }))

/-- The line sampled again after a change of TRIGGER or POLARITY (spec/02 R37). -/
def State.resample (s : State) (n : Nat) : State :=
  if !s.wired.live then s
  else
    let s := s.updSrc n (fun x => { x with ref := x.line })
    let x := s.srcAt n
    if x.isEdge n then s
    else if x.act then s.updSrc n (fun x => { x with pend := false, weight := 0 })
    else s.levelLine n

/-- Whether any instance or record of a handle is under way, so that a notice has something to find. -/
def State.liveHandle (s : State) (h : Handle) : Bool := s.log.any (fun e => e.2.origin == .handle h)

/-- A move begins: the handle is marked moving and its notice crosses to the old belay (spec/05 R134). -/
def State.startMove (s : State) (h : Handle) (t : BitVec 9) : State :=
  let p := s.posOf h
  let s := s.updPos p (fun q => { q with moves := q.moves ++ [{ handle := h, target := t, done := false }] })
  (s.charge 5 0 p).toPlain p (.moveNotice h t)

/-- What a change of route does to records already forwarded: a move, a re-rank, or nothing (spec/05 R134, R136, R137). `t` is the old target. -/
def State.routeChanged (s : State) (h : Handle) (t : Option (BitVec 9)) (old new : Route) : State :=
  match t with
  | none => s
  | some t =>
    if !s.liveHandle h then s
    else if old.target != new.target || old.virt != new.virt || old.ring != new.ring then s.startMove h t
    else if old.prio != new.prio then (s.charge 5 0 (s.posOf h)).toPlain (s.posOf h) (.rerank h new.prio t)
    else s

/-- One source's configuration changed (spec/02 R36, R37, R39). -/
def State.reconfigure (s : State) (n : Nat) (f : Source → Source) : State :=
  let old := s.directRoute n
  let t := (s.destOf old).map (fun d => d.1)
  let x := s.srcAt n
  let s := s.updSrc n (fun x => (f x).drop true)
  let y := s.srcAt n
  let s := if x.trigger != y.trigger || x.polarity != y.polarity then s.resample n else s
  s.routeChanged (srcHandle n) t old (s.directRoute n)

/-- A configuration word written through an access. -/
def State.cfgApply (s : State) (r : CfgReg) (acc : Acc) (data : Word) : State :=
  foldList (fun (p : Nat × (Source → Source)) s => s.reconfigure p.1 p.2) (cfgTargets r (merge acc (s.cfgWord r) data)) s

/-- Whether a position has logged, or was handed by a REKEY (spec/01 R19), a record that is not yet in STATE 2, or is without a ridge (spec/13 R349). -/
def State.posBusy (s : State) (p : Nat) : Bool :=
  s.log.any (fun e => e.2.state == 1 && e.1 / 2 ^ 30 == p) || (s.posAt p).unserved.isSome ||
    (s.posAt p).items.any (fun i => !i.notice)

/-- Whether a configuration write changes the route of a source whose position is busy (spec/13 R349). -/
def State.cfgMustWait (s : State) (r : CfgReg) (acc : Acc) (data : Word) : Bool :=
  (cfgTargets r (merge acc (s.cfgWord r) data)).any (fun p =>
    s.posBusy (s.posOf (srcHandle p.1)) &&
    s.directRoute p.1 != (s.updSrc p.1 p.2).directRoute p.1)

/-- The waiting writes that may apply do so, in order (spec/13 R349). -/
def State.drainWaiting (s : State) : Nat → State
  | 0 => s
  | n + 1 =>
    match s.wired.waiting with
    | [] => s
    | w :: rest =>
      if s.cfgMustWait w.reg w.acc w.data then s
      else (((s.modWired (fun x => { x with waiting := rest })).cfgApply w.reg w.acc w.data).settleWrite w.wid).drainWaiting n

/-- A configuration write: applied at once, or once its positions are quiet and no earlier one waits (spec/02 R36, spec/13 R349). -/
def State.cfgWrite (s : State) (r : CfgReg) (acc : Acc) (data : Word) (wid : Option Nat) : State :=
  if !s.wired.waiting.isEmpty || s.cfgMustWait r acc data then
    s.modWired (fun x => { x with waiting := x.waiting ++ [{ reg := r, acc := acc, data := data, wid := wid }] })
  else (s.cfgApply r acc data).settleWrite wid

/-- Everything that a STATE 2 entry lets go on: the writes that waited (spec/13 R349). -/
def State.quiet (s : State) : State := s.drainWaiting s.wired.waiting.length

/-- SOURCE_CONFIG_WRITE (spec/02 R36). -/
def execSourceConfigWrite (r : CfgReg) (acc : Acc) (data : Word) (s : State) : Host.Outcome State Fault Refusal :=
  ok (if s.running then (s.cfgWrite r acc data none).evalAll else s)

end Sys2Proof.Machine
end

