-- ==== Sys2Proof/Machine/Park.lean ====
section
/-! DEFINITION. Leaving PARK (spec/15 R396). -/

namespace Sys2Proof.Machine

/-- The block returns from PARK to ON: each wake latch becomes an occurrence, level lines and target levels are seen afresh, the Pass ports may
rise (spec/15 R396). -/
def State.unpark (s : State) : State :=
  if s.pwr.state != 3 then s
  else
    let latched := s.pwr.latches
    let s := s.modPwr (fun p => { p with state := 0, latches := [], lastExit := s.now32 })
    let s := foldList (fun n s => if (s.srcAt n).isEdge n then s.occur n 0 else s) latched s
    let s := foldList (fun (p : Nat × Source) s => if (s.srcAt p.1).isEdge p.1 || isReserved p.1 then s else s.levelLine p.1) s.wired.src s
    (foldBelow 8 (fun n s => s.passRise n) s).evalAll

end Sys2Proof.Machine
end

