-- ==== Sys2Proof/Machine/BelayCmd.lean ====
section
/-! DEFINITION. The commands of the belays and target frames (spec/05, spec/06, spec/07, spec/08). -/

namespace Sys2Proof.Machine

/-- WALK_COMPLETE: a walk read returns, and the levels follow (spec/04 R103, spec/05 R127). -/
def execWalkComplete (pos : Fin 4) (req : BitVec 16) (evt : BitVec 20) (s : State) : Host.Outcome State Fault Refusal :=
  ok (if s.walkOpen pos.val then (s.walkStep pos.val { cls := 2, req := req, evt := evt }).evalAll else s)

/-- The oldest landed item of a belay that serves or is covered. -/
def State.landingHead (s : State) (b : Nat) : Option PItem :=
  if s.running && (s.servingBelay (2 * b)).isSome then (s.belAt b).landing.head?.map (fun l => l.item) else none

/-- The landing entry is free and its credit returned (spec/05 R140). -/
def State.takeLanding (s : State) (b : Nat) : State := s.updBel b (fun x => { x with landing := x.landing.drop 1 })

/-- Whether an item is a withdraw record (spec/02 R41). -/
def PItem.isWithdraw (i : PItem) : Bool := match i with | .record r => r.record.kind == .withdraw | _ => false

/-- BELAY_INSERT: the oldest landed record or moved instance is inserted (spec/05 R140). -/
def execBelayInsert (b : Fin 256) (s : State) : Host.Outcome State Fault Refusal :=
  ok (match s.landingHead b.val with
      | some (.record r) => if r.record.kind == .withdraw then s else ((s.takeLanding b.val).recordLands r).quiet.after r.target.toNat
      | some (.moved x v) => ((s.takeLanding b.val).movedLands x v).quiet.after x.target.toNat
      | _ => s)

/-- WITHDRAW_AT_BELAY: the oldest landed item is a withdraw (spec/02 R41). -/
def execWithdrawAtBelay (b : Fin 256) (s : State) : Host.Outcome State Fault Refusal :=
  ok (match s.landingHead b.val with
      | some (.record r) => if r.record.kind == .withdraw then ((s.takeLanding b.val).recordLands r).quiet.after r.target.toNat else s
      | _ => s)

/-- MOVE_NOTICE: the oldest landed item is a move notice (spec/05 R134). -/
def execMoveNotice (b : Fin 256) (s : State) : Host.Outcome State Fault Refusal :=
  ok (match s.landingHead b.val with
      | some (.moveNotice h t) => ((s.takeLanding b.val).moveLands h t.toNat).after t.toNat
      | _ => s)

/-- RERANK_NOTICE: the oldest landed item is a re-rank notice (spec/05 R136). -/
def execRerankNotice (b : Fin 256) (s : State) : Host.Outcome State Fault Refusal :=
  ok (match s.landingHead b.val with
      | some (.rerank h p t) => ((s.takeLanding b.val).rerankLands h p t.toNat).after t.toNat
      | _ => s)

/-- The target whose store holds an instance in its settle window. -/
def State.settling (s : State) (serial : BitVec 32) : Option Nat :=
  (s.tgt.find? (fun t => t.2.store.any (fun x => x.serial == serial && x.settle))).map (fun t => t.1)

/-- SETTLE_WINDOW_EXPIRY: the settle window of an instance ends (spec/05 R130). -/
def execSettleWindowExpiry (serial : BitVec 32) (s : State) : Host.Outcome State Fault Refusal :=
  ok (if !s.running then s
      else match s.settling serial with
        | none => s
        | some t => (s.updInst t serial (fun x => { x with settle := false })).evalAll)

/-- The instance a refill puts back on chip: a priority changed meanwhile, a REPLAYED bit after a double failure (spec/06 R169, spec/13 R356). -/
def Inst.backOnChip (x : Inst) (failed : Bool) : Inst :=
  { x with spilled := false, openEntry := false, settle := false, prio := x.newPrio.getD x.prio, newPrio := none, replayed := x.replayed || failed }

/-- A refill read that failed twice: MEM_READ_ERR and REBUILT (spec/13 R356). -/
def State.rebuilt (s : State) (t : Nat) (line : BitVec 47) : State :=
  let s := s.report (.other (0x60000 + t / 32)) 0x09 14 (BitVec.ofNat 16 (t / 32)) 2 (field line 7 32)
  s.degrade (.belay (t / 2)) 10 (BitVec.ofNat 16 t) 10

/-- A spilled instance comes back (spec/06 R169): to its place, or to its ridge where its handle moves (spec/05 R134); its entry is zeroed (spec/06 R171).
Where a landing has taken the last free entry meanwhile it stays in the pool. -/
def State.refillSpilled (s : State) (t : Nat) (serial : BitVec 32) (failed : Bool) : State :=
  match (s.tgtAt t).store.find? (fun x => x.serial == serial && x.spilled) with
  | none => s
  | some x =>
    if 512 ≤ s.onChip t && !x.moving then s
    else
      let g := s.refillGroup (x.backOnChip failed)
      let s := (g.2.countBelay t (fun b => { b with refills := b.refills + 1 })).unretain (.spillWrite (BitVec.ofNat 9 t) serial)
      let s := if failed then s.rebuilt t x.line else s
      let s := s.memWrite (.zero 2 (t / 2)) x.line 0
      match x.origin, x.moving with
      | .handle h, true => ((s.dropInst t serial).forwardMoved h g.1).finishMove h
      | _, _ => s.updInst t serial (fun _ => g.1)

/-- The oldest bivouac entry of a slot comes back (spec/08 R202); its entry is zeroed (spec/08 R209). -/
def State.refillBivouac (s : State) (c : Nat) (serial : BitVec 32) (failed : Bool) : State :=
  let x := s.ctxAt c
  let v := x.vt.toNat
  match (s.vtAt v).bivouac.find? (fun y => y.serial == serial) with
  | none => s
  | some y =>
    let g := s.refillGroup ({ y with target := x.target, ring := x.ring, slot := some (BitVec.ofNat 11 c) }.backOnChip failed)
    let t := x.target.toNat
    let s := (g.2.countBelay t (fun b => { b with refills := b.refills + 1 })).updVt v (fun m => { m with bivouac := dropFirst (fun z => z.serial == serial) m.bivouac })
    let s := s.unretain (.bivWrite x.vt serial)
    let s := if failed then s.rebuilt t y.line else s
    (s.memWrite (.zero 3 (t / 2)) y.line 0).placeBack t g.1

/-- Whether a delivered read is the next to be used: a spill refill's, or that of the oldest bivouac entry of its slot, for the entries are inserted in
the order in which they were written (spec/08 R202). -/
def State.nextRefill (s : State) (t : Nat) (o : MemOwner) : Bool :=
  match o with
  | .refill u _ => u.toNat == t
  | .bivouac c serial =>
    (s.ctxAt c.toNat).target.toNat == t && ((s.vtAt (s.ctxAt c.toNat).vt.toNat).bivouac.head?.map (fun x => x.serial)) == some serial
  | _ => false

/-- The refill result that a target uses next. -/
def State.refillResult (s : State) (t : Nat) : Option MemOwner := (s.mem.done.find? (fun d => s.nextRefill t d.1)).map (fun d => d.1)

/-- REFILL_COMPLETE: a spill or bivouac refill read returns (spec/06 R169, spec/08 R202). -/
def execRefillComplete (t : Fin 512) (s : State) : Host.Outcome State Fault Refusal :=
  ok (if !(s.running && (s.servingBelay t.val).isSome) then s
      else match s.refillResult t.val with
        | none => s
        | some o =>
          let r := s.takeRead o
          let failed := match r.1 with | some (some _) => true | _ => false
          match o with
          | .refill _ serial => (r.2.refillSpilled t.val serial failed).after t.val
          | .bivouac c serial => ((r.2.charge 3 1 (t.val / 2)).refillBivouac c.toNat serial failed).after t.val
          | _ => s)

/-- BIVOUAC_REFILL_DONE: the last bivouac entry of a slot has been read and its holds lift (spec/08 R202). -/
def execBivouacRefillDone (c : Fin 2048) (s : State) : Host.Outcome State Fault Refusal :=
  ok (let x := s.ctxAt c.val
      if s.running && x.used && x.refilling && (s.vtAt x.vt.toNat).bivouac.isEmpty then
        (s.updCtx c.val (fun x => { x with refilling := false })).evalAll
      else s)

/-- GROUP_DEADLINE: a gathering P on chip whose TIME + 1 ticks have passed becomes due (spec/07 R180). -/
def execGroupDeadline (g : BitVec 16) (s : State) : Host.Outcome State Fault Refusal :=
  ok (if !s.running then s
      else match s.pendingOfGroup g.toNat with
        | none => s
        | some (t, x) =>
          if !x.spilled && !x.due && decide (x.landed.toNat + (s.grpAt g.toNat).time.toNat + 1 ≤ s.clk.time.toNat) then
            (s.setDue g.toNat t x.serial).evalAll
          else s)

/-- The frames of a waiting configuration write: its shared frame, or the four of its target (spec/02 R35, R50). -/
def cfgInFrame (r : CfgReg) (f : Nat) : Bool :=
  let bank (t : Nat) : Bool := decide (4096 + 4 * t ≤ f) && decide (f < 4096 + 4 * t + 4)
  match r with
  | .word0 n => f == 256 + n.val / 256
  | .word1 n => f == 256 + n.val / 256
  | .privPrio t _ => bank t.val
  | .privTrigLo t => bank t.val
  | .privTrigHi t => bank t.val
  | .privPol t => bank t.val
  | .privRingLo t => bank t.val
  | .privRingHi t => bank t.val

/-- Whether a write numbered below `n` to the read's frame, or to any frame of a target that is claimed or peeked, has not been applied (spec/16 R421, spec/06
R158). -/
def State.waitsFor (s : State) (f o n : Nat) : Bool :=
  let wide := 4096 ≤ f && f < 6144 && (o = 0x000 || o = 0x028)
  s.wired.waiting.any (fun w => cfgInFrame w.reg f) ||
    s.cp.wbuf.any (fun w => decide (w.wid < n) && w.left ≠ 0 && (w.frame == f || (wide && 4096 ≤ w.frame && w.frame / 4 == f / 4)))

/-- Whether a read of now must wait for an earlier write (spec/16 R421, spec/06 R158). -/
def State.readWaits (s : State) (f o : Nat) : Bool := s.waitsFor f o s.cp.nextWid

/-- The number of a frame in the register window (spec/16 R414). -/
def frameNumber (f : FrameId) : Nat := match f with | .phys t n => 4096 + 4 * t.val + n.val | .slot c => 8192 + c.val

/-- A CLAIM through a frame: its word and what it leaves; a free slot's frame claims nothing, and a target without a serving belay holds the access
(spec/06 R154, spec/08 R211, spec/13 R337). -/
def State.claimFrame (s : State) (f : FrameId) : Option (Word × State) :=
  match s.frameOf f with
  | none => some (0, s)
  | some (t, n, tag) => if (s.servingBelay t).isSome then some (s.claimAt t n tag) else none

/-- CLAIM: the read's word is the response (spec/06 R154, R157); it waits for the writes before it to its target's frames (R158). -/
def execClaim (f : FrameId) (wide : Bool) (s : State) : Host.Outcome State Fault Refusal :=
  ok (if !s.running || s.readWaits (frameNumber f) 0 then s
      else match s.claimFrame f with
        | none => s
        | some (w, s) => s.respond false 0 0 (if wide then w else w &&& 0xFFFFFFFF))

/-- A COMPLETE write of a frame, 8-byte or the low half with the stage (spec/06 R161). -/
def State.completeWrite (s : State) (f : FrameId) (wide : Bool) (data : Word) : State :=
  match s.frameOf f with
  | none => s
  | some (t, n, tag) =>
    if (s.servingBelay t).isNone then s
    else
      let stage := (s.frameAt (frameKey t n tag)).stage
      s.completeAt t n tag (if wide then data else stage ++ field data 0 32)

/-- COMPLETE (spec/06 R161 to R163). -/
def execComplete (f : FrameId) (wide : Bool) (data : Word) (s : State) : Host.Outcome State Fault Refusal :=
  ok (if s.running then s.completeWrite f wide data else s)

/-- An UNWIND write of a frame: bit 0 unwinds (spec/06 R167). A write with bit 0 = 0 does nothing, and counts no stray while TGT_PRESENT is high (DESIGN
CHOICE, assumption log 53). -/
def State.unwindWrite (s : State) (f : FrameId) (data : Word) : State :=
  match s.frameOf f with
  | none => s
  | some (t, n, tag) => if (s.servingBelay t).isSome && bitAt data 0 then s.unwindAt t n tag else s

/-- UNWIND (spec/06 R167). -/
def execUnwind (f : FrameId) (data : Word) (s : State) : Host.Outcome State Fault Refusal :=
  ok (if s.running then s.unwindWrite f data else s)

/-- TGT_PRESENT_CHANGE: the pin's level, and the levels follow (spec/06 R149); a change wakes a parked block (spec/15 R396). -/
def execTgtPresentChange (t : Fin 512) (level : Bool) (s : State) : Host.Outcome State Fault Refusal :=
  ok (let old := (s.tgtAt t.val).present
      let s := if old == level then s else s.unpark
      let s := s.updTgt t.val (fun x =>
        { x with present := level, absSince := if old && !level then s.clk.ticks else x.absSince, absTold := x.absTold && !level })
      if s.running then s.evalAll else s)

/-- TARGET_ABSENT_TIMEOUT: 10,000 ticks of absence with an instance pending, reported once (spec/06 R150). -/
def execTargetAbsentTimeout (t : Fin 512) (s : State) : Host.Outcome State Fault Refusal :=
  ok (let x := s.tgtAt t.val
      if s.running && (s.servingBelay t.val).isSome && !x.present && !x.absTold && !x.store.isEmpty &&
          decide (x.absSince + 10000 ≤ s.clk.ticks) then
        (s.updTgt t.val (fun x => { x with absTold := true })).report (.belay (t.val / 2)) 0x12 10 (BitVec.ofNat 16 t.val) 1 1
      else s)

/-- TGT_ESC: a counted pulse (spec/06 R151), which wakes a parked block (spec/15 R396). -/
def execTgtEsc (t : Fin 512) (s : State) : Host.Outcome State Fault Refusal :=
  ok (if s.linksAlive then
        s.unpark.updTgt t.val (fun x => { x with esc := true, escCount := satInc x.escCount, escTime := s.now48 })
      else s)

end Sys2Proof.Machine
end

