-- ==== Sys2Proof/Machine/Mailbox.lean ====
section
/-! DEFINITION. Mailboxes (spec/11 R283 to R289, R448): posting, taking, answering. -/

namespace Sys2Proof.Machine

/-- Slot `i` of mailbox `m`. -/
def State.slotAt (s : State) (m i : Nat) : Slot := Tbl.get Slot.reset (s.mbxAt m).slots i

/-- Slot `i` of mailbox `m`, changed. -/
def State.updSlot (s : State) (m i : Nat) (f : Slot → Slot) : State :=
  s.updMbx m (fun x => { x with slots := Tbl.upd Slot.reset x.slots i f })

/-- A free slot (spec/11 R283). -/
def Slot.free (x : Slot) : Bool := !x.posted && !x.running && !x.done

/-- A POST write (spec/11 R286): ignored, and counted, where the slot is not free or the mailbox not open. -/
def State.postSlot (s : State) (m i : Nat) : State :=
  if (s.mbxAt m).isOpen && (s.slotAt m i).free then
    (s.updSlot m i (fun x => { x with posted := true })).updMbx m (fun x => { x with order := x.order ++ [i], posts := satInc x.posts })
  else s.updMbx m (fun x => { x with ignored := satInc x.ignored })

/-- POST. -/
def execPost (m : Fin 34) (slot : Fin 8) (s : State) : Host.Outcome State Fault Refusal :=
  ok (if s.running then s.postSlot m.val slot.val else s)

/-- A written 1 to DONE releases its slot pair: both slots are zeroed and the bit clears (spec/11 R287). -/
def State.releaseSlot (s : State) (m i : Nat) : State :=
  if (s.slotAt m i).done then s.updSlot m i (fun _ => Slot.reset) else s

/-- DONE_RELEASE. -/
def execDoneRelease (m : Fin 34) (mask : BitVec 8) (s : State) : Host.Outcome State Fault Refusal :=
  ok (if s.running then foldBelow 8 (fun i s => if bitAt mask i then s.releaseSlot m.val i else s) s else s)

/-- The pair that executes is running (spec/11 R281). -/
def Camp.executing (c : Camp) : Bool := if c.active then c.execB else c.execA

/-- A mailbox that offers a command: its oldest posted command has not begun and no command of it runs (spec/11 R288, R290). -/
def Mbox.offers (x : Mbox) : Bool := x.isOpen && !x.order.isEmpty && !(x.slots.any (fun p => p.2.running))

/-- The mailbox whose turn it is: round robin in ascending number after the one served last (spec/11 R288). -/
def State.nextMbox (s : State) : Option Nat :=
  (firstBelow 34 (fun k => (s.mbxAt ((s.camp.rr + 1 + k) % 34)).offers)).map (fun k => (s.camp.rr + 1 + k) % 34)

/-- Whether Tamri's own REKEY is due: CAMP_READY and ENTROPY_READY have both risen, and it has not run (spec/04 R117). -/
def State.rekeyDue (s : State) : Bool := s.boot.campReady && s.boot.entropy && !s.camp.rekeyed

/-- The request that Base Camp takes next from mailbox `m`: the slot and its words, when it is that mailbox's turn. Tamri's own REKEY goes before any
(spec/04 R117), and a test that runs is a command that runs (spec/14 R368). -/
def State.taken (s : State) (m : Nat) : Option (Nat × BitVec 512) :=
  if s.running && s.camp.executing && !s.rekeyDue && s.camp.testing.isNone && s.nextMbox == some m then
    (match (s.mbxAt m).order with
     | i :: _ => some (i, (s.slotAt m i).req)
     | [] => none)
  else none

/-- COMMAND of a request (spec/11 R284). -/
def reqCode (r : BitVec 512) : BitVec 16 := field r 0 16

/-- ARGS of a request: bytes at LENGTH and above are 0 (spec/11 R284). -/
def reqArgs (r : BitVec 512) : BitVec 448 :=
  let n := (field r 32 8).toNat
  field r 64 448 &&& BitVec.ofNat 448 (2 ^ (8 * n) - 1)

/-- A header fault (spec/11 R289). -/
def headerBad (r : BitVec 512) : Bool := decide (56 < (field r 32 8).toNat) || field r 41 7 != 0 || field r 48 16 != 0

/-- A field of ARGS: `w` bits at byte offset `o`. -/
def arg (a : BitVec 448) (o w : Nat) : BitVec w := field a (8 * o) w

/-- A result of 52 bytes with a field at a byte offset. -/
def resPut {w : Nat} (o : Nat) (v : BitVec w) : BitVec 416 := (v.setWidth 416) <<< (8 * o)

/-- A field beyond its width in bits: higher bits of its bytes are set (spec/11 R291). -/
def argOver (a : BitVec 448) (o bytes bits : Nat) : Bool := decide (2 ^ bits ≤ (field a (8 * o) (8 * bytes)).toNat)

/-- An answer: status, DETAIL, RESULT. -/
abbrev Answer := BitVec 8 × BitVec 16 × BitVec 416

/-- Statuses without a RESULT (spec/11 R289). -/
def status (c : BitVec 8) : Answer := (c, 0, 0)

/-- OK with a RESULT. -/
def okWith (r : BitVec 416) : Answer := (0, 0, r)

/-- BAD_ARG with DETAIL (spec/11 R448). -/
def badArg (d : Nat) : Answer := (5, BitVec.ofNat 16 d, 0)

/-- The lowest ARGS offset among failing conditions, each with the lowest offset of the fields it names (spec/11 R448). -/
def lowestBad (l : List (Bool × Nat)) : Option Nat :=
  l.foldl (fun acc p => if p.1 then (match acc with | none => some p.2 | some d => some (min d p.2)) else acc) none

/-- The response slot's words (spec/11 R285). -/
def respWords (req : BitVec 512) (a : Answer) (failover : Bool) (seq : BitVec 32) : BitVec 512 :=
  a.2.2 ++ seq ++ a.2.1 ++ ((0#7 : BitVec 7) ++ bit failover) ++ a.1 ++ field req 0 32

/-- The response of a slot written, RUNNING cleared, DONE set, the notification raised (spec/11 R287). -/
def State.finishSlot (s : State) (m i : Nat) (resp : BitVec 512) : State :=
  let req := (s.slotAt m i).req
  let s := s.updSlot m i (fun x => { x with resp := resp, running := false, done := true })
  let x := s.mbxAt m
  if bitAt req 40 && x.enable then s.sgiOccur x.target.toNat x.sgi.toNat 0xFFFF else s

/-- The next command of mailbox `m` is taken: its bit moves from POSTED to RUNNING and the turn passes on (spec/11 R283, R288). -/
def State.takeSlot (s : State) (m i : Nat) : State :=
  let s := s.updSlot m i (fun x => { x with posted := false, running := true })
  (s.updMbx m (fun x => { x with order := x.order.drop 1 })).modCamp (fun c => { c with rr := m })

/-- A command's commit point (spec/11 R281, R285): EXEC_SEQ counts it, and a shadowing standby pair gets its record and applies it. -/
def State.commit (s : State) (m i : Nat) : State :=
  let r := (s.slotAt m i).req
  s.modCamp (fun c =>
    let n := c.execSeq + 1
    if c.standby.toNat ≤ 1 then { c with execSeq := n, record := some { mbox := m, slot := i, req := r, seq := n }, copySeq := n }
    else { c with execSeq := n })

/-- A command answered (spec/11 R287). -/
def State.answerSlot (s : State) (m i : Nat) (a : Answer) : State :=
  s.finishSlot m i (respWords (s.slotAt m i).req a false s.camp.execSeq)

/-- FAIL_DETAIL of a test that ran to its end (spec/14 R368): what the test found; a code that no step of a test gives is no failure. -/
def failDetail (found : BitVec 32) : BitVec 32 :=
  let code := (field found 0 8).toNat
  if 2 ≤ code ∧ code ≤ 5 then found &&& 0xFFFF00FF else 0

/-- SLICE_TEST's answer of a unit, for a FAIL_DETAIL (spec/11 R291). -/
def testAnswer (detail : BitVec 32) : Answer := okWith (resPut 0 (if detail == 0 then (1#8 : BitVec 8) else 0) ||| resPut 4 detail)

/-- A test's command commits and is answered (spec/11 R288, spec/14 R368). -/
def State.endTest (s : State) (t : UnitTest) (detail : BitVec 32) : State :=
  ((s.modCamp (fun c => { c with testing := none })).commit t.mbox t.slot).answerSlot t.mbox t.slot (testAnswer detail)

/-- Who may issue: ring 0 is mailbox 0, ring 1 mailbox 1, guest `g` mailbox 2 + g (spec/11 R282). -/
inductive Issuers where
  | ring0
  | ring01
  | any
  deriving DecidableEq, Repr

/-- Whether a mailbox may issue. -/
def Issuers.allow (i : Issuers) (m : Nat) : Bool := match i with | .ring0 => m = 0 | .ring01 => decide (m ≤ 1) | .any => true

/-- The guest of a mailbox. -/
def guestOf (m : Nat) : Option Nat := if 2 ≤ m then some (m - 2) else none

/-- One command of a mailbox, when it is that command's turn (spec/11 R288): the boot ROM's answer after a failed boot (R294), else the header first, then the
issuer, then the command itself. `mine` says which codes it answers; `ready` holds the commit back (spec/13 R349). -/
def State.commandOf (s : State) (m : Nat) (mine : BitVec 16 → Bool) (by_ : Issuers) (ready : BitVec 448 → Bool)
    (f : BitVec 448 → State → Answer × State) : State :=
  match s.taken m with
  | none => s
  | some (i, r) =>
    if !mine (reqCode r) then s
    else
      let reply (a : Answer) : State := ((s.takeSlot m i).commit m i).answerSlot m i a
      if s.boot.failed then reply (status 8)
      else if headerBad r then reply (badArg 0xFFFF)
      else if !by_.allow m then reply (status 4)
      else if !ready (reqArgs r) then s
      else
        let x := f (reqArgs r) ((s.takeSlot m i).commit m i)
        x.2.answerSlot m i x.1

/-- The same for a list of codes. -/
def State.command (s : State) (m : Nat) (codes : List (BitVec 16)) (by_ : Issuers) (ready : BitVec 448 → Bool)
    (f : BitVec 448 → State → Answer × State) : State :=
  s.commandOf m (fun c => codes.contains c) by_ ready f

/-- A condition always met. -/
def always (_ : BitVec 448) : Bool := true

end Sys2Proof.Machine
end

