-- ==== Sys2Proof/Machine/Recover.lean ====
section
/-! DEFINITION. Isolation, spare takeover and partner cover (spec/13 R337, R351, R352, R357 to R359; spec/05 R142), and the Plain's transfer (spec/05
R139 to R142). -/

namespace Sys2Proof.Machine

/-- Whether a fault of a key observed now is a second fault: a new fault within 10 ms of the last one (spec/13 R357). -/
def State.isSecond (s : State) (cause kind : BitVec 8) (unit : BitVec 16) : Bool := s.secondFault && !s.sameFault (faultKey cause kind unit)

/-- Whether the logbook entry of an item that a takeover replays is intact, or needs none (spec/13 R357). -/
def State.itemIntact (s : State) (i : PItem) : Bool :=
  match i with
  | .record r => (s.logAt r.serial.toNat).intact
  | .moved x _ => (s.logAt x.serial.toNat).intact
  | _ => true

/-- An item as a takeover sends it: REPLAYED = 1 where the recovery does not meet R8 (spec/13 R358). -/
def PItem.replay (replayed : Bool) (i : PItem) : PItem :=
  match i with
  | .record r => .record { r with record := { r.record with replayed := r.record.replayed || replayed } }
  | .moved x v => .moved { x with replayed := x.replayed || replayed } v
  | i => i

/-- A replayed item enters its requester's sequence with the arrival count that its logbook entry restores (spec/13 R348). -/
def State.restoreItem (s : State) (i : PItem) : PItem :=
  match i with
  | .record r => .record { r with record := { r.record with arrival := s.restored r.record.origin r.serial r.record.input r.record.arrival } }
  | .moved x v => .moved { x with arrival := s.restored x.origin x.serial x.input x.arrival } v
  | i => i

/-- The queues of a position as the spare sends them again (spec/13 R351): REPLAYED = 1 where the recovery does not meet R8, an item of its own whose entry is
not intact (R357, R358; spec/15 R402), which raises DEGRADED. -/
def State.replayPos (s : State) (p : Nat) (replayed : Bool) : State :=
  let lost := (s.posAt p).items.any (fun i => !s.itemIntact i)
  let s' := s.updPos p (Pos.mapItems (fun i => (s.restoreItem i).replay (replayed || !s.itemIntact i)))
  if lost then s'.degrade (.ridge p) 4 10 7 else s'

/-- The walks of a position issued again by its new ridge (spec/13 R351). -/
def State.reissueWalks (s : State) (p : Nat) : State :=
  foldList (fun (w : Walk) s => s.cancelWalks w.handle.req (some w.handle.evt)) (s.posAt p).walks s

/-- The ridge with ROLE 1. -/
def State.spare (s : State) : Option Nat := firstBelow 5 (fun r => (s.ridgeAt r).role == 1)

/-- A position moves to the spare, or stays unserved (spec/13 R351). -/
def State.takeover (s : State) (p : Nat) (replayed : Bool) : State :=
  match s.spare with
  | none => (s.updPos p (fun q => { q with unserved := some (q.unserved.getD s.clk.ticks) })).degrade (.ridge p) 1 (BitVec.ofNat 16 p) 4
  | some r =>
    let s := s.updRidge r (fun x => { x with role := 0, position := BitVec.ofNat 2 p })
    let s := s.modXl (fun x => { x with ridgeMap := updList (fun _ => BitVec.ofNat 3 r) x.ridgeMap p })
    let late := (s.posAt p).unserved.isSome
    let s := s.updPos p (fun q => { q with unserved := none })
    ((((s.replayPos p (replayed || late)).reissueWalks p)).releaseWaits p).evalAll

/-- A fault of a ridge needs the spare that is under test (spec/14 R368): the test stops with FAIL_DETAIL 1, and the spare is the spare again. -/
def State.abortRidgeTest (s : State) : State :=
  match s.camp.testing with
  | some t => if t.kind = 0 ∧ t.former = 1 then (s.updRidge t.unit (fun x => { x with role := 1 })).endTest t 1 else s
  | none => s

/-- A fault of a belay needs its partner, which is under test (spec/14 R368): the test stops with FAIL_DETAIL 1. -/
def State.abortBelayTest (s : State) (b : Nat) : State :=
  match s.camp.testing with
  | some t => if t.kind = 1 ∧ t.unit = b ^^^ 1 then (s.updBel t.unit (fun x => { x with role := 2 })).endTest t 1 else s
  | none => s

/-- A ridge isolated: ROLE 3, its inputs' losses cleared, its position taken over (spec/13 R337, R351; spec/12 R326). -/
def State.isolateRidge (s : State) (r : Nat) (replayed : Bool) : State :=
  let x := s.ridgeAt r
  if x.role != 0 && x.role != 1 then s
  else
    let s := if x.role == 0 then s.abortRidgeTest else s
    let s := s.updRidge r (fun x => { x with role := 3, passedTest := false })
    let s := foldBelow 12 (fun i s => s.updArb (12 * r + i) (fun a => { a with losses := 0 })) s
    if x.role == 0 then s.takeover x.position.toNat replayed else s

/-- The operation that an isolated belay was applying is executed again from its landing entry and its logbook entry (spec/13 R352): REPLAYED = 1 where the
recovery does not meet R8, that entry not being intact among the reasons (R357, R358). -/
def State.reexecute (s : State) (b : Nat) (replayed : Bool) : State :=
  match (s.belAt b).landing with
  | [] => s
  | l :: rest => s.updBel b (fun x => { x with landing := { l with item := (s.restoreItem l.item).replay (replayed || !s.itemIntact l.item) } :: rest })

/-- A belay isolated: its partner covers, or its targets have no cover (spec/13 R337, R352). A partner under test, whose targets the belay was covering, leaves
its test and covers in its turn (spec/14 R368; DEDUCED, assumption log 63). -/
def State.isolateBelay (s : State) (b : Nat) (replayed : Bool) : State :=
  let x := s.belAt b
  let y := s.belAt (b ^^^ 1)
  let s := if x.out then s else s.updArb (100 + b) (fun a => { a with losses := 0 })
  if x.role == 0 && y.role == 0 then
    let s := (s.reexecute b replayed).updBel b (fun x => { x with role := 2, coverSince := s.now48, passedTest := false })
    (s.updBel (b ^^^ 1) (fun y => { y with role := 1, coverSince := s.now48 })).evalAll
  else if x.role == 1 && y.role == 3 then
    let s := ((s.abortBelayTest b).reexecute b replayed).updBel b (fun x => { x with role := 2, coverSince := s.now48, passedTest := false })
    (s.updBel (b ^^^ 1) (fun y => { y with role := 1, coverSince := s.now48 })).evalAll
  else if x.role == 0 || x.role == 1 then
    let s := s.updBel b (fun x => { x with role := 4, isolated := true, uncovered := true, passedTest := false })
    let s := if x.role == 1 then s.updBel (b ^^^ 1) (fun y => { y with uncovered := true }) else s
    (s.evalAll).degrade (.belay b) 2 (BitVec.ofNat 16 b) 5
  else s

/-- A ridge fault (spec/13 R336, R357): report, second-fault cairn, isolation. -/
def State.ridgeFault (s : State) (r : Nat) (cause : BitVec 8) (detail : BitVec 32) : State :=
  if (s.ridgeAt r).role != 0 && (s.ridgeAt r).role != 1 then s
  else
    let second := s.isSecond cause 1 (BitVec.ofNat 16 r)
    let by_ : Reporter := .ridge (s.ridgeAt r).position.toNat
    let s := s.report by_ cause 1 (BitVec.ofNat 16 r) 2 detail
    let s := if second then s.degrade by_ 1 (BitVec.ofNat 16 r) 3 else s
    s.isolateRidge r second

/-- A belay fault (spec/13 R336, R357). -/
def State.belayFault (s : State) (b : Nat) (cause : BitVec 8) (detail : BitVec 32) : State :=
  if (s.belAt b).role != 0 && (s.belAt b).role != 1 then s
  else
    let second := s.isSecond cause 2 (BitVec.ofNat 16 b)
    let s := s.report (.belay b) cause 2 (BitVec.ofNat 16 b) 2 detail
    let s := if second then s.degrade (.belay b) 2 (BitVec.ofNat 16 b) 3 else s
    s.isolateBelay b second

/-- RIDGE_CHECK (spec/13 R336). -/
def execRidgeCheck (r : Fin 5) (detail : BitVec 32) (s : State) : Host.Outcome State Fault Refusal :=
  ok (if s.running then s.ridgeFault r.val 0x03 detail else s)

/-- RIDGE_TIMEOUT: DETAIL is SERIAL_NEXT at detection (spec/13 R336, R342). -/
def execRidgeTimeout (r : Fin 5) (s : State) : Host.Outcome State Fault Refusal :=
  ok (if s.running then s.ridgeFault r.val 0x04 (s.serialOf (s.ridgeAt r.val).position.toNat) else s)

/-- BELAY_CHECK (spec/13 R336). -/
def execBelayCheck (b : Fin 256) (detail : BitVec 32) (s : State) : Host.Outcome State Fault Refusal :=
  ok (if s.running then s.belayFault b.val 0x05 detail else s)

/-- BELAY_STALL: DETAIL is the pitch address (spec/13 R336, R342). -/
def execBelayStall (b : Fin 256) (address : BitVec 32) (s : State) : Host.Outcome State Fault Refusal :=
  ok (if s.running then s.belayFault b.val 0x06 address else s)

/-- Entries a position has at a belay's landing: 2 for records, 1 for notices (spec/05 R140). -/
def State.landingRoom (s : State) (p : Nat) (i : PItem) : Bool :=
  let l := (s.belAt (i.target.toNat / 2)).landing.filter (fun x => x.pos.toNat == p && x.item.notice == i.notice)
  decide (l.length < (if i.notice then 1 else 2))

/-- The oldest queued item that may leave: its belay has a credit and serves, and no earlier item has its target (spec/05 R140, spec/13 R337). -/
def State.egressPick (s : State) (p : Nat) : List (BitVec 9) → List PItem → Option PItem
  | _, [] => none
  | seen, i :: rest =>
    if !seen.contains i.target && s.landingRoom p i && (s.servingBelay i.target.toNat).isSome then some i
    else s.egressPick p (i.target :: seen) rest

/-- A place of a ledge's queue has become free: its hold and its parked items enter, and a position that had stopped goes on when that hold is empty (spec/05
R140). -/
def State.refillEgress (s : State) (p l : Nat) : State :=
  let was := (s.posAt p).stopped
  let s := s.updPos p (fun q => (q.refill l 16).resume)
  if was && !(s.posAt p).stopped then s.releaseWaits p else s

/-- An accepted item lands (spec/05 R140, R141). -/
def State.landItem (s : State) (p l : Nat) (i : PItem) : State :=
  let s := (s.updPos p (fun q => { q with egress := Tbl.upd [] q.egress l (dropFirst (fun j => j == i)) })).refillEgress p l
  s.updBel (i.target.toNat / 2) (fun b => { b with landing := b.landing ++ [{ pos := BitVec.ofNat 2 p, item := i }] })

/-- A copy's corrected error, and its retirement at 16 within 1 ms (spec/05 R142). `b`: copy B. -/
def PathCopy.corrected (c : PathCopy) (now : Nat) (b : Bool) : PathCopy :=
  let recent (l : List Nat) : List Nat := now :: l.filter (fun t => decide (now < t + 100000))
  if b then { c with errB := recent c.errB, retired := if 16 ≤ (recent c.errB).length && c.retired.isNone then some true else c.retired }
  else { c with errA := recent c.errA, retired := if 16 ≤ (recent c.errA).length && c.retired.isNone then some false else c.retired }

/-- The Plain's own reporter and unit (spec/13 R342). -/
def State.plainReport (s : State) (p l : Nat) (sev : BitVec 2) (detail : BitVec 32) : State :=
  s.report (.other (0x30000 + 16 * p + l)) 0x07 3 (BitVec.ofNat 16 (16 * p + l)) sev detail

/-- The path that a position drives to a ledge: that of the ridge which holds it (spec/05 R139). -/
def State.pathOf (s : State) (p l : Nat) : Nat := 16 * s.ridgeOf p + l

/-- One copy had bad parity and the other was taken (spec/05 R141). -/
def State.plainCorrected (s : State) (p l : Nat) (b : Bool) : State :=
  (s.plainReport p l 0 (if b then 1 else 0)).updPlain (s.pathOf p l) (fun c => c.corrected s.clk.ticks b)

/-- Both copies were discarded: the position sends again, and a path that has lost a copy, or fails so twice in 10 ms, moves its position to the
spare, whose paths are separate wires (spec/05 R141, R142). -/
def State.plainLost (s : State) (p l : Nat) : State :=
  let c := s.plainAt (s.pathOf p l)
  let again := c.retired.isSome || (match c.lastUnc with | some t => decide (s.clk.ticks < t + 1000000) | none => false)
  let second := s.isSecond 0x07 3 (BitVec.ofNat 16 (16 * p + l))
  let s := s.plainReport p l 2 0x102
  let s := s.updPlain (s.pathOf p l) (fun c => { c with lastUnc := some s.clk.ticks })
  if !again then s
  else
    let s := if second then s.degrade (.ridge p) 3 (BitVec.ofNat 16 (16 * p + l)) 3 else s
    s.isolateRidge (s.ridgeOf p) second

/-- The copies compared (spec/05 R141); while one copy is retired the other stands alone (R142). -/
def State.plainCompare (s : State) (p l : Nat) (i : PItem) (a b eq : Bool) : State :=
  match (s.plainAt (s.pathOf p l)).retired with
  | some bOut => if (if bOut then a else b) then s.landItem p l i else s.plainLost p l
  | none =>
    if a && b && eq then s.landItem p l i
    else if a && !b then (s.landItem p l i).plainCorrected p l true
    else if b && !a then (s.landItem p l i).plainCorrected p l false
    else s.plainLost p l

/-- PLAIN_TRANSFER: in its slot an egress queue sends an item and the ledge compares the copies (spec/05 R139 to R142). -/
def execPlainTransfer (pos : Fin 4) (ledge : Fin 16) (aGood bGood equal : Bool) (s : State) : Host.Outcome State Fault Refusal :=
  ok (if !(s.running && (s.posAt pos.val).unserved.isNone) then s
      else match s.egressPick pos.val [] (Tbl.get [] (s.posAt pos.val).egress ledge.val) with
        | none => s
        | some i => s.plainCompare pos.val ledge.val i aGood bGood equal)

end Sys2Proof.Machine
end

