-- ==== Sys2Proof/Machine/Save.lean ====
section
/-! DEFINITION. The save at power failure (spec/15 R406 to R410): the energy, the wake record's size and lines, and the last-words record. -/

namespace Sys2Proof.Machine

/-- RIDGE_ROLES (spec/13 R365): ROLE of ridge `r` in bits 3r + 2 : 3r. -/
def State.ridgeRoles (s : State) : BitVec 15 :=
  (s.ridgeAt 4).role ++ (s.ridgeAt 3).role ++ (s.ridgeAt 2).role ++ (s.ridgeAt 1).role ++ (s.ridgeAt 0).role

/-- LAST_SEVERE, word 0x038 of the rescue window (spec/13 R365). -/
def Cairns.lastSevere (c : Cairns) : Word := put 0 c.sevCause ||| put 8 c.sevKind ||| put 16 c.sevUnit ||| put 32 c.sevIndex

/-- HB_STOP_CAUSE in bits 3:0 and HB_RUNNING in bit 4 (spec/15 R409). -/
def Rope.hbByte (r : Rope) : BitVec 8 := (bit r.hbRunning ++ r.hbCause).setWidth 8

/-- STATUS.FAST_READY (spec/15 R400): 0 during a warm reset. -/
def State.fastBit (s : State) : Bool := s.boot.fastReady && !s.pwr.warmHeld

/-- STATUS.CAMP_READY (spec/15 R400). -/
def State.campBit (s : State) : Bool := s.boot.campReady && !s.pwr.warmHeld

/-- READY (spec/15 R409): FAST_READY, ENTROPY_READY, CAMP_READY. -/
def State.readyBits (s : State) : BitVec 3 := bit s.campBit ++ bit s.boot.entropy ++ bit s.fastBit

/-- Whether nothing waits for a ridge, a belay, a couloir, a ledge or Base Camp, so that every unit gates its clock (spec/15 R394). -/
def State.noWork (s : State) : Bool :=
  s.xl.pos.all (fun q => q.walks.isEmpty && q.waits.isEmpty && q.items.isEmpty) &&
  s.bel.all (fun b => b.2.landing.isEmpty) && s.inq.all (fun q => q.2.isEmpty) &&
  s.pass.all (fun p => p.2.buf.isEmpty) && !s.mem.has (fun _ => true) &&
  s.mbx.all (fun m => m.2.order.isEmpty && m.2.slots.all (fun x => !x.2.running))

/-- POWER_STATE (spec/15 R394, R413): 1 while every unit is gated in ON. -/
def State.powerState (s : State) : BitVec 3 := if s.pwr.state == 0 && s.running && s.noWork then 1 else s.pwr.state

/-- The size of the wake record (spec/15 R406, R408). -/
def wakeSize (inUse : Nat) : Nat := 0x3140 + 16 * min inUse 15596

/-- E(c) in µJ (spec/15 R406). -/
def energy (code : BitVec 8) : Nat := if code == 0 then 0 else if code == 1 then 2 else 8 * code.toNat

/-- Whether the energy covers 1.25 × (24 + 0.5 × ⌈s / 1024⌉) µJ (spec/15 R406). -/
def energyCovers (e size : Nat) : Bool := decide (240 + 5 * ceilDiv size 1024 ≤ 8 * e)

/-- LOGBOOK_IN_USE: the entries that are not free (spec/15 R408). -/
def State.logInUse (s : State) : Nat := s.log.length

/-- The header of a wake record as it will be written (spec/15 R408). -/
def State.wakeHeader (s : State) (state source : BitVec 8) : NvHeader :=
  { state := state, source := source, holdup := s.pwr.holdup, trunc := decide (15596 < s.logInUse), saveSeq := s.pwr.saveSeq,
    length := BitVec.ofNat 32 (wakeSize s.logInUse), time := s.clk.time, entries := BitVec.ofNat 32 (min s.logInUse 15596),
    inUse := BitVec.ofNat 32 s.logInUse, execSeq := s.camp.execSeq }

/-- A field of a 64-byte record at a byte offset. -/
def recPut {w : Nat} (o : Nat) (v : BitVec w) : BitVec 512 := (v.setWidth 512) <<< (8 * o)

/-- A 64-byte record with the CRC-32 of its bytes 0x00 to 0x3B at 0x3C (spec/09 R213). -/
def withCrc (r : BitVec 512) : BitVec 512 := r ||| recPut 0x3C (crc32 r 0x3C)

/-- The header's 64 bytes (spec/15 R408). -/
def NvHeader.bytes (h : NvHeader) : BitVec 512 :=
  withCrc (recPut 0 (0x454B4157 : BitVec 32) ||| recPut 4 h.state ||| recPut 5 h.source ||| recPut 6 h.holdup ||| recPut 7 (bit h.trunc) |||
    recPut 8 h.saveSeq ||| recPut 0x0C h.length ||| recPut 0x10 h.time ||| recPut 0x18 h.entries ||| recPut 0x1C h.inUse ||| recPut 0x20 h.execSeq)

/-- What the always-on domain mirrors of the last-words record every ration round (spec/15 R409). -/
def State.mirrorWords (s : State) : BitVec 512 :=
  recPut 4 (if s.pwr.armed then s.pwr.saveSeq else 0) ||| recPut 0x12 s.powerState ||| recPut 0x13 s.rope.hbByte ||| recPut 0x14 s.readyBits |||
    recPut 0x18 s.cairn.lastSevere ||| recPut 0x20 s.cairn.severe ||| recPut 0x24 s.cairn.degraded ||| recPut 0x28 (BitVec.ofNat 32 s.logInUse) |||
    recPut 0x2C s.ridgeRoles ||| recPut 0x2E (BitVec.ofNat 16 (s.bel.filter (fun b => b.2.out)).length) ||| recPut 0x30 s.partner.active

/-- The last-words record (spec/15 R409): MAGIC, TIME, HOLDUP_CODE and REASON beside the mirrors. -/
def State.lastWords (s : State) (reason : BitVec 8) : BitVec 512 :=
  withCrc (recPut 0 (0x5453414C : BitVec 32) ||| recPut 4 (field s.pwr.lwMirror 32 32 : BitVec 32) ||| recPut 8 s.clk.time ||| recPut 0x10 s.pwr.holdup |||
    recPut 0x11 reason ||| recPut 0x12 (field s.pwr.lwMirror 144 336 : BitVec 336))

/-- LW_DATA at rising edge `n` of LW_CLK while a record is sent (spec/15 R410): the preamble 0xD5 and the record, each byte from its bit 0, then 0. -/
def lwData (record : BitVec 512) (n : Nat) : Bool := if n < 8 then bitAt (0xD5 : BitVec 8) n else if n < 520 then bitAt record (n - 8) else false

/-- A last-words record is sent where E reaches 2 µJ, else nothing is written (spec/15 R406, R407). -/
def State.sendWords (s : State) (reason : BitVec 8) : State :=
  let words := decide (2 ≤ energy s.pwr.holdup)
  s.modPwr (fun p =>
    { p with
      lastHoldup := p.holdup, save := if words then .words else .none, lwFrame := if words then s.lastWords reason else p.lwFrame,
      lastSave := if words then p.lastSave else 3 })

/-- The lines of a save that have not been sent are dropped. -/
def State.dropSaveLines (s : State) : State := s.modMem (fun m => { m with waits := m.waits.filter (fun r => r.owner != .save), queued := m.queued.filter (fun r => r.owner != .save) })

/-- The address of NVM_WINDOW in lines (spec/15 R408). -/
def State.nvmLine (s : State) : BitVec 47 := (s.boot.nvmWindow >>> 5).setWidth 47

/-- The header's two lines are written (spec/15 R407). -/
def State.writeHeader (s : State) (o : MemOwner) (h : NvHeader) : State :=
  (s.memIssue o true s.nvmLine (h.bytes.setWidth 256) false).memIssue o true (s.nvmLine + 1) (field h.bytes 256 256) false

/-- Whether a line of a save has not been acknowledged (spec/15 R407). -/
def State.saveLinesOut (s : State) : Bool := s.mem.has (fun r => r.owner == .save)

/-- The header of the save in progress, once every body line is acknowledged (spec/15 R407). -/
def State.headSave (s : State) : State :=
  if s.saveLinesOut || s.pwr.saveHead then s
  else match s.pwr.save with
    | .wake h | .now _ h => (s.modPwr (fun p => { p with saveHead := true })).writeHeader .save h
    | _ => s

/-- A wake record abandoned: a line of it failed twice, or a warm reset came (spec/15 R405, R407). -/
def State.abandonWake (s : State) : State :=
  match s.pwr.save with
  | .wake _ => (s.dropSaveLines.modPwr (fun p => { p with saveAbandoned := true })).sendWords 3
  | _ => s

end Sys2Proof.Machine
end

