-- ==== Sys2Proof/Machine/MemCmd.lean ====
section
/-! DEFINITION. The memory port's answers, the rounds of the rations and the arbiters' checks (spec/12 R305, R313 to R332; spec/13 R355, R356). -/

namespace Sys2Proof.Machine

/-- A breach of the contract: IN_BREACH, BREACH_SEEN, and one MEM_CONTRACT_BREACH report a window (spec/12 R320). -/
def State.breach (s : State) (detail : Nat) : State :=
  let first := !s.rat.windowBreach
  let s := s.modRat (fun r =>
    { r with inBreach := true, breachSeen := true, windowBreach := true, breaches := if first then satInc r.breaches else r.breaches })
  if first then s.report (.other 0x40000) 0x0A 0 0 1 (BitVec.ofNat 32 detail) else s

/-- The tail reads a window of reads may have (spec/12 R320). -/
def Contract.allows (c : Contract) (reads : Nat) : Nat := ceilDiv (reads * (10000 - c.percentile.toNat)) 10000

/-- A read is answered after `ns`: READS, TAIL_READS, MAX_LATENCY in TCLK ticks, and the window's test (spec/12 R320, R321, R334). -/
def State.countRead (s : State) (ns : Nat) : State :=
  let tail := match s.rat.contract with | some c => decide (c.latency.toNat < ns) | none => false
  let ticks := BitVec.ofNat 32 (min (ns / 10) 0xFFFFFFFF)
  let s := s.modRat (fun r =>
    { r with
      reads := r.reads + 1, tailReads := if tail then r.tailReads + 1 else r.tailReads,
      maxLatency := if r.maxLatency.ult ticks then ticks else r.maxLatency, windowReads := r.windowReads + 1,
      windowTails := if tail then r.windowTails + 1 else r.windowTails })
  match s.rat.contract with
  | some c => if c.allows s.rat.windowReads < s.rat.windowTails then s.breach 0 else s
  | none => s

/-- A read's result goes to its owner (spec/12 R306): data, or twice failed with its LAST_FAIL_KIND (spec/04 R104, R120). -/
def State.deliver (s : State) (o : MemOwner) (r : Option (BitVec 2)) : State :=
  match o with
  | .walkDev _ _ | .walkEvt _ _ | .refill _ _ | .bivouac _ _ => s.modMem (fun m => { m with done := m.done ++ [(o, r)] })
  | _ => s

/-- A line whose write failed twice stays as the only copy while 256 places last (spec/13 R355). -/
def State.holdLine (s : State) (r : MemReq) : Option State :=
  if s.mem.retained.length < 256 then some (s.modMem (fun m => { m with retained := m.retained ++ [r] })) else none

/-- The discard of a spilled instance whose line found no place (spec/13 R355, spec/06 R170). -/
def State.dropSpilled (s : State) (t : Nat) (serial : BitVec 32) (input : Nat) : State :=
  match (s.tgtAt t).store.find? (fun x => x.serial == serial && x.spilled) with
  | none => s
  | some x =>
    ((s.removeInst t x).countBelay t (fun b => { b with spillDrops := satInc b.spillDrops })).degrade (.belay (t / 2)) 14 (BitVec.ofNat 16 input) 8

/-- A write failed twice: the cairn, the SUSPECT page, and its owner's outcome (spec/13 R355, spec/08 R206). -/
def State.writeFailed (s : State) (r : MemReq) : State :=
  let s := s.report (.other (0x60000 + r.input)) 0x08 14 (BitVec.ofNat 16 r.input) 2 (field r.addr 7 32)
  let page : BitVec 40 := field r.addr 7 40
  let s := if s.boot.suspect.contains page then s else s.modBoot (fun b => { b with suspect := b.suspect ++ [page] })
  match r.owner with
  | .spillWrite t serial => (s.holdLine r).getD (s.dropSpilled t.toNat serial r.input)
  | .bivWrite v _ | .actWrite v _ =>
    if (s.vtAt v.toNat).defined then (s.updVt v.toNat (fun m => { m with suspect := true })).ring 0 v true else s
  | .table rw =>
    let s := (s.holdLine r).getD s
    s.modXl (fun x => if x.rewrites.contains rw then x else { x with rewrites := x.rewrites ++ [rw] })
  | .logWrite serial =>
    (s.holdLine r).getD ((s.updLog serial.toNat (fun e => if e.state == 0 then e else { e with intact := false })).degrade (.other 0x60015) 4 10 7)
  | .save => s.abandonWake
  | _ => s

/-- A walk's read issued once more counts in DEVICE_WALKS or EVENT_WALKS of the position's ridge (spec/04 R120: reads issued). -/
def State.countWalkRead (s : State) (o : MemOwner) : State :=
  match o with
  | .walkDev p _ => s.updRidge (s.ridgeOf p.toNat) (fun x => { x with deviceWalks := x.deviceWalks + 1 })
  | .walkEvt p _ => s.updRidge (s.ridgeOf p.toNat) (fun x => { x with eventWalks := x.eventWalks + 1 })
  | _ => s

/-- A request that failed: issued once again, then its owner's rule (spec/12 R322, spec/13 R355, R356). `kind` is the failure as LAST_FAIL_KIND. -/
def State.memFailed (s : State) (r : MemReq) (kind : BitVec 2) : State :=
  if !r.again then ((s.modRat (fun x => { x with reissues := satInc x.reissues })).countWalkRead r.owner).memIssue r.owner r.write r.addr r.data true
  else if r.write then s.writeFailed r
  else s.deliver r.owner (some kind)

/-- A response discarded (spec/12 R324). -/
def State.lateResponse (s : State) (id : BitVec 8) : State :=
  (s.modRat (fun r => { r with late := satInc r.late })).modMem (fun m => { m with late := m.late.filter (fun x => x != id) })

/-- MEM_RESPONSE at the port (spec/12 R323, R324). -/
def State.memAnswer (s : State) (id : BitVec 8) (ack : Bool) (err : BitVec 2) (parityGood : Bool) (ns : Nat) : State :=
  match s.mem.out.find? (fun r => r.id == id && r.write == ack) with
  | none => s.lateResponse id
  | some r =>
    let err := if !ack && !parityGood then 2 else err
    let s := s.modMem (fun m => { m with out := dropFirst (fun q => q == r) m.out })
    let s := if ack then s else s.countRead ns
    if err == 0 then (if r.owner == .save then s.headSave else if r.write then s else s.deliver r.owner none)
    else s.memFailed r (if err == 1 then 0 else 1)

/-- MEM_RESPONSE (spec/12 R322 to R324). `latency` is in ns. -/
def execMemResponse (id : BitVec 8) (ack : Bool) (err : BitVec 2) (parityGood : Bool) (latency : BitVec 32) (s : State) :
    Host.Outcome State Fault Refusal :=
  ok (if s.running then (s.memAnswer id ack err parityGood latency.toNat).pumpAll.evalAll else s)

/-- MEM_TIMEOUT: a request unanswered for 2,000 ticks; its identifier waits for the late response (spec/12 R319, R320, R324). -/
def State.memTimedOut (s : State) (r : MemReq) : State :=
  let s := s.modMem (fun m => { m with out := dropFirst (fun q => q == r) m.out, late := m.late ++ [r.id] })
  let s := s.modRat (fun x => { x with timeouts := satInc x.timeouts, timeoutSeen := true })
  let s := if !r.write && s.rat.contract.isSome then s.breach 1 else s
  s.memFailed r 2

/-- MEM_TIMEOUT. -/
def execMemTimeout (id : BitVec 8) (s : State) : Host.Outcome State Fault Refusal :=
  ok (if !s.running then s
      else match s.mem.out.find? (fun r => r.id == id && decide (r.since + 2000 ≤ s.clk.ticks)) with
        | none => s
        | some r => ((s.memTimedOut r).pumpAll).evalAll)

/-- The quota settings that wait for the boundary apply (spec/12 R305). -/
def State.applyQuotas (s : State) : State :=
  foldList (fun (k : Nat) s => s.settleQuota (k % 16) (k / 16 / 65536) (k / 16 % 65536))
    ((s.rat.quota.filter (fun q => q.2.nextCycles.isSome || q.2.nextBytes.isSome)).map (fun q => q.1)) s

/-- The frames the starvation monitor watches: those with a limit (spec/05 R144). -/
def State.starveAll (s : State) : State :=
  foldList (fun (k : Nat) s =>
    if k < 2048 then s.starveFrame (k / 4) (k % 4) none
    else
      let c := s.ctxAt (k - 2048)
      if c.used then s.starveFrame c.target.toNat c.ring.toNat (some (BitVec.ofNat 11 (k - 2048))) else s)
    ((s.frame.filter (fun f => f.2.limit != 0)).map (fun f => f.1)) s

/-- The answers that waited for the boundary (spec/12 R305). -/
def State.answerWaiters (s : State) : State :=
  foldList (fun (w : Nat × Nat × BitVec 512) s => s.finishSlot w.1 w.2.1 w.2.2) s.rat.waiters (s.modRat (fun r => { r with waiters := [] }))

/-- The boundary of a round (spec/12 R305, R309, R312, R318, R320; spec/05 R144; spec/13 R339). -/
def State.roundEnd (s : State) : State :=
  let s := foldBelow 4 (fun p s => s.settleQuota 1 0 p) (s.settleQuota 6 2 22)
  let fresh := s.rat.nextContract.isSome
  let s := s.modRat (fun r =>
    { r with
      round := r.round + 1, contract := r.nextContract.or r.contract, nextContract := none, unpins := r.unpins.filter (fun e => r.round + 1 < e),
      windowReads := if fresh then 0 else r.windowReads, windowTails := if fresh then 0 else r.windowTails,
      windowRounds := if fresh then 0 else r.windowRounds + 1, windowBreach := r.windowBreach && !fresh })
  let s := s.modPwr (fun p => { p with maskedSave := p.maskedSave && (p.warn || p.save != .none) })
  let s := s.modRat (fun r => { r with saveMode := s.pwr.maskedSave })
  (((s.applyQuotas).releaseHeld).starveAll).answerWaiters

/-- The always-on mirrors of the last-words record, updated every ration round (spec/15 R409). -/
def State.mirrorRound (s : State) : State := s.modPwr (fun p => { p with lwMirror := s.mirrorWords })

/-- RATION_ROUND: rounds count from cold-reset release (spec/12 R305), not while FCLK stands in PARK or OFF. -/
def execRationRound (s : State) : Host.Outcome State Fault Refusal := ok (if s.aon && !s.pwr.off && s.pwr.state != 3 then s.roundEnd.mirrorRound else s)

/-- BREACH_WINDOW_END: a window of 1,024 rounds ends; IN_BREACH clears after one with no breach (spec/12 R320). -/
def execBreachWindowEnd (s : State) : Host.Outcome State Fault Refusal :=
  ok (if s.running && decide (1024 ≤ s.rat.windowRounds) then
        s.modRat (fun r =>
          { r with
            windowRounds := 0, windowReads := 0, windowTails := 0, windowBreach := false, inBreach := r.inBreach && r.windowBreach })
      else s)

/-- The key of an arbiter's input (spec/12 R328, R331); `none` where the arbiter has no such input. -/
def arbKey (a i : Nat) : Option Nat :=
  if a < 5 then (if i < 12 then some (12 * a + i) else none)
  else if a = 5 then (if i < 26 then some (60 + i) else none)
  else if i < 16 then some (100 + 16 * (a - 6) + i)
  else none

/-- ARB_STARVE: an unbroken wait has passed STARVE_LIMIT, told once a wait (spec/12 R330). -/
def execArbStarve (a : Fin 22) (input : Fin 32) (s : State) : Host.Outcome State Fault Refusal :=
  ok (match (if s.running then arbKey a.val input.val else none) with
      | none => s
      | some k =>
        let limit := Tbl.get 0 s.arb.limit a.val
        let q := s.arbAt k
        if limit != 0 && decide (limit.toNat < q.wait) && !q.told then
          (s.updArb k (fun q => { q with starved := true, told := true })).report (.other (0x50000 + 32 * a.val + input.val)) 0x19 15
            (BitVec.ofNat 16 (32 * a.val + input.val)) 1 q.longest
        else s)

/-- KEEP_WARM_READ: with KEEP_WARM = 1 the scrub requester reads a line of the table region every 5,000 ticks (spec/12 R319); the model reads the first
one (DESIGN CHOICE, assumption log 57). -/
def execKeepWarmRead (s : State) : Host.Outcome State Fault Refusal :=
  ok (if s.running && s.keepWarm && decide (s.rat.warmAt + 5000 ≤ s.clk.ticks) then
        (s.modRat (fun r => { r with warmAt := s.clk.ticks })).memRead .keepWarm ((s.boot.tableBase >>> 5).setWidth 47)
      else s)

/-- MEM_COMMITTED and MEM_LIMIT as RESULT reports them (spec/12 R313). -/
def State.memResult (s : State) : BitVec 416 := resPut 0 (BitVec.ofNat 32 s.committed) ||| resPut 4 (BitVec.ofNat 32 s.memLimit)

/-- Whether RATION_SET accepts an activity at a scope (spec/12 R313). -/
def actOk (act scope unit : Nat) : Bool :=
  match scope with
  | 0 => act = 1 || (4 ≤ act && act ≤ 10)
  | 1 => act = 2 || act = 3 || (5 ≤ act && act ≤ 10)
  | 2 => blockRequesters.any (fun p => p.1 = act && (p.2 = unit || !(blockRequesters.any (fun q => q.2 = unit))))
  | _ => act ≠ 0

/-- Whether a scope has the unit (spec/12 R313). -/
def unitOk (scope unit : Nat) : Bool :=
  match scope with
  | 0 => unit < 4 || unit = 0xFFFF
  | 1 => unit < 256 || unit = 0xFFFF
  | 2 => blockRequesters.any (fun q => q.2 = unit)
  | _ => true

/-- CYCLES accepted at a scope (spec/12 R313). -/
def cyclesMax (scope : Nat) : Nat := match scope with | 0 => 2048 | 1 => 1024 | _ => 0

/-- BYTES accepted (spec/12 R313). -/
def bytesMax (act scope : Nat) : Nat :=
  match scope with
  | 0 => if act = 1 then 65535 else 0
  | 1 => if act = 2 || act = 3 then 65535 else 0
  | _ => 65535

/-- The sum of CYCLES at a unit as the next boundary leaves them (spec/12 R308). -/
def State.cyclesSum (s : State) (scope unit : Nat) : Nat :=
  sumBelow (fun a => if a = 0 then 0 else (s.quotaAt a scope unit).nextCycles.getD (s.cyclesOf a scope unit)) 11

/-- One unit's quota as RATION_SET leaves it for the next boundary. -/
def State.setQuota (s : State) (act scope unit cycles bytes : Nat) : State :=
  (s.settleQuota act scope unit).updQuota act scope unit (fun q => { q with nextCycles := some cycles, nextBytes := some bytes })

/-- The units that RATION_SET names. -/
def rationUnits (scope unit : Nat) : List Nat :=
  if unit = 0xFFFF && scope = 0 then List.range 4 else if unit = 0xFFFF && scope = 1 then List.range 256 else [unit]

/-- RATION_SET (spec/12 R308, R313, R316). -/
def State.rationSet (s : State) (a : BitVec 448) : Answer × State :=
  let act := (arg a 0 8).toNat
  let scope := (arg a 1 8).toNat
  let unit := (arg a 2 16).toNat
  let cycles := (arg a 4 16).toNat
  let bytes := (arg a 8 32).toNat
  match lowestBad [(act = 0 || !actOk act scope unit, 0), (decide (2 < scope), 1), (!unitOk scope unit, 2),
      (decide (cyclesMax scope < cycles), 4), (decide (bytesMax act scope < bytes), 8)] with
  | some d => ((5, BitVec.ofNat 16 d, s.memResult), s)
  | none =>
    let t := foldList (fun u s => s.setQuota act scope u cycles bytes) (rationUnits scope unit) s
    let tooMany := scope < 2 && (rationUnits scope unit).any (fun u => decide (cyclesMax scope < t.cyclesSum scope u))
    if tooMany || !t.admits then ((3, 0, s.memResult), s.modRat (fun r => { r with overcommit := true }))
    else (okWith t.memResult, t)

/-- MEMCLK cycles in one round of 1.28 µs, by MEMCLK in kHz (spec/12 R318). -/
def State.memClkRound (s : State) : Nat := s.rat.memKHz.toNat * 128 / 100000

/-- LATENCY_MAX: 968 ns less 64 MEMCLK periods (spec/12 R318, R335). -/
def State.latencyMax (s : State) : Nat := if s.rat.memKHz = 0 then 0 else 968 - ceilDiv 64000000 s.rat.memKHz.toNat

/-- CONTRACT_SET (spec/12 R316, R318). -/
def State.contractSet (s : State) (a : BitVec 448) : Answer × State :=
  let bytes := (arg a 0 32).toNat
  let lat := (arg a 4 32).toNat
  let pct := (arg a 8 16).toNat
  let warm := (arg a 10 8).toNat
  match lowestBad [(decide (bytes < 6144) || decide (32 * s.memClkRound < bytes), 0), (decide (lat < 100) || decide (s.latencyMax < lat), 4),
      (decide (pct < 9900) || decide (9999 < pct), 8), (decide (1 < warm), 10)] with
  | some d => ((5, BitVec.ofNat 16 d, s.memResult), s)
  | none =>
    let c : Contract := { bytes := arg a 0 32, latency := arg a 4 32, percentile := arg a 8 16, keepWarm := warm = 1 }
    let t := s.modRat (fun r => { r with nextContract := some c })
    if decide (t.memLimit < (t.modRat (fun r => { r with contract := some c })).committed) then
      ((3, 0, s.memResult), s.modRat (fun r => { r with overcommit := true }))
    else (okWith t.memResult, t)

/-- A command whose answer waits for the next round boundary where it is OK (spec/12 R305). -/
def State.roundCommand (s : State) (m : Nat) (code : BitVec 16) (f : BitVec 448 → State → Answer × State) : State :=
  match s.taken m with
  | none => s
  | some (i, r) =>
    if reqCode r != code then s
    else if headerBad r || s.boot.failed || m ≠ 0 then s.command m [code] .ring0 always f
    else
      let x := f (reqArgs r) ((s.takeSlot m i).commit m i)
      if x.1.1 == 0 then x.2.modRat (fun q => { q with waiters := q.waiters ++ [(m, i, respWords r x.1 false x.2.camp.execSeq)] })
      else x.2.answerSlot m i x.1

/-- RATION_SET. -/
def execRationSet (m : Fin 34) (s : State) : Host.Outcome State Fault Refusal :=
  ok (s.roundCommand m.val 0x0050 (fun a s => s.rationSet a))

/-- CONTRACT_SET. -/
def execContractSet (m : Fin 34) (s : State) : Host.Outcome State Fault Refusal :=
  ok (s.roundCommand m.val 0x0051 (fun a s => s.contractSet a))

end Sys2Proof.Machine
end

