-- ==== Sys2Proof/Machine/Layout.lean ====
section
/-! DEFINITION. The layouts of records that more than one register or command shows: entries, descriptors, frames, cairns, quotas. -/

namespace Sys2Proof.Machine

/-- A number as a saturated field of `w` bits. -/
def satField (w n : Nat) : BitVec w := BitVec.ofNat w (min n (2 ^ w - 1))

/-- A residency-map entry (spec/08 R193). -/
def Vt.mapWord (m : Vt) : BitVec 32 :=
  (putBit 31 m.defined ||| putBit 30 m.resident ||| putBit 29 m.running ||| putBit 28 m.notified ||| putBit 27 m.moving ||| putBit 26 m.suspect |||
    put 17 m.dbTarget ||| put 15 m.dbRing ||| put 4 m.slot ||| put 0 m.dbLevel).setWidth 32

/-- A group's record (spec/07 R175). -/
def Group.word (g : Group) : Word :=
  put 0 g.limit ||| put 16 g.time ||| put 36 g.spillMerge ||| putBit 52 g.pending ||| putBit 53 g.active ||| putBit 54 g.spilled |||
    putBit 55 g.due ||| put 56 g.conflicts

/-- A cairn record (spec/13 R341): words 0 to 3. -/
def CairnRec.words (c : CairnRec) : List Word :=
  if !c.valid then [0, 0, 0, 0]
  else
    [put 0 c.cause ||| put 8 c.sev ||| putBit 16 c.valid ||| putBit 17 c.new ||| put 24 c.kind ||| put 32 c.unit,
     put 0 c.count ||| put 32 c.firstDetail,
     put 0 c.firstTime ||| put 48 (field c.lastTime 0 16),
     put 0 (field c.lastTime 16 32) ||| put 32 c.lastDetail]

/-- Cairn record `i`. -/
def State.cairnAt (s : State) (i : Nat) : CairnRec := Tbl.get CairnRec.reset s.cairn.recs i

/-- Words laid one after another at 8-byte steps from a byte offset of a result. -/
def resWords : Nat → List Word → BitVec 416
  | _, [] => 0
  | o, w :: rest => resPut o w ||| resWords (o + 8) rest

/-- A quota as SNAPSHOT object 5 lays it out (spec/12 R335). -/
def State.quotaData (s : State) (act scope unit : Nat) : BitVec 416 :=
  let s := s.settleQuota act scope unit
  let q := s.quotaAt act scope unit
  resPut 0 (BitVec.ofNat 8 act) ||| resPut 1 (BitVec.ofNat 8 scope) ||| resPut 2 (BitVec.ofNat 16 unit) |||
    resPut 4 (BitVec.ofNat 16 (s.cyclesOf act scope unit)) ||| resPut 8 (BitVec.ofNat 32 (s.bytesSet act scope unit)) |||
    resPut 12 (BitVec.ofNat 32 (s.implied act scope unit)) ||| resPut 16 (BitVec.ofNat 32 (s.bytesOf act scope unit)) |||
    resPut 20 (satField 16 q.usedLast) ||| resPut 24 (satField 32 q.bytesInLast) ||| resPut 28 (satField 32 q.bytesAboveLast) |||
    resPut 32 (BitVec.ofNat 32 q.budget) ||| resPut 36 q.exhausted

/-- STATE of the contract (spec/12 R335). -/
def Rations.contractState (r : Rations) : Nat := if r.contract.isNone then 0 else if r.inBreach then 2 else 1

/-- The contract as SNAPSHOT object 6 lays it out (spec/12 R335). -/
def State.contractData (s : State) : BitVec 416 :=
  let c := s.rat.contract.getD { bytes := 0, latency := 0, percentile := 0, keepWarm := false }
  resPut 0 c.bytes ||| resPut 4 c.latency ||| resPut 8 c.percentile ||| resPut 10 ((bit c.keepWarm).setWidth 8) |||
    resPut 11 (BitVec.ofNat 8 s.rat.contractState) ||| resPut 12 (BitVec.ofNat 32 s.committed) ||| resPut 16 (BitVec.ofNat 32 s.memLimit) |||
    resPut 20 s.rat.memKHz ||| resPut 24 (BitVec.ofNat 32 s.latencyMax)

/-- The Camp status object (spec/11 R303). -/
def State.campData (s : State) : BitVec 416 :=
  resPut 0 ((bit s.camp.active).setWidth 8) ||| resPut 1 (s.camp.standby.setWidth 8) ||| resPut 4 s.boot.fwVersion |||
    resPut 8 (match s.camp.staged with | some x => x.version | none => 0) ||| resPut 12 s.camp.verifyRuns ||| resPut 16 s.camp.verifyBad |||
    resPut 20 s.camp.takeovers ||| resPut 24 ((s.camp.healthFailed ++ bit s.boot.entropy).setWidth 8) ||| resPut 28 s.camp.rctFails |||
    resPut 30 s.camp.aptFails ||| resPut 32 s.camp.execSeq

end Sys2Proof.Machine
end

