-- ==== Sys2Proof/Machine/Sha.lean ====
section
/-! DEFINITION. SHA-256, the digest that an image's signature covers (spec/11 R293). The spec names the standard; its steps and constants are taken
from FIPS 180-4 (assumption log 13). -/

namespace Sys2Proof.Machine

/-- The 64 round constants, constant `i` in bits 32i+31 : 32i. -/
def shaTable : Nat :=
  0xc67178f2bef9a3f7a4506ceb90befffa8cc7020884c8781478a5636f748f82ee682e6ff35b9cca4f4ed8aa4a391c0cb334b0bcb52748774c1e376c0819a4c116106aa070f40e3585d6990624d192e819c76c51a3c24b8b70a81a664ba2bfe8a192722c8581c2c92e766a0abb650a735453380d134d2c6dfc2e1b213827b70a851429296706ca6351d5a79147c6e00bf3bf597fc7b00327c8a831c66d983e515276f988da5cb0a9dc4a7484aa2de92c6f240ca1cc0fc19dc6efbe4786e49b69c1c19bf1749bdc06a780deb1fe72be5d74550c7dc3243185be12835b01d807aa98ab1c5ed5923f82a459f111f13956c25be9b5dba5b5c0fbcf71374491428a2f98

/-- The initial hash value, word `i` in bits 32i+31 : 32i. -/
def shaInit : Nat := 0x5be0cd191f83d9ab9b05688c510e527fa54ff53a3c6ef372bb67ae856a09e667

/-- Word `i` of a table of words. -/
def shaWord (t i : Nat) : BitVec 32 := BitVec.ofNat 32 (t >>> (32 * i))

/-- The eight working variables a to h. -/
structure ShaVars where
  a : BitVec 32
  b : BitVec 32
  c : BitVec 32
  d : BitVec 32
  e : BitVec 32
  f : BitVec 32
  g : BitVec 32
  h : BitVec 32
  deriving DecidableEq, Repr

/-- A round with its constant and its schedule word. -/
def ShaVars.round (v : ShaVars) (k w : BitVec 32) : ShaVars :=
  let big1 := v.e.rotateRight 6 ^^^ v.e.rotateRight 11 ^^^ v.e.rotateRight 25
  let choose := (v.e &&& v.f) ^^^ (~~~v.e &&& v.g)
  let t1 := v.h + big1 + choose + k + w
  let big0 := v.a.rotateRight 2 ^^^ v.a.rotateRight 13 ^^^ v.a.rotateRight 22
  let major := (v.a &&& v.b) ^^^ (v.a &&& v.c) ^^^ (v.b &&& v.c)
  { a := t1 + big0 + major, b := v.a, c := v.b, d := v.c, e := v.d + t1, f := v.e, g := v.f, h := v.g }

/-- The schedule word after a window of sixteen. -/
def shaNext (w : List (BitVec 32)) : BitVec 32 :=
  let x := w.getD 14 0
  let y := w.getD 1 0
  (x.rotateRight 17 ^^^ x.rotateRight 19 ^^^ (x >>> 10)) + w.getD 9 0 + (y.rotateRight 7 ^^^ y.rotateRight 18 ^^^ (y >>> 3)) + w.getD 0 0

/-- Rounds to come, from round `i` on, with the window of schedule words. -/
def shaRounds : Nat → Nat → List (BitVec 32) → ShaVars → ShaVars
  | 0, _, _, v => v
  | n + 1, i, w, v => shaRounds n (i + 1) (w.drop 1 ++ [shaNext w]) (v.round (shaWord shaTable i) (w.getD 0 0))

/-- A block of 16 words taken into the hash value. -/
def ShaVars.block (v : ShaVars) (w : List (BitVec 32)) : ShaVars :=
  let u := shaRounds 64 0 w v
  { a := v.a + u.a, b := v.b + u.b, c := v.c + u.c, d := v.d + u.d, e := v.e + u.e, f := v.f + u.f, g := v.g + u.g, h := v.h + u.h }

/-- A message padded: 0x80, zeros, and its length in bits as eight bytes, the most significant first. -/
def shaPad (m : List (BitVec 8)) : List (BitVec 8) :=
  m ++ ((0x80 : BitVec 8) :: List.replicate ((119 - m.length % 64) % 64) 0) ++ (List.range 8).map (fun i => BitVec.ofNat 8 ((8 * m.length) >>> (8 * (7 - i))))

/-- The sixteen words at the front of a message. -/
def shaWords (m : List (BitVec 8)) : List (BitVec 32) :=
  (List.range 16).map (fun i => m.getD (4 * i) 0 ++ m.getD (4 * i + 1) 0 ++ m.getD (4 * i + 2) 0 ++ m.getD (4 * i + 3) 0)

/-- The blocks of a padded message. -/
def shaBlocks : Nat → List (BitVec 8) → ShaVars → ShaVars
  | 0, _, v => v
  | n + 1, m, v => shaBlocks n (m.drop 64) (v.block (shaWords (m.take 64)))

/-- SHA-256 of a message. -/
def sha256 (m : List (BitVec 8)) : BitVec 256 :=
  let p := shaPad m
  let v := shaBlocks (p.length / 64) p
    { a := shaWord shaInit 0, b := shaWord shaInit 1, c := shaWord shaInit 2, d := shaWord shaInit 3, e := shaWord shaInit 4, f := shaWord shaInit 5,
      g := shaWord shaInit 6, h := shaWord shaInit 7 }
  v.a ++ v.b ++ v.c ++ v.d ++ v.e ++ v.f ++ v.g ++ v.h

end Sys2Proof.Machine
end

