-- ==== Sys2Proof/Machine/Camp.lean ====
section
/-! DEFINITION. Base Camp (spec/11 R280, R281, R288, R291, R296 to R303; spec/13 R343, R353; spec/14 R374 to R377; spec/16 R424 to R427): its pairs,
and the mailbox commands of the common units. -/

namespace Sys2Proof.Machine

/-- A run of the verify engine counted (spec/11 R299, R303). -/
def State.countVerify (s : State) (good : Bool) : State :=
  s.modCamp (fun c => { c with verifyRuns := c.verifyRuns + 1, verifyBad := if good then c.verifyBad else c.verifyBad + 1, lastVerify := good })

/-- SIGNATURE_VERIFY_DONE: the engine answers for its inputs (spec/11 R299). -/
def execSignatureVerifyDone (e r s x y : BitVec 256) (st : State) : Host.Outcome State Fault Refusal :=
  ok (if st.running then st.countVerify (ecdsaValid e r s x y) else st)

/-- The fields of an image's header (spec/11 R293). -/
def imgMagic (i : Image) : BitVec 32 := field i.header 0 32
def imgLevel (i : Image) : BitVec 16 := field i.header 32 16
def imgKeyId (i : Image) : BitVec 8 := field i.header 48 8
def imgVersion (i : Image) : BitVec 32 := field i.header 64 32
def imgSecVersion (i : Image) : BitVec 32 := field i.header 96 32
def imgCodeLength (i : Image) : BitVec 32 := field i.header 128 32
def imgImportFrom (i : Image) : BitVec 32 := field i.header 160 32
def imgReservedZero (i : Image) : Bool := field i.header 56 8 == 0 && field i.header 192 320 == 0

/-- CODE_LENGTH in form: a multiple of 64, at most a limit (spec/11 R293, R298). -/
def imgCodeOk (i : Image) (most : Nat) : Bool := (imgCodeLength i).toNat % 64 = 0 && decide ((imgCodeLength i).toNat ≤ most)

/-- What an image's signature covers: SHA-256 over the header, then CODE_LENGTH bytes of CODE (spec/11 R293). -/
def imgDigest (i : Image) : BitVec 256 :=
  let n := (imgCodeLength i).toNat
  sha256 ((List.range 64).map (fun k => (field i.header (8 * k) 8 : BitVec 8)) ++ i.code.take n ++ List.replicate (n - i.code.length) 0)

/-- An image's signature under the boot ROM's key (spec/11 R293, R299); a KEY_ID above 1 names no key. -/
def imgSigned (rom : Rom) (i : Image) : Bool :=
  let k := if imgKeyId i == 1 then rom.key1 else rom.key0
  decide ((imgKeyId i).toNat < 2) && ecdsaValid (imgDigest i) i.r i.s k.x k.y

/-- A pair's executing state, and its OK bit (spec/11 R281, spec/13 R365). -/
def Camp.setExec (c : Camp) (b v : Bool) : Camp := if b then { c with execB := v } else { c with execA := v }
def Camp.setOk (c : Camp) (b v : Bool) : Camp := if b then { c with bOk := v } else { c with aOk := v }
def Camp.execOf (c : Camp) (b : Bool) : Bool := if b then c.execB else c.execA

/-- The NO_STANDBY cairn (spec/13 R353, R359): its unit is the surviving pair. -/
def State.noStandby (s : State) (b : Bool) : State := s.degrade (.other 0x80000) 13 ((bit b).setWidth 16) 6

/-- The commands that ran and had not committed are answered BUSY_RETRY with FAILOVER = 1 (spec/11 R288): those that compact the pinned store. -/
def State.dropJobs (s : State) : State :=
  foldList (fun (j : PinJob) s => s.finishSlot j.mbox j.slot (respWords j.req (status 1) true s.camp.execSeq)) s.xl.jobs
    (s.modXl (fun x => { x with jobs := [], moving := none }))

/-- A unit whose test does not run to its end is as it was before (spec/14 R368, R379): a Camp pair under test loads again. -/
def State.leaveTest (s : State) (t : UnitTest) : State :=
  let s := s.modCamp (fun c => { c with testing := none, standby := if t.kind = 3 then 2 else c.standby })
  match t.kind with
  | 0 => s.updRidge t.unit (fun x => { x with role := t.former })
  | 1 => s.updBel t.unit (fun x => { x with role := 2 })
  | 4 => if t.former = 0 then s.unfenceBank t.unit else s
  | _ => s

/-- A test that ran and had not committed is answered BUSY_RETRY with FAILOVER = 1 (spec/11 R288): the command had no effect. -/
def State.dropTest (s : State) : State :=
  match s.camp.testing with
  | some t => (s.leaveTest t).finishSlot t.mbox t.slot (respWords (s.slotAt t.mbox t.slot).req (status 1) true s.camp.execSeq)
  | none => s

/-- The answers that the failed pair owed carry FAILOVER = 1: their commands had committed (spec/11 R288). -/
def State.failover (s : State) : State :=
  let s := s.dropJobs.dropTest
  let s := s.modRat (fun r => { r with waiters := r.waiters.map (fun w => (w.1, w.2.1, w.2.2 ||| (1#512 <<< 40))) })
  let s := foldBelow 4 (fun q s => s.updQuad q (fun x => { x with waiters := x.waiters.map (fun w => (w.1, w.2.1, w.2.2 ||| (1#512 <<< 40))) })) s
  let s := s.modPwr (fun p => { p with save := match p.save with | .now w h => .now { w with failover := true } h | x => x })
  foldBelow 16 (fun k s => s.updLink k (fun l => { l with upWait := l.upWait.map (fun w => { w with failover := true }) })) s

/-- The mailboxes closed: no pair is left to serve them (spec/11 R297, spec/13 R353). -/
def State.closeMailboxes (s : State) : State := foldBelow 34 (fun m s => s.updMbx m (fun x => { x with isOpen := false })) s

/-- The mailboxes open. -/
def State.openMailboxes (s : State) : State := foldBelow 34 (fun m s => s.updMbx m (fun x => { x with isOpen := true })) s

/-- The staged image becomes the running one (spec/11 R297). -/
def State.runStaged (s : State) : State :=
  match s.camp.staged with
  | none => s
  | some x =>
    (s.modBoot (fun b => { b with fwVersion := x.version, secVersion := x.secVer, level := x.level })).modCamp (fun c => { c with staged := none })

/-- The active pair has failed (spec/11 R281, R288, R297; spec/13 R353). -/
def State.activeFails (s : State) (b : Bool) : State :=
  let s := s.modCamp (fun c => { (c.setExec b false).setOk b false with forced := false })
  if s.camp.standby.toNat ≤ 1 then
    ((s.runStaged).modCamp (fun c => { c with active := !b, standby := 3, takeovers := satInc c.takeovers, execSeq := c.copySeq })).failover.noStandby (!b)
  else
    let s := s.closeMailboxes.modRope (fun r => { r with noCampAt := some (r.noCampAt.getD s.clk.ticks) })
    if s.camp.standby == 2 || s.camp.standby == 4 then (s.modCamp (fun c => { c with active := !b })).failover else s

/-- The standby pair has failed: no pair is standby (spec/13 R353). -/
def State.standbyFails (s : State) (b : Bool) : State :=
  (s.modCamp (fun c => { (c.setExec b false).setOk b false with standby := 3, staged := none })).noStandby (!b)

/-- A fault of a Camp pair (spec/11 R280, spec/13 R336, R353, R357). -/
def State.campFault (s : State) (b : Bool) (detail : Nat) : State :=
  if !(s.running && s.camp.execOf b) then s
  else
    let unit : BitVec 16 := (bit b).setWidth 16
    let second := s.isSecond 0x15 13 unit
    let s := s.report (.other 0x80000) 0x15 13 unit 2 (BitVec.ofNat 32 detail)
    let s := if second then s.degrade (.other 0x80000) 13 unit 3 else s
    (if s.camp.active == b then s.activeFails b else s.standbyFails b).pumpAll

/-- CAMP_LOCKSTEP (spec/11 R280). -/
def execCampLockstep (b : Bool) (s : State) : Host.Outcome State Fault Refusal := ok (s.campFault b 0)

/-- CAMP_WATCHDOG_EXPIRY (spec/11 R280). -/
def execCampWatchdogExpiry (b : Bool) (s : State) : Host.Outcome State Fault Refusal := ok (s.campFault b 1)

/-- LOCK_LIMIT: Base Camp's lock stood too long; its sideband is forced absent until the takeover (spec/12 R327). -/
def execLockLimit (s : State) : Host.Outcome State Fault Refusal :=
  ok (if s.running && s.camp.executing then ((s.modCamp (fun c => { c with forced := true })).modArb (fun a => { a with lock := none })).campFault s.camp.active 2 else s)

/-- CAMP_LOAD_DONE: a loading pair becomes the shadowing standby, or the surviving pair itself once it has restarted; a failed load leaves
STANDBY_STATE 3 with DEGRADED (spec/11 R297, spec/13 R353). -/
def State.loadDone (s : State) (loaded : Bool) : State :=
  if s.camp.standby != 2 then s
  else if s.camp.executing then
    (if loaded then s.modCamp (fun c => { (c.setExec (!c.active) true).setOk (!c.active) true with standby := 0, copySeq := c.execSeq })
     else (s.modCamp (fun c => { c.setOk (!c.active) false with standby := 3 })).noStandby s.camp.active)
  else if loaded then
    ((s.modCamp (fun c => { (c.setExec c.active true).setOk c.active true with standby := 3 })).modRope (fun r => { r with noCampAt := none })).openMailboxes
  else s.modCamp (fun c => { c.setOk c.active false with standby := 3 })

/-- CAMP_LOAD_DONE. -/
def execCampLoadDone (loaded : Bool) (s : State) : Host.Outcome State Fault Refusal :=
  ok (if s.running then (s.loadDone loaded).pumpAll else s)

/-- STANDBY_READY (spec/11 R291). -/
def Camp.standbyReady (c : Camp) : Bool := decide (c.standby.toNat ≤ 1)

/-- HELLO's RESULT, from Tamri or from the boot ROM after a failed boot (spec/11 R291, R294). -/
def State.helloResult (s : State) (m : Nat) : BitVec 416 :=
  resPut 2 (BitVec.ofNat 8 m) ||| resPut 12 (0x42 : BitVec 8) ||| resPut 14 ((bit s.boot.entropy).setWidth 8) |||
    (if s.boot.failed then 0
     else
       resPut 0 s.boot.level ||| resPut 3 ((bit s.camp.active).setWidth 8) ||| resPut 4 s.boot.fwVersion ||| resPut 8 s.boot.secVersion |||
         resPut 13 ((bit s.camp.standbyReady).setWidth 8))

/-- HELLO (spec/11 R291): the boot ROM answers it too (R294). -/
def State.helloCmd (s : State) (m : Nat) : State :=
  match s.taken m with
  | none => s
  | some (i, r) =>
    if reqCode r != 0x0001 then s
    else
      let s := (s.takeSlot m i).commit m i
      s.answerSlot m i (if headerBad r && !s.boot.failed then badArg 0xFFFF else okWith (s.helloResult m))

/-- HELLO. -/
def execHello (m : Fin 34) (s : State) : Host.Outcome State Fault Refusal := ok (s.helloCmd m.val)

/-- The command codes of spec/11 R291. -/
def knownCodes : List (BitVec 16) :=
  [0x0001, 0x0010, 0x0012, 0x0020, 0x0021, 0x0022, 0x0023, 0x0024, 0x0025, 0x0026, 0x0030, 0x0040, 0x0041, 0x0042, 0x0043, 0x0044, 0x0050, 0x0051] ++
  [0x0060, 0x0061, 0x0062, 0x0063, 0x0064, 0x0070, 0x0071, 0x0072, 0x0073, 0x0080, 0x0081, 0x0090, 0x0091, 0x00A0, 0x00A1, 0x00F0]

/-- UNKNOWN_COMMAND: a code that R291 does not list returns UNSUPPORTED (spec/11 R289, R291). -/
def execUnknownCommand (m : Fin 34) (s : State) : Host.Outcome State Fault Refusal :=
  ok (s.commandOf m.val (fun c => !knownCodes.contains c) .any always (fun _ s => (status 8, s)))

/-- SNAPSHOT's RESULT: OBJECT, FLAGS, DATA (spec/11 R291). -/
def snapResult (object : BitVec 8) (suspect : Bool) (data : BitVec 416) : BitVec 416 :=
  resPut 0 object ||| resPut 1 ((bit suspect).setWidth 8) ||| ((data.setWidth 384).setWidth 416 <<< 32)

/-- Whether a guest may read the object (spec/11 R303). -/
def State.guestMayRead (s : State) (g : Nat) (object key0 : Nat) : Bool :=
  match object with
  | 0 => (s.devEntry (BitVec.ofNat 16 key0)).owner.toNat == g
  | 1 => (s.devEntry (BitVec.ofNat 16 key0)).owner.toNat == g
  | 3 => (s.vtAt key0).owner.toNat == g && (s.vtAt key0).defined
  | 4 => (s.grpAt key0).owner.toNat == g
  | _ => false

/-- The fields of SNAPSHOT that an object refuses (spec/11 R303, spec/12 R335, spec/13 R343). -/
def State.snapBad (s : State) (object : Nat) (a : BitVec 448) : Option Nat :=
  let key0 := (arg a 2 16).toNat
  let key1 := (arg a 4 32).toNat
  match object with
  | 1 => if 2 ^ (s.devEntry (arg a 2 16)).eventBits.toNat ≤ key1 then some 4 else none
  | 2 => if 16384 ≤ key0 then some 2 else none
  | 4 => if key0 = 0 then some 2 else none
  | 5 =>
    let act := key0 % 256
    let scope := key0 / 256
    if act = 0 || 10 < act || !actOk act scope key1 || 2 < scope then some 2
    else if key1 = 0xFFFF || !unitOk scope key1 then some 4 else none
  | 8 => if 384 ≤ key0 then some 2 else none
  | n => if 8 < n then some 0 else none

/-- The object's bytes and its SUSPECT flag (spec/11 R303). -/
def State.snapData (s : State) (object : Nat) (a : BitVec 448) : Bool × BitVec 416 :=
  let q : BitVec 16 := arg a 2 16
  let key0 := q.toNat
  match object with
  | 0 =>
    let d := s.devEntry q
    (s.xl.rewrites.contains (.device q), resWords 0 [d.words.1, d.words.2])
  | 1 =>
    let e := s.evtEntry q (arg a 4 20)
    (s.xl.rewrites.contains (.event q (arg a 4 20)), resWords 0 [e.words.1, e.words.2])
  | 2 => (false, resWords 0 [(s.pinnedAt key0).words.1, (s.pinnedAt key0).words.2])
  | 3 => ((s.vtAt key0).suspect, resPut 0 (s.vtAt key0).mapWord ||| (resWords 4 (s.vtAt key0).descriptor).setWidth 416)
  | 4 => (false, resPut 0 (s.grpAt key0).word)
  | 5 => (false, s.quotaData (key0 % 256) (key0 / 256) (arg a 4 16).toNat)
  | 6 => (false, s.contractData)
  | 7 => (false, s.campData)
  | _ => (false, resWords 0 (s.cairnAt key0).words)

/-- SNAPSHOT (spec/11 R303). -/
def State.snapshotCmd (s : State) (m : Nat) (a : BitVec 448) : Answer × State :=
  let object := (arg a 0 8).toNat
  let denied := match guestOf m with | some g => !s.guestMayRead g object (arg a 2 16).toNat | none => false
  if 8 < object then (badArg 0, s)
  else if denied then (status 4, s)
  else match s.snapBad object a with
    | some d => (badArg d, s)
    | none => let x := s.snapData object a; (okWith (snapResult (arg a 0 8) x.1 x.2), s)

/-- SNAPSHOT. -/
def execSnapshot (m : Fin 34) (s : State) : Host.Outcome State Fault Refusal :=
  ok (s.command m.val [0x0090] .any always (fun a s => s.snapshotCmd m.val a))

/-- Cairn records zeroed (spec/13 R343). -/
def State.clearCairns (s : State) (p : Nat → CairnRec → Bool) : State :=
  s.modCairn (fun c => { c with recs := c.recs.filter (fun r => !p r.1 r.2) })

/-- CAIRN_CLEAR (spec/13 R343). -/
def State.cairnClear (s : State) (m : Nat) (a : BitVec 448) : Answer × State :=
  let i := (arg a 0 16).toNat
  if i = 0xFFFF then (status 0, s.clearCairns (fun _ r => m = 0 || decide (r.sev.toNat < 3)))
  else if 384 ≤ i then (badArg 0, s)
  else if m ≠ 0 && decide (3 ≤ (s.cairnAt i).sev.toNat) then (status 4, s)
  else (status 0, s.clearCairns (fun k _ => k == i))

/-- CAIRN_CLEAR. -/
def execCairnClear (m : Fin 34) (s : State) : Host.Outcome State Fault Refusal :=
  ok (s.command m.val [0x0091] .ring01 always (fun a s => s.cairnClear m.val a))

/-- Slot `i`'s descriptor (spec/16 R424): fixed slot 0 resets to READ_RINGS 0b1111 and VALID. -/
def State.descAt (s : State) (i : Nat) : Desc := Tbl.get Desc.reset s.acc.slot i

/-- A descriptor written. -/
def State.setDesc (s : State) (i : Nat) (d : Desc) : State :=
  (s.modAcc (fun a => { a with slot := Tbl.set Desc.reset a.slot i d })).modXl (fun x => { x with rewrites := x.rewrites.filter (fun r => r != .slot i) })

/-- A fixed slot that ring 1 may set: a guest mailbox frame, or a ring 2 or ring 3 target frame (spec/11 R291). -/
def ring1Slot (i : Nat) : Bool := (18 ≤ i && i < 50) || (0x1000 ≤ i && i < 0x1800 && 2 ≤ i % 4)

/-- Whether an enabled pattern admits a master (spec/16 R425). -/
def Desc.admits (d : Desc) (m : BitVec 16) : Bool :=
  let p0 := bitAt d.w0 9
  let p1 := bitAt d.w0 10
  let hit (lo : Nat) : Bool := m &&& field d.w1 (lo + 16) 16 == field d.w1 lo 16 &&& field d.w1 (lo + 16) 16
  (!p0 && !p1) || (p0 && hit 0) || (p1 && hit 32)

/-- Whether two descriptors grant the same masters (spec/08 R210): by what their patterns in force admit, whichever way these are written; one that governs
grants otherwise than one that does not (DESIGN CHOICE, assumption log 59). -/
def Desc.sameMasters (d e : Desc) : Bool :=
  bitAt d.w0 8 == bitAt e.w0 8 && (List.range 65536).all (fun m => d.admits (BitVec.ofNat 16 m) == e.admits (BitVec.ofNat 16 m))

/-- What R427 finds wrong with a descriptor. -/
def descBad (i : Nat) (ring0 : Bool) (d : Desc) : List (Bool × Nat) :=
  let overlay := decide (16384 ≤ i)
  [(decide (16447 < i), 0), (field d.w0 11 53 != 0, 8), (!ring0 && (!bitAt d.w0 0 || !bitAt d.w0 4), 8),
   (!overlay && d.w2 != 0, 24), (!overlay && d.w3 != 0, 32), (field d.w2 26 38 != 0, 24), (field d.w3 26 38 != 0, 32),
   (overlay && field d.w2 0 3 != 0, 24), (overlay && field d.w3 0 3 != 7, 32),
   (overlay && decide ((field d.w3 0 26).toNat < (field d.w2 0 26).toNat), 24)]

/-- Whether a guest owns a virtual target or a device-table entry (spec/08 R210). -/
def State.ownsAnything (s : State) (g : Nat) : Bool :=
  s.vt.any (fun v => v.2.defined && v.2.owner.toNat == g) || s.xl.dev.any (fun d => d.2.owner.toNat == g)

/-- A guest mailbox zeroed: its queued commands are aborted (spec/08 R209, R210). -/
def State.zeroMailbox (s : State) (m : Nat) : State := s.updMbx m (fun x => { x with slots := [], order := [] })

/-- ACCESS_SLOT_SET (spec/16 R427, spec/08 R210). -/
def State.accessSlotSet (s : State) (m : Nat) (a : BitVec 448) : Answer × State :=
  let i := (arg a 0 16).toNat
  let d : Desc := { w0 := arg a 8 64, w1 := arg a 16 64, w2 := arg a 24 64, w3 := arg a 32 64, bad := false }
  if m ≠ 0 && decide (i ≤ 16447) && !ring1Slot i then (status 4, s)
  else match lowestBad (descBad i (m = 0) d) with
    | some x => (badArg x, s)
    | none =>
      if 18 ≤ i && i < 50 && !(s.descAt i).sameMasters d then
        (if s.ownsAnything (i - 18) then (status 4, s) else (status 0, (s.setDesc i d).zeroMailbox (i - 16)))
      else (status 0, s.setDesc i d)

/-- ACCESS_SLOT_SET. -/
def execAccessSlotSet (m : Fin 34) (s : State) : Host.Outcome State Fault Refusal :=
  ok (s.command m.val [0x00A0] .ring01 always (fun a s => s.accessSlotSet m.val a))

/-- The output of Rope input `i` (spec/11 R302). -/
def State.ropeOf (s : State) (i : Nat) : RopeOut := Tbl.get RopeOut.reset s.rope.map i

/-- ROPE_MAP (spec/11 R302). -/
def State.ropeMap (s : State) (a : BitVec 448) : Answer × State :=
  let input := (arg a 0 8).toNat
  let output := (arg a 1 8).toNat
  let result (s : State) : BitVec 416 := resPut 0 ((bit s.rope.locked).setWidth 8)
  if s.rope.locked then ((4, 0, result s), s)
  else match lowestBad [(decide (63 < input) && input != 0xFF, 0), (decide (15 < output) && output != 0xFF, 1), (argOver a 2 1 1, 2)] with
    | some d => ((5, BitVec.ofNat 16 d, result s), s)
    | none =>
      let o : RopeOut := if output = 0xFF then RopeOut.reset else { mapped := true, output := BitVec.ofNat 4 output }
      let inputs := if input = 0xFF then List.range 64 else [input]
      let s := s.modRope (fun r =>
        { r with map := foldList (fun i t => Tbl.set RopeOut.reset t i o) inputs r.map, locked := bitAt (arg a 2 8) 0 })
      (okWith (result s), s)

/-- ROPE_MAP. -/
def execRopeMap (m : Fin 34) (s : State) : Host.Outcome State Fault Refusal :=
  ok (s.command m.val [0x00A1] .ring0 always (fun a s => s.ropeMap a))

/-- FW_STAGE's checks 2 to 5, in order (spec/11 R296): the answer of the first that fails. -/
def State.stageFault (s : State) (a : BitVec 448) (i : Image) : Option Answer :=
  if (arg a 8 32).toNat ≠ 0x80 + (imgCodeLength i).toNat || (imgMagic i) != 0x524D4154 || !(imgReservedZero i) || !imgCodeOk i 196608 then some (badArg 8)
  else if (imgLevel i).toNat < 4 then some (8, 1, 0)
  else if s.boot.fwVersion.ult (imgImportFrom i) then some (8, 2, 0)
  else if (imgVersion i).ult s.boot.secVersion then some (4, 1, 0)
  else none

/-- FW_STAGE (spec/11 R296): the standby pair is shadowing again, or staged, before the answer. -/
def State.fwStage (s : State) (i : Image) (a : BitVec 448) : Answer × State :=
  if field (arg a 0 64) 0 6 != 0 then (badArg 0, s)
  else if s.camp.standby != 0 || s.camp.staged.isSome then (status 1, s)
  else match s.stageFault a i with
    | some r => (r, s)
    | none =>
      let s := s.countVerify (imgSigned s.rom i)
      if !(imgSigned s.rom i) then ((4, 2, 0), s.report (.other 0x80000) 0x16 13 ((bit (!s.camp.active)).setWidth 16) 2 6)
      else
        (okWith (resPut 0 (imgVersion i) ||| resPut 4 (imgSecVersion i) ||| resPut 8 (imgLevel i)),
         s.modCamp (fun c => { c with standby := 1, staged := some { version := (imgVersion i), secVer := (imgSecVersion i), level := (imgLevel i) } }))

/-- FW_STAGE. -/
def execFwStage (m : Fin 34) (img : Image) (s : State) : Host.Outcome State Fault Refusal :=
  ok (s.command m.val [0x0080] .ring0 always (fun a s => s.fwStage img a))

/-- The role passes to the standby pair at a command boundary; the former active pair loads in the background, or fails to (spec/11 R297,
spec/14 R379). -/
def State.handRole (s : State) (loads : Bool) : State :=
  let b := s.camp.active
  let s := (s.runStaged).modCamp (fun c => { (c.setExec b false).setOk b (loads && c.execOf b) with active := !b, standby := if loads then 2 else 3 })
  if loads then s else s.noStandby (!b)

/-- FW_ACTIVATE (spec/11 R297). -/
def State.fwActivate (s : State) (loads : Bool) (a : BitVec 448) : Answer × State :=
  match s.camp.staged with
  | none => (status 6, s)
  | some x =>
    if arg a 0 32 != x.version then (badArg 0, s)
    else
      let s := s.handRole loads
      ((if loads then 0 else 0x0A, 0, resPut 0 s.boot.fwVersion ||| resPut 4 ((bit s.camp.active).setWidth 8)), s)

/-- FW_ACTIVATE. -/
def execFwActivate (m : Fin 34) (loads : Bool) (s : State) : Host.Outcome State Fault Refusal :=
  ok (s.command m.val [0x0081] .ring0 always (fun a s => s.fwActivate loads a))

/-- The belays a command names: one, or all with 0xFFFF (spec/11 R291). -/
def belaysOf (b : Nat) : Option (List Nat) :=
  if b < 256 then some [b] else if b = 0xFFFF then some (List.range 256) else none

/-- BELAY_LOAD (spec/11 R298, spec/14 R375). -/
def State.belayLoad (s : State) (i : Image) (a : BitVec 448) : Answer × State :=
  let bad := (arg a 8 32).toNat ≠ 0x80 + (imgCodeLength i).toNat || (imgMagic i) != 0x48435450 || !(imgReservedZero i) || !imgCodeOk i 1024 || (imgImportFrom i) != 0
  match lowestBad [(field (arg a 0 64) 0 6 != 0, 0), (bad, 8), ((belaysOf (arg a 12 16).toNat).isNone, 12)] with
  | some d => (badArg d, s)
  | none =>
    let bs := (belaysOf (arg a 12 16).toNat).getD []
    if bs.any (fun b => (s.belAt b).pendSwitch) then (status 1, s)
    else
      let s := s.countVerify (imgSigned s.rom i)
      if !(imgSigned s.rom i) then ((4, 2, 0), s)
      else (okWith (resPut 0 (imgVersion i)),
        foldList (fun b s => s.updBel b (fun x => { x with inactive := true, inactiveVer := (imgVersion i) })) bs s)

/-- BELAY_LOAD. -/
def execBelayLoad (m : Fin 34) (img : Image) (s : State) : Host.Outcome State Fault Refusal :=
  ok (s.command m.val [0x0072] .ring0 always (fun a s => s.belayLoad img a))

/-- A belay's other bank made active (spec/14 R376, R378). -/
def Belay.switch (x : Belay) (forced : Bool) : Belay :=
  { x with bank := !x.bank, activeVer := x.inactiveVer, inactiveVer := x.activeVer, pendSwitch := false, forced := forced }

/-- Whether a cover of belay `b` can start (spec/14 R371). -/
def State.coverable (s : State) (b : Nat) : Bool := (s.belAt b).role == 0 && (s.belAt (b ^^^ 1)).role == 0

/-- BELAY_SWITCH with FORCE = 1 (spec/14 R377). -/
def State.forceSwitch (s : State) (b : Nat) : Answer × State :=
  let x := s.belAt b
  if !x.pendSwitch then (status 6, s)
  else if decide (s.clk.ticks < x.pendSince + 1000) || !s.coverable b then (status 1, s)
  else (status 0, s.updBel b (fun x => x.switch true))

/-- BELAY_SWITCH (spec/14 R376, R377). -/
def State.belaySwitch (s : State) (a : BitVec 448) : Answer × State :=
  let n := (arg a 0 16).toNat
  let force := bitAt (arg a 2 8) 0
  match lowestBad [((belaysOf n).isNone || (force && n = 0xFFFF), 0), (argOver a 2 1 1, 2)], belaysOf n with
  | none, some bs =>
    if force then s.forceSwitch n
    else if bs.any (fun b => !(s.belAt b).inactive) then (status 6, s)
    else (status 0, foldList (fun b s => s.updBel b (fun x =>
      { x with pendSwitch := true, pendSince := if x.pendSwitch then x.pendSince else s.clk.ticks })) bs s)
  | some d, _ => (badArg d, s)
  | none, none => (badArg 0, s)

/-- BELAY_SWITCH. -/
def execBelaySwitch (m : Fin 34) (s : State) : Host.Outcome State Fault Refusal :=
  ok (s.command m.val [0x0073] .ring0 always (fun a s => s.belaySwitch a))

/-- BANK_SWITCH: a serving belay whose pitch ends with SWITCH_PENDING set (spec/14 R376). -/
def execBankSwitch (b : Fin 256) (s : State) : Host.Outcome State Fault Refusal :=
  ok (let x := s.belAt b.val
      if s.running && x.pendSwitch && (x.role == 0 || x.role == 1) then s.updBel b.val (fun x => x.switch false) else s)

end Sys2Proof.Machine
end

