-- ==== Sys2Proof/Machine/TamriXlat.lean ====
section
/-! DEFINITION. The mailbox commands of translation (spec/04 R99 to R118; spec/09 R235 SRC_ROUTE and SRC_PRIO). -/

namespace Sys2Proof.Machine

/-- A position quiet under spec/13 R349. -/
def State.posQuiet (s : State) (p : Nat) : Bool := !s.posBusy p

/-- Every position quiet. -/
def State.allQuiet (s : State) : Bool := (List.range 4).all (fun p => s.posQuiet p)

/-- The class 2 handle of a requester and event. -/
def msgHandle (q : BitVec 16) (e : BitVec 20) : Handle := { cls := 2, req := q, evt := e }

/-- Pages of an event table: 2^EVENT_BITS entries of 16 bytes, at least 4 KiB (spec/04 R101). -/
def tablePages (bits : BitVec 5) : Nat := max 1 (2 ^ bits.toNat / 256)

/-- Pages that are being zeroed (spec/11 R449). -/
def State.zeroingPages (s : State) : Nat := s.boot.zeroing.foldl (fun n z => n + z.pages) 0

/-- Space of the table region taken: OK, BUSY_RETRY while what is free is being zeroed, or FULL (spec/04 R113, spec/08 R207). -/
def State.spaceStatus (s : State) (pages : Nat) : Option Answer :=
  if pages ≤ s.boot.tableFree then none
  else if pages ≤ s.boot.tableFree + s.zeroingPages then some (status 1)
  else some (status 2)

/-- Pages taken. -/
def State.takePages (s : State) (pages : Nat) : State := s.modBoot (fun b => { b with tableFree := b.tableFree - pages })

/-- An area of `lines` lines from a page on released for zeroing (spec/11 R449). -/
def State.releasePages (s : State) (act belay : Nat) (page : BitVec 40) (pages lines : Nat) (vt : Option (BitVec 16)) : State :=
  if pages = 0 then s
  else s.modBoot (fun b =>
    { b with zeroing := b.zeroing ++ [{ act := act, belay := belay, page := page, pages := pages, next := page ++ (0#7 : BitVec 7), left := lines, vt := vt }] })

/-- OWNER as a field: 0 to 31, or 0x3F (spec/04 R100, spec/07 R176). -/
def ownerOk (o : BitVec 8) : Bool := decide (o.toNat < 32) || o == 0x3F

/-- The event entries of a requester forgotten: its table is a new one, zeroed (spec/04 R102). -/
def State.newTable (s : State) (q : BitVec 16) : State :=
  s.modXl (fun x => { x with evt := x.evt.filter (fun e => e.1 / 1048576 != q.toNat) })

/-- A requester's device entry changed under R105: DRAM and cached line, its walks read again (spec/04 R105). -/
def State.commitDev (s : State) (q : BitVec 16) (e : DevEntry) : State :=
  let s := (s.storeDev q e).cancelWalks q none
  s.modXl (fun x => { x with rewrites := x.rewrites.filter (fun r => r != .device q) })

/-- The status of a command that has written a table entry: OK, or SUSPECT where the entry lies in a SUSPECT page (spec/11 R289, spec/13 R355). -/
def State.written (s : State) (r : Rewrite) (x : BitVec 416) : Answer := (if s.tableSuspect r then 7 else 0, 0, x)

/-- DEV_MAP's effect once its arguments stand (spec/04 R102, R113). With VALID = 0 the table and DEV_GEN stay. At the wrap of DEV_GEN the table is zeroed in
place, unless it is too small for the new EVENT_BITS (DESIGN CHOICE, assumption log 58: then a new one is allocated). -/
def State.devMapApply (s : State) (q : BitVec 16) (valid : Bool) (bits : BitVec 5) (ingress : BitVec 9) (owner : BitVec 6) : Answer × State :=
  let old := s.devEntry q
  let rises := valid && (!old.valid || old.eventBits != bits)
  let wraps := old.devGen == 0xFFFFFFFF
  let done (s : State) (e : DevEntry) : Answer × State :=
    let s := s.commitDev q e
    (s.written (.device q) (resPut 0 e.devGen ||| resPut 4 (e.evtBase ++ (0#12 : BitVec 12))), s)
  let e : DevEntry := { old with valid := valid, eventBits := bits, ingress := ingress, owner := owner }
  if old.pinned && (old.valid != valid || old.eventBits != bits) then (status 4, s)
  else if !rises then done s e
  else if wraps && tablePages bits ≤ old.pages then done (s.newTable q) { e with devGen := 1 }
  else match s.spaceStatus (tablePages bits) with
    | some a => (a, s)
    | none =>
      let a := s.drawAlloc
      let s := (a.2.takePages (tablePages bits)).releasePages 5 0 old.evtBase old.pages (128 * old.pages) none
      done (s.newTable q)
        { e with devGen := if wraps then 1 else old.devGen + 1, evtBase := a.1, pages := tablePages bits }

/-- DEV_MAP (spec/04 R113). -/
def State.devMap (s : State) (a : BitVec 448) : Answer × State :=
  let q := arg a 0 16
  match lowestBad [(reservedRequester q, 0), (decide (1 < (arg a 2 8).toNat), 2), (decide (20 < (arg a 3 8).toNat), 3),
      (arg a 5 8 &&& 0xFE != 0, 4), (!ownerOk (arg a 6 8), 6)] with
  | some d => (badArg d, s)
  | none => s.devMapApply q (bitAt (arg a 2 8) 0) (arg a 3 5) (arg a 4 9) (arg a 6 6)

def execDevMap (m : Fin 34) (s : State) : Host.Outcome State Fault Refusal :=
  ok (s.command m.val [0x0020] .ring01 (fun _ => s.allQuiet) (fun a s => s.devMap a))

/-- The route block at an ARGS offset (spec/11 R291). -/
def routeBlock (a : BitVec 448) (o : Nat) : Route :=
  { target := arg a (o + 4) 16, virt := bitAt (arg a o 8) 1, ring := field (arg a o 8) 2 2, prio := arg a (o + 1) 8, cgroup := arg a (o + 2) 16,
    vector := arg a (o + 6) 24, level := bitAt (arg a o 8) 0 }

/-- The conditions under which a route block is refused (spec/04 R113, spec/11 R448): each names FLAGS. -/
def routeBad (a : BitVec 448) (o : Nat) : List (Bool × Nat) :=
  let r := routeBlock a o
  [(field (arg a o 8) 4 4 != 0, o), (r.level && r.cgroup != 0, o), (!r.virt && decide (511 < r.target.toNat), o)]

/-- Whether a guest mailbox is kept out of a requester it does not own (spec/04 R113). -/
def State.guestDenied (s : State) (m : Nat) (q : BitVec 16) : Bool :=
  match guestOf m with | some g => (s.devEntry q).owner.toNat != g | none => false

/-- The route of an event entry that is mapped now. -/
def mappedRoute (d : DevEntry) (e : EvtEntry) : Option Route := if e.valid && d.valid && e.gen == d.devGen then some e.route else none

/-- An event entry changed under R105: DRAM, pinned copy, walks and cache line; the route's change reaches pending instances (spec/04 R105, R113;
spec/05 R133). -/
def State.commitEvt (s : State) (q : BitVec 16) (e : BitVec 20) (v : EvtEntry) : State :=
  let d := s.devEntry q
  let h := msgHandle q e
  let old := mappedRoute d (s.evtEntry q e)
  let t := old.bind (fun r => (s.destOf r).map (fun x => x.1))
  let s := s.storeEvt q e v
  let s := if d.pinned then s.setPinned (d.pinBase.toNat + e.toNat) (if v.valid then { v with pinned := true } else v) else s
  let s := ((s.cancelWalks q (some e)).cacheDropOne q e).modXl (fun x => { x with rewrites := x.rewrites.filter (fun r => r != .event q e) })
  match old, v.valid with
  | some o, true => s.routeChanged h t o v.route
  | _, _ => s

/-- Whether the block of a requester moves (spec/04 R111). -/
def State.blockMoves (s : State) (q : BitVec 16) : Bool := match s.xl.moving with | some (r, _) => r == q | none => false

/-- EVT_MAP (spec/04 R113): ownership first, then the requester, the arguments, the guest's virtual target, the move of its block. -/
def State.evtMap (s : State) (m : Nat) (a : BitVec 448) : Answer × State :=
  let q := arg a 0 16
  let d := s.devEntry q
  let r := routeBlock a 8
  let wrongVt := match guestOf m with | some g => r.virt && !((s.vtAt r.target.toNat).defined && (s.vtAt r.target.toNat).owner.toNat == g) | none => false
  if s.guestDenied m q then (status 4, s)
  else if !d.valid then (status 6, s)
  else match lowestBad (routeBad a 8 ++ [(decide (2 ^ d.eventBits.toNat ≤ (arg a 4 32).toNat), 4)]) with
    | some b => (badArg b, s)
    | none =>
      if wrongVt then (status 4, s)
      else if s.blockMoves q then (status 1, s)
      else
        let e : EvtEntry := { valid := true, pinned := false, route := r, gen := d.devGen, suspect := false }
        let s := (s.commitEvt q (arg a 4 20) e).evalAll
        (s.written (.event q (arg a 4 20)) (resPut 0 d.devGen), s)

def execEvtMap (m : Fin 34) (s : State) : Host.Outcome State Fault Refusal :=
  ok (s.command m.val [0x0021] .any (fun a => s.posQuiet (s.posOf (msgHandle (arg a 0 16) (arg a 4 20)))) (fun a s => s.evtMap m.val a))

/-- EVT_UNMAP (spec/04 R113). -/
def State.evtUnmap (s : State) (m : Nat) (a : BitVec 448) : Answer × State :=
  let q := arg a 0 16
  let d := s.devEntry q
  if s.guestDenied m q then (status 4, s)
  else if !d.valid then (status 6, s)
  else if 2 ^ d.eventBits.toNat ≤ (arg a 4 32).toNat then (badArg 4, s)
  else if s.blockMoves q then (status 1, s)
  else (let s := s.commitEvt q (arg a 4 20) EvtEntry.reset; (s.written (.event q (arg a 4 20)) 0, s))

def execEvtUnmap (m : Fin 34) (s : State) : Host.Outcome State Fault Refusal :=
  ok (s.command m.val [0x0022] .any (fun a => s.posQuiet (s.posOf (msgHandle (arg a 0 16) (arg a 4 20)))) (fun a s => s.evtUnmap m.val a))

/-- A block put into a list in ascending order of base. -/
def placeBlock (b : PinBlock) : List PinBlock → List PinBlock
  | [] => [b]
  | c :: rest => if b.base < c.base then b :: c :: rest else c :: placeBlock b rest

/-- The first free run of `n` entries, blocks in ascending order (spec/04 R111: first fit). -/
def firstFit (n : Nat) : Nat → List PinBlock → Option Nat
  | start, [] => if start + n ≤ 16384 then some start else none
  | start, b :: rest => if start + n ≤ b.base then some start else firstFit n (b.base + b.len) rest

/-- The longest free run (spec/04 R121). -/
def largestFree : Nat → List PinBlock → Nat
  | start, [] => 16384 - start
  | start, b :: rest => max (b.base - start) (largestFree (b.base + b.len) rest)

/-- Entries of the pinned store moved from one base to another. -/
def movePinned (t : Tbl EvtEntry) (old new len : Nat) : Tbl EvtEntry :=
  let kept := t.filter (fun e => decide (e.1 < old) || decide (old + len ≤ e.1))
  (t.filter (fun e => decide (old ≤ e.1) && decide (e.1 < old + len))).foldl (fun acc e => Tbl.set EvtEntry.reset acc (e.1 - old + new) e.2) kept

/-- The blocks with the room that a moving one takes: its old place and its new one (spec/04 R111). -/
def State.pinRuns (s : State) : List PinBlock :=
  s.xl.blocks.map (fun b => match s.xl.moving with
    | some (q, base) => if b.req == q then { b with base := base, len := b.base + b.len - base } else b
    | none => b)

/-- The locked line of a valley link in the device-table cache (spec/01 R26, spec/04 R106): it names the link's pinned block. -/
def linkEntry (base : Nat) : DevEntry := { DevEntry.reset with valid := true, pinned := true, pinBase := BitVec.ofNat 14 base }

/-- A block moved: its entries copied, and PIN_BASE switched in the locked device-table cache entry (spec/04 R111); a requester's device entry in DRAM
follows. -/
def State.moveBlockTo (s : State) (b : PinBlock) (base : Nat) : State :=
  let s := s.modXl (fun x =>
    { x with
      pinned := movePinned x.pinned b.base base b.len, moving := none,
      blocks := x.blocks.map (fun c => if c.req == b.req then { c with base := base } else c) })
  if reservedRequester b.req then
    (s.updLink (b.req.toNat % 16) (fun l => { l with cfg := l.cfg.map (fun c => { c with pinBase := BitVec.ofNat 14 base }) })).devFill b.req
      (linkEntry base) true
  else s.storeDev b.req { s.devEntry b.req with pinBase := BitVec.ofNat 14 base }

/-- The first block, in ascending order of PIN_BASE, below which entries are free, and where it goes (spec/04 R111). -/
def nextMove : Nat → List PinBlock → Option (PinBlock × Nat)
  | _, [] => none
  | start, b :: rest => if start < b.base then some (b, start) else nextMove (b.base + b.len) rest

/-- The store compacted at once, where a LINK_CONFIG that frees its own block finds no run after its steps (assumption log 58). -/
def State.compact (s : State) : Nat → State
  | 0 => s
  | n + 1 => match nextMove 0 s.xl.blocks with | some (b, base) => (s.moveBlockTo b base).compact n | none => s

/-- Whether a block of `n` entries needs a compaction: the free entries suffice and no free run does (spec/04 R111). -/
def State.pinCompacts (s : State) (n : Nat) : Bool := decide (s.pinnedUsed + n ≤ 16384) && (firstFit n 0 s.pinRuns).isNone

/-- Whether the store with a further block of `n` entries is admitted (spec/12 R314, R316). -/
def State.pinAdmits (s : State) (q : BitVec 16) (n : Nat) : Bool :=
  ((s.settleQuota 6 2 22).modXl (fun x => { x with blocks := placeBlock { req := q, base := 0, len := n } x.blocks })).admits

/-- A block of `n` entries for a requester, first fit; `none` where no run holds them (spec/04 R111, R112). -/
def State.allocPin (s : State) (q : BitVec 16) (n : Nat) : Option (Nat × State) :=
  if 16384 < s.pinnedUsed + n then none
  else
    let s := s.settleQuota 6 2 22
    (firstFit n 0 s.pinRuns).map (fun base =>
      (base, s.modXl (fun x => { x with blocks := placeBlock { req := q, base := base, len := n } x.blocks })))

/-- A requester's block given back and zeroed. -/
def State.freePin (s : State) (q : BitVec 16) : State :=
  let s := s.settleQuota 6 2 22
  match s.xl.blocks.find? (fun b => b.req == q) with
  | none => s
  | some b => s.modXl (fun x =>
      { x with
        blocks := x.blocks.filter (fun c => c.req != q), moving := if s.blockMoves q then none else x.moving,
        pinned := x.pinned.filter (fun e => decide (e.1 < b.base) || decide (b.base + b.len ≤ e.1)) })

/-- REQ_PIN of a requester that is mapped and not pinned (spec/04 R111 to R113). -/
def State.pinNow (s : State) (q : BitVec 16) : Answer × State :=
  let d := s.devEntry q
  let n := 2 ^ d.eventBits.toNat
  if 14 < d.eventBits.toNat || s.setLocked q || decide (16384 < s.pinnedUsed + n) then (status 2, s)
  else if !s.pinAdmits q n then (status 3, s.modRat (fun r => { r with overcommit := true }))
  else match s.allocPin q n with
    | none => (status 2, s)
    | some (base, s) =>
      let e := { d with pinned := true, pinBase := BitVec.ofNat 14 base }
      let rows := s.xl.evt.filter (fun r => r.1 / 1048576 == q.toNat && decide (r.1 % 1048576 < n))
      let s := foldList (fun (r : Nat × EvtEntry) s => s.setPinned (base + r.1 % 1048576) { r.2 with pinned := true }) rows s
      let s := ((s.storeDev q e).cancelWalks q none).devFill q e true
      (s.written (.device q) (resPut 0 (BitVec.ofNat 16 base) ||| resPut 2 (BitVec.ofNat 16 n)), s)

/-- REQ_PIN (spec/04 R113). -/
def State.reqPin (s : State) (a : BitVec 448) : Answer × State :=
  let q := arg a 0 16
  let d := s.devEntry q
  if !d.valid then (status 6, s)
  else if d.pinned then (okWith (resPut 0 (d.pinBase.setWidth 16) ||| resPut 2 (BitVec.ofNat 16 (2 ^ d.eventBits.toNat))), s)
  else s.pinNow q

/-- Whether a REQ_PIN compacts the store before it commits (spec/04 R111). -/
def State.reqCompacts (s : State) (a : BitVec 448) : Bool :=
  let q := arg a 0 16
  let d := s.devEntry q
  let n := 2 ^ d.eventBits.toNat
  d.valid && !d.pinned && decide (d.eventBits.toNat ≤ 14) && !s.setLocked q && s.pinCompacts n && s.pinAdmits q n

/-- A command that compacts the store is taken and runs in steps (spec/04 R111, spec/11 R290); any other is `els`. -/
def State.compactFirst (s : State) (m : Nat) (code : BitVec 16) (link : Bool) (ready needs : BitVec 448 → Bool) (els : State) : State :=
  match s.taken m with
  | none => els
  | some (i, r) =>
    if reqCode r == code && !headerBad r && !s.boot.failed && Issuers.ring01.allow m && ready (reqArgs r) && needs (reqArgs r) then
      (s.takeSlot m i).modXl (fun x => { x with jobs := x.jobs ++ [{ mbox := m, slot := i, link := link, req := r }] })
    else els

def execReqPin (m : Fin 34) (s : State) : Host.Outcome State Fault Refusal :=
  ok (s.compactFirst m.val 0x0023 false (fun _ => s.allQuiet) s.reqCompacts
    (s.command m.val [0x0023] .ring01 (fun _ => s.allQuiet) (fun a s => s.reqPin a)))

/-- REQ_UNPIN (spec/04 R113; spec/12 R315). -/
def State.reqUnpin (s : State) (a : BitVec 448) : Answer × State :=
  let q := arg a 0 16
  let d := s.devEntry q
  if reservedRequester q then (status 4, s)
  else if !d.pinned then (status 6, s)
  else
    let s0 := foldBelow 4 (fun p s => s.settleQuota 1 0 p) (s.settleQuota 6 2 22)
    let s' := (s0.freePin q).modRat (fun r => { r with unpins := r.unpins ++ [r.round + 4096] })
    if !({ s' with xl := s.xl } : State).admits then (status 3, s.modRat (fun r => { r with overcommit := true }))
    else
      let s' := s'.storeDev q { d with pinned := false, pinBase := 0 }
      let s' := s'.modXl (fun x => { x with devCache := x.devCache.map (fun l => if l.req == q then { l with locked := false } else l) })
      let s' := s'.cancelWalks q none
      (s'.written (.device q) 0, s')

def execReqUnpin (m : Fin 34) (s : State) : Host.Outcome State Fault Refusal :=
  ok (s.command m.val [0x0024] .ring01 (fun _ => s.allQuiet) (fun a s => s.reqUnpin a))

/-- One round of the Feistel bijection undone (spec/04 R107). -/
def feistelBack (k : BitVec 18) (p : BitVec 18 × BitVec 18) : BitVec 18 × BitVec 18 :=
  let f := (p.1 ^^^ k) * 0x2D4A3#18
  (p.2 ^^^ ((f <<< 7) ||| (f >>> 11)), p.1)

/-- The requester whose lines have a set and tag: the bijection undone (spec/04 R107). -/
def lineOwner (ckey : BitVec 72) (set : BitVec 13) (tag : BitVec 23) : BitVec 16 :=
  let p : BitVec 18 × BitVec 18 := (field tag 5 18, field tag 0 5 ++ set)
  let q := feistelBack (ckeyWord ckey 0) (feistelBack (ckeyWord ckey 1) (feistelBack (ckeyWord ckey 2) (feistelBack (ckeyWord ckey 3) p)))
  field q.1 2 16

/-- INVALIDATE (spec/04 R113): translation-cache lines of one handle, one requester, or all; the last two sweep every set (R115). -/
def State.invalidate (s : State) (m : Nat) (a : BitVec 448) : Answer × State :=
  let scope := (arg a 0 8).toNat
  let q := arg a 2 16
  if (guestOf m).isSome && (scope = 2 || s.guestDenied m q) then (status 4, s)
  else if 2 < scope then (badArg 0, s)
  else if scope = 2 then (status 0, s.modXl (fun x => { x with cache := [], sweep := true }))
  else if !(s.devEntry q).valid then (status 6, s)
  else if scope = 0 then (if 1048576 ≤ (arg a 4 32).toNat then (badArg 4, s) else (status 0, s.cacheDropOne q (arg a 4 20)))
  else (status 0, s.modXl (fun x =>
    { x with sweep := true, cache := x.cache.filter (fun l => l.epoch != x.epoch || lineOwner x.ckey l.set l.tag != q) }))

def execInvalidate (m : Fin 34) (s : State) : Host.Outcome State Fault Refusal :=
  ok (s.command m.val [0x0025] .any
    (fun a => if arg a 0 8 == 0 then s.posQuiet (s.posOf (msgHandle (arg a 2 16) (arg a 4 20))) else s.allQuiet)
    (fun a s => s.invalidate m.val a))

/-- The position that the present key gives to what an item carries (spec/01 R19). -/
def State.itemPos (s : State) (i : PItem) : Nat :=
  match i with
  | .record r => s.recPos r.record
  | .moved x _ => (match x.origin with | .handle h => s.posOf h | .doorbell v => v.toNat % 4)
  | .moveNotice h _ => s.posOf h
  | .rerank h _ _ => s.posOf h

/-- Everything a ridge still holds goes to the position the new key gives it, in the order in which it is held; walks are read again (spec/01 R19). -/
def State.handOver (s : State) : State :=
  let walks := s.xl.pos.foldr (fun q acc => q.walks ++ acc) []
  let waits := s.xl.pos.foldr (fun q acc => q.waits ++ acc) []
  let items := s.xl.pos.foldr (fun q acc => q.items ++ acc) []
  let s := foldBelow 4 (fun p s => s.updPos p (fun q =>
    { q with
      walks := walks.filter (fun w => s.posOf w.handle == p), waits := waits.filter (fun r => s.recPos r.item == p), egress := [], hold := [],
      parked := [], stuck := [] })) s
  let s := foldList (fun i s => s.toPlain (s.itemPos i) i) items s
  foldBelow 4 (fun p s => s.reissueWalks p) s

/-- The items of a ledge's queue that can cross do (spec/01 R19). -/
def State.crossLedge (s : State) (p l : Nat) : Nat → State
  | 0 => s
  | n + 1 =>
    match s.egressPick p [] (Tbl.get [] (s.posAt p).egress l) with
    | none => s
    | some i => (s.landItem p l i).crossLedge p l n

/-- Every record that a ridge can forward across the Plain crosses (spec/01 R19). -/
def State.crossAll (s : State) : State :=
  foldBelow 4 (fun p s => foldBelow 16 (fun l s => s.crossLedge p l ((s.posAt p).items.length)) s) s

/-- New keys drawn and applied in the stall (spec/01 R19, spec/04 R118): what can cross the Plain does, what a ridge still holds is handed over. -/
def State.rekeyNow (s : State) : State :=
  let n := s.crossAll.drawNoise
  let s := n.2.modXl (fun x =>
    { x with dkey := field n.1 0 38, ckey := field n.1 38 72, key0 := false, sweep := true, epoch := x.epoch + 1, rekeys := x.rekeys + 1 })
  s.handOver.evalAll

/-- Every position has a ridge: a REKEY waits for a takeover, as other commits do (spec/13 R349). -/
def State.served (s : State) : Bool := s.xl.pos.all (fun q => q.unserved.isNone)

/-- Whether a REKEY finds its conditions: ENTROPY_READY, no sweep, no handle marked moving (spec/04 R113, R118). -/
def State.mayRekey (s : State) : Bool := s.boot.entropy && !s.xl.sweep && !s.xl.pos.any (fun q => !q.moves.isEmpty)

/-- REKEY (spec/04 R113, R118). -/
def State.rekey (s : State) : Answer × State :=
  if !s.mayRekey then (status 1, s) else (let s := s.rekeyNow; (okWith (resPut 0 s.xl.rekeys), s))

def execRekey (m : Fin 34) (s : State) : Host.Outcome State Fault Refusal :=
  ok (s.command m.val [0x0026] .ring0 (fun _ => s.served) (fun _ s => s.rekey))

/-- SWEEP_DONE: the sweep that follows a REKEY has dropped the old lines (spec/04 R118). -/
def execSweepDone (s : State) : Host.Outcome State Fault Refusal :=
  ok (if s.running && s.xl.sweep then
        s.modXl (fun x => { x with sweep := false, cache := x.cache.filter (fun l => l.epoch == x.epoch) })
      else s)

/-- TAMRI_REWRITE: Tamri rewrites the oldest entry that failed twice; what waited for it goes on (spec/04 R104, spec/08 R193, spec/16 R426). -/
def execTamriRewrite (s : State) : Host.Outcome State Fault Refusal :=
  ok (if !(s.running && s.camp.executing) then s
      else match s.xl.rewrites with
        | [] => s
        | r :: rest =>
          let s := s.modXl (fun x => { x with rewrites := rest })
          match r with
          | .slot i => s.modAcc (fun a => { a with slot := Tbl.upd Desc.reset a.slot i (fun d => { d with bad := false }) })
          | .map _ | .pinned _ => s.releaseAllWaits.evalAll
          | .device _ => s.tableWrite r
          | .event _ _ => s.tableWrite r)

/-- A remote source's pinned entry. -/
def State.remoteEntry (s : State) (k src : Nat) : EvtEntry :=
  match (s.linkAt k).cfg with | some c => s.pinnedAt (c.pinBase.toNat + src) | none => EvtEntry.reset

/-- A remote source's route changed (spec/09 R226, R235; spec/05 R133). -/
def State.setRemote (s : State) (k src : Nat) (v : EvtEntry) : State :=
  match (s.linkAt k).cfg with
  | none => s
  | some c =>
    let old := s.remoteEntry k src
    let t := if old.valid then (s.destOf old.route).map (fun x => x.1) else none
    let s := s.setPinned (c.pinBase.toNat + src) v
    let s := if old.route.prio == 0 && v.route.prio != 0 then s.updLink k (fun l => { l with reassert := setBit l.reassert src true }) else s
    s.routeChanged (remoteHandle k src) t old.route v.route

/-- The checks that SRC_ROUTE and SRC_PRIO share: the link, then the arguments, SOURCE against its source count (spec/09 R235, spec/11 R448). -/
def State.remoteCheck (s : State) (link src : Nat) (bad : List (Bool × Nat)) : Option Answer :=
  let k := match (s.linkAt link).cfg with | some c => if c.col then none else some c.sources | none => none
  match lowestBad ([(decide (15 < link), 0), (match k with | some n => decide (n ≤ src) | none => false, 2)] ++ bad), k with
  | some d, _ => some (badArg d)
  | none, none => some (status 6)
  | none, some _ => none

/-- Whether the block of a link's remote sources moves: SRC_ROUTE and SRC_PRIO return BUSY_RETRY (spec/04 R111). -/
def State.linkMoves (s : State) (k : Nat) : Bool := s.blockMoves (BitVec.ofNat 16 (0xFF00 + k))

/-- SRC_ROUTE (spec/09 R235). -/
def State.srcRouteCmd (s : State) (a : BitVec 448) : Answer × State :=
  let k := (arg a 0 8).toNat
  let src := (arg a 2 16).toNat
  match s.remoteCheck k src (routeBad a 4) with
  | some r => (r, s)
  | none =>
    if s.linkMoves k then (status 1, s)
    else (status 0, (s.setRemote k src { valid := true, pinned := true, route := routeBlock a 4, gen := 0, suspect := false }).evalAll)

def execSrcRoute (m : Fin 34) (s : State) : Host.Outcome State Fault Refusal :=
  ok (s.command m.val [0x0010] .ring01 (fun a => s.posQuiet (s.posOf (remoteHandle (arg a 0 4).toNat (arg a 2 16).toNat))) (fun a s => s.srcRouteCmd a))

/-- SRC_PRIO (spec/09 R235). -/
def State.srcPrioCmd (s : State) (a : BitVec 448) : Answer × State :=
  let k := (arg a 0 8).toNat
  let src := (arg a 2 16).toNat
  match s.remoteCheck k src [] with
  | some r => (r, s)
  | none =>
    let e := s.remoteEntry k src
    if s.linkMoves k then (status 1, s)
    else (status 0, (s.setRemote k src { e with route := { e.route with prio := arg a 1 8 } }).evalAll)

def execSrcPrio (m : Fin 34) (s : State) : Host.Outcome State Fault Refusal :=
  ok (s.command m.val [0x0012] .ring01 (fun a => s.posQuiet (s.posOf (remoteHandle (arg a 0 4).toNat (arg a 2 16).toNat))) (fun a s => s.srcPrioCmd a))

end Sys2Proof.Machine
end

