-- ==== Sys2Proof/Machine/LinkDown.lean ====
section
/-! DEFINITION. What the links share (spec/09 R225 to R246; spec/10 R250, R269): going down, roles, the shadow and promotion. -/

namespace Sys2Proof.Machine

/-- The link that owns a lane (spec/10 R250). -/
def State.laneLink (s : State) (n : Nat) : Option Nat := firstBelow 16 (fun k => (s.linkAt k).lanes.contains n)

/-- The lanes of a link with their logical numbers, those not excluded (spec/10 R255, spec/14 R382). -/
def State.trains (s : State) (l : Link) : List (Nat × Nat) := (enumFrom 0 l.lanes).filter (fun p => !(s.laneAt p.2).excluded)

/-- Every lane of a link changed, but for excluded ones. -/
def State.updLanes (s : State) (k : Nat) (f : Lane → Lane) : State := foldList (fun p s => s.updLane p.2 f) (s.trains (s.linkAt k)) s

/-- STATE of a link, with LAST_CHANGE (spec/09 R247). -/
def State.setLinkState (s : State) (k : Nat) (st : BitVec 3) : State :=
  s.updLink k (fun l => { l with state := st, lastChange := if l.state == st then l.lastChange else s.now48 })

/-- A lane squelched (spec/10 R269). -/
def Lane.squelch (x : Lane) : Lane := { x with squelched := true, inUse := false, rxUse := false, locked := false, inj := 0 }

/-- The EOI entries of a flit (spec/09 R221), as the orphan list holds them. -/
def flitEois (f : BitVec 256) : List (BitVec 96) :=
  if field f 0 4 != 4 then []
  else ([field f 32 96, field f 128 96].filter (fun (e : BitVec 96) => field e 0 4 == 5)).map (fun e => eoiEntry (field e 4 12) true)

/-- A shadow record (spec/09 R241). -/
def State.shadowAt (s : State) (p src : Nat) : Shadow := Tbl.get Shadow.reset s.partner.shadow (p * 4096 + src)

/-- A shadow record changed. -/
def State.updShadow (s : State) (p src : Nat) (f : Shadow → Shadow) : State :=
  s.modPartner (fun x => { x with shadow := Tbl.upd Shadow.reset x.shadow (p * 4096 + src) f })

/-- BALANCE saturates (spec/09 R241). -/
def satBalance (n : Int) : Int := max (-32768) (min 32767 n)

/-- The block becomes STANDBY for a pair (spec/09 R242): DEMOTED, and its shadow is filled by a sync. -/
def State.toStandby (s : State) (p : Nat) (op : BitVec 4) : State :=
  let s := s.modPartner (fun x => { x with active := setBit x.active p false, syncQ := x.syncQ.filter (fun q => q != BitVec.ofNat 4 p) })
  let s := match s.pairLink p with | some k => s.updLink k (fun l => { l with demoted := true }) | none => s
  (s.sendRole op p).sendRole 1 p

/-- A pair relinquished, where the block is ACTIVE for it in a partnership (spec/09 R237, R242). -/
def State.relinquish (s : State) (p : Nat) : State :=
  if s.partner.everUp && bitAt s.partner.active p then s.toStandby p 0 else s

/-- The reason for which an authenticated link is held (spec/09 R231). -/
def State.heldFor (s : State) (l : Link) : Option (BitVec 4) :=
  if !l.isAuth then none
  else if !s.boot.entropy then some 7
  else if (l.key l.txSlot).isNone then some 8
  else none

/-- A link that is down is held while it has a reason (spec/09 R231, spec/11 R301), and no longer once it has none. -/
def State.settleHeld (s : State) (k : Nat) : State :=
  let l := s.linkAt k
  if l.state != 1 && l.state != 2 then s
  else match s.heldFor l with
    | some r => (s.setLinkState k 2).updLink k (fun l => { l with downReason := r })
    | none => s.setLinkState k 1

/-- A link goes down (spec/09 R228): its EOIs go to the orphan list, held entries are discarded, the lanes are squelched. -/
def State.linkFalls (s : State) (k : Nat) (reason : BitVec 4) : State :=
  let l := s.linkAt k
  let wasUp := l.state == 5
  let unsent := (l.tx.queue.filter (fun (e : BitVec 96) => field e 0 4 == 5)).map (fun e => eoiEntry (field e 4 12) true)
  let all := l.tx.replay.foldr (fun f acc => flitEois f ++ acc) [] ++ l.orphans ++ unsent
  let excess := all.length - 1024
  let s := (s.setLinkState k 1).updLink k (fun l =>
    { l with
      downReason := reason, wentDown := l.wentDown || wasUp, orphaned := l.orphaned || (wasUp && !l.isCol), releasing := false, snapWait := false,
      orphans := all.drop excess, orphanDrops := satAdd l.orphanDrops excess, orphOverflow := l.orphOverflow || decide (0 < excess), txIdle := false,
      rxIdle := false, owedShared := 0, sharedAvail := 0, noticeAvail := 0,
      tx := { l.tx with replay := [], queue := [], burst := [], ackOwed := false, reqOwed := false, expiries := 0 },
      rx := { l.rx with hold := [], authTimes := [], crcRun := 0 },
      train := { l.train with stage := .rest, lossAt := if wasUp then s.clk.ticks else l.train.lossAt, tries := if wasUp then 0 else l.train.tries } })
  let s := (s.updLanes k Lane.squelch).settleHeld k
  if l.isCol then s.modPartner (fun x => { x with notices := [], sync := none, syncQ := [], rxSync := none, abort := none }) else s

/-- A link goes down for a reason, with its cairn where it raises one (spec/09 R228), and an ACTIVE pair is relinquished (R242). -/
def State.linkGoesDown (s : State) (k : Nat) (reason : BitVec 4) (cause : Option (BitVec 8 × BitVec 32)) : State :=
  let wasUp := (s.linkAt k).state == 5
  let s := match cause with
    | some (c, d) => s.report (.other (0x90000 + k)) c 5 (BitVec.ofNat 16 k) 1 d
    | none => s
  let s := s.linkFalls k reason
  match (s.linkAt k).pairNo with
  | some p => if wasUp then s.relinquish p else s
  | none => s

/-- A SNAP_REQ sent (spec/09 R221, R227, R243). -/
def State.askSnapshot (s : State) (k : Nat) : State :=
  let id := (s.linkAt k).snapId + 1
  let e : BitVec 96 := (0#64 : BitVec 64) ++ id ++ (0#12 : BitVec 12) ++ (8#4 : BitVec 4)
  (s.updLink k (fun l => { l with snapId := id, snapWait := true, snapAsked := s.clk.ticks })).queueEntry k e

/-- A record that a link presents on a couloir input (spec/09 R222, R243). -/
def State.linkRec (s : State) (k src : Nat) (kind : RKind) (time : BitVec 48) (input : Nat) (raw : BitVec 96) : Rec :=
  { origin := .handle (remoteHandle k src), kind := kind, payload := 0, srcTime := s.stampTime time, input := input, arrival := 0, replayed := false,
    count := 0, unchecked := false, devGen := 0, wid := none, snap := false, written := false,
    raw := raw.setWidth 128, par := 0 }

/-- A link's record presented, counted in RECORDS (spec/09 R247). -/
def State.present (s : State) (k : Nat) (r : Rec) : State :=
  (s.updLink k (fun l => { l with records := l.records + 1 })).enqueue r

/-- One shadow record presented by a promotion (spec/09 R243 step 2): the state after, and whether a record was presented. -/
def State.presentShadow (s : State) (p k src : Nat) : Bool × State :=
  let x := s.shadowAt p src
  let n := (max x.balance 0).toNat + x.act
  let out (kind : RKind) (count : Nat) : Bool × State :=
    (true, s.present k { s.linkRec k src kind 0 9 0 with replayed := true, count := if 2 ≤ count then BitVec.ofNat 16 (min count 65535) else 0 })
  if (s.remoteEntry k src).route.level then (if x.asserted || 1 ≤ x.act then out .levelAssert 0 else (false, s))
  else if 1 ≤ n then out .event n
  else (false, s)

/-- A promotion (spec/09 R243). -/
def State.promote (s : State) (p k : Nat) : State :=
  let n := match (s.linkAt k).cfg with | some c => c.sources | none => 0
  let s := (s.modPartner (fun x => { x with active := setBit x.active p true })).updLink k (fun l => { l with promoted := true })
  let y := foldBelow n (fun i (a : Bool × State) => let b := a.2.presentShadow p k i; (a.1 || b.1, b.2)) (false, s)
  let s := if y.1 then y.2.degrade (.other 0x90010) 17 (BitVec.ofNat 16 p) 9 else y.2
  let s := s.modPartner (fun x => { x with shadow := x.shadow.filter (fun e => e.1 / 4096 != p) })
  let s := s.updLink k (fun l => { l with reassert := BitVec.allOnes 4096 })
  if (s.linkAt k).state == 5 then s.askSnapshot k else s

/-- A pair promoted, whatever its link (spec/09 R242, first row). -/
def State.promotePair (s : State) (p : Nat) : State := match s.pairLink p with | some k => s.promote p k | none => s

/-- A STANDBY pair promoted where its own link is up (spec/09 R242). -/
def State.tryPromote (s : State) (p : Nat) : State :=
  match s.pairLink p with
  | some k => if !bitAt s.partner.active p && (s.linkAt k).state == 5 then s.promote p k else s
  | none => s

/-- With the partner lost and the zone's last word that the peer is down, a STANDBY block promotes (spec/09 R242). -/
def State.lossPromote (s : State) (k : Nat) : State :=
  match (s.linkAt k).pairNo with
  | some p => if s.partner.lost && (s.linkAt k).peerUp == some false then s.tryPromote p else s
  | none => s

/-- LWCLK cycles as TCLK ticks at a rate code, rounded up (spec/10 R254: 2.56 ns at code 3, 6.4, 12.8, 25.6 ns). -/
def lwTicks (rate : BitVec 2) (n : Nat) : Nat :=
  ceilDiv (n * (if rate == 3 then 256 else if rate == 2 then 640 else if rate == 1 then 1280 else 2560)) 1000

/-- The logical lanes in use, counted (spec/10 R258). -/
def useCount (m : BitVec 4) : Nat := popBelow m 4

/-- The transmitter leaves idle: an exit burst, then NOPs only for 36 LWCLK cycles (spec/10 R264). -/
def State.wakeLink (s : State) (k : Nat) : State :=
  let s := s.updLink k (fun l => { l with txIdle := false })
  let s := foldList (fun n s => if (s.laneAt n).inUse then s.updLane n Lane.sendBurst else s) (s.linkAt k).lanes s
  foldBelow (9 * useCount (s.linkAt k).train.use) (fun _ s => s.sendPlain k 0 0) s

/-- A CAP flit (spec/09 R236). -/
def State.sendCap (s : State) (k : Nat) : State :=
  let l := s.linkAt k
  let c := l.cfg.getD LinkCfg.reset
  let pairs : BitVec 16 := BitVec.ofNat 16 ((List.range 16).foldl (fun n p => if (s.pairLink p).isSome then n + 2 ^ p else n) 0)
  let payload : BitVec 192 :=
    (1#8).setWidth 192 ||| ((bit c.col).setWidth 192 <<< 8) ||| ((bit c.auth).setWidth 192 <<< 9) |||
      ((bit (c.col && s.straps.senior)).setWidth 192 <<< 10) ||| (BitVec.ofNat 192 (if c.col then 0 else c.sources) <<< 16) |||
      (BitVec.ofNat 192 c.snapPeriod <<< 32) ||| (l.tx.salt.setWidth 192 <<< 48) ||| ((if c.col then pairs else 0).setWidth 192 <<< 72)
  (s.sendPlain k 2 payload).updLink k (fun l => { l with rx := { l.rx with capSentAt := s.clk.ticks } })

/-- Data flows on a link's lanes: CAP is exchanged (spec/09 R236, spec/10 R258). An authenticated link draws its salt (R232). -/
def State.startCap (s : State) (k : Nat) : State :=
  let l := s.linkAt k
  let d := if l.isAuth then (let n := s.drawNoise; (field n.1 0 20, n.2)) else ((0#20 : BitVec 20), s)
  let s := (d.2.setLinkState k 4).updLink k (fun l =>
    { l with
      tx := { LinkTx.reset with salt := d.1, sent := l.tx.sent, crcFlips := l.tx.crcFlips }, rx := LinkRx.reset, txIdle := false, rxIdle := false,
      train := { l.train with stage := .rest } })
  s.sendCap k

/-- An answer to LINK_UP (spec/09 R235, spec/11 R288). -/
def State.answerUp (s : State) (w : UpWait) (a : Answer) : State :=
  s.finishSlot w.mbox w.slot (respWords (s.slotAt w.mbox w.slot).req a w.failover w.seq)

/-- A link comes up (spec/09 R225 to R227, R230, R236, R237, R242, R245, R246). -/
def State.linkComesUp (s : State) (k : Nat) (salt : BitVec 20) : State :=
  let waits := (s.linkAt k).upWait
  let s := (s.setLinkState k 5).updLink k (fun l =>
    { l with
      cameUp := true, downReason := 0, lastActive := s.clk.ticks, snapWait := !l.isCol, snapAsked := s.clk.ticks, snapAt := s.clk.ticks,
      reassert := if l.isCol then l.reassert else BitVec.allOnes 4096, releasing := false, upWait := [], sharedAvail := if l.isCol then 62 else 0,
      noticeAvail := if l.isCol then 2 else 0, owedShared := 0,
      rx := { l.rx with capSeen := true, peerSalt := salt } })
  let s := foldList (fun w s => s.answerUp w (status 0)) waits s
  if (s.linkAt k).isCol then
    let s := s.modPartner (fun x => { x with everUp := true, hbSeen := false, lastHb := s.clk.ticks, notices := [], sync := none, syncQ := [], rxSync := none, abort := none })
    foldBelow 16 (fun p s => if (s.pairLink p).isSome && bitAt s.partner.active p then s.startSync p else s) s
  else
    match (s.linkAt k).pairNo with
    | some p => if bitAt s.partner.active p then s else (s.sendRole 1 p).lossPromote k
    | none => s

end Sys2Proof.Machine
end

