-- ==== Sys2Proof/Machine/LinkRx.lean ====
section
/-! DEFINITION. What the links receive (spec/09 R213 to R246): flits, acknowledgements, entries, notices, heartbeats, bursts. -/

namespace Sys2Proof.Machine

/-- Whether a flit's TYPE is one that the link receives (spec/09 R215): the others are handled as a CRC failure. -/
def Link.takes (l : Link) (type : BitVec 4) : Bool :=
  type == 0 || type == 2 || type == 4 || (type == 1 && l.isCol) || (type == 5 && l.isAuth)

/-- Whether a received flit counts as good (spec/09 R213, R216). -/
def Link.goodFlit (l : Link) (f : BitVec 256) : Bool := crc32 f 28 == field f 224 32 && l.takes (field f 0 4)

/-- A loss of lock on a lane (spec/10 R268). -/
def Lane.lolHit (x : Lane) (t : BitVec 48) : Lane := { x with lolSeen := true, lolCount := satInc x.lolCount, lolTime := t }

/-- A loss of signal on a lane (spec/10 R268). -/
def Lane.losHit (x : Lane) (t : BitVec 48) : Lane := { x with losSeen := true, losCount := satInc x.losCount, losTime := t }

/-- The bits of a set of lanes (spec/13 R342: lanes reporting, bit l). -/
def laneBits (l : List Nat) : BitVec 32 := l.foldl (fun m n => m ||| (1#32 <<< n)) 0

/-- A link's lanes on which it receives flits: those whose loss is its loss (spec/10 R266 to R268). -/
def State.usedLanes (s : State) (k : Nat) : List Nat := (s.linkAt k).lanes.filter (fun n => (s.laneAt n).rxUse)

/-- Framing is lost: every in-use lane signals LOL and the link goes down (spec/10 R267, R268). -/
def State.framingLost (s : State) (k : Nat) : State :=
  let used := s.usedLanes k
  let s' := foldList (fun n s => s.updLane n (fun x => x.lolHit s.now48)) used s
  s'.linkGoesDown k 2 (if (s.linkAt k).state == 5 then some (0x0C, laneBits used) else none)

/-- One more flit in a row has failed its CRC; the eighth loses lock (spec/10 R267). -/
def State.countBad (s : State) (k : Nat) : State :=
  let s := s.updLink k (fun l => { l with rx := { l.rx with crcRun := l.rx.crcRun + 1 } })
  if 8 ≤ (s.linkAt k).rx.crcRun then s.framingLost k else s

/-- A flit whose CRC failed (spec/09 R216): not counted in the settle after an exit burst (spec/10 R264); the eighth in a row loses lock (R267). -/
def State.badFlit (s : State) (k : Nat) : State :=
  if s.clk.ticks < (s.linkAt k).rx.settleEnd then s
  else (s.updLink k (fun l => { l with crcErrors := satInc l.crcErrors })).countBad k

/-- An acknowledgement is used where it lies in U to U + 255 (spec/09 R217): the flits it covers leave the replay buffer. -/
def State.useAck (s : State) (k : Nat) (a : BitVec 12) : State :=
  let l := s.linkAt k
  let ahead := (a - (l.tx.seq - BitVec.ofNat 12 l.tx.replay.length)).toNat
  if l.tx.replay.isEmpty || 256 ≤ ahead then s
  else
    (s.updLink k (fun l =>
      { l with
        lastActive := s.clk.ticks, rx := { l.rx with ackUsed := a },
        tx := { l.tx with replay := l.tx.replay.drop (ahead + 1), timer := s.clk.ticks, expiries := 0 } })).pump k

/-- The ticks that `n` flits take on a link: 4 LWCLK cycles a flit on one lane (spec/10 R264: 9·U flits in 36 cycles). -/
def Link.flitTicks (l : Link) (n : Nat) : Nat := lwTicks l.train.rateNow (ceilDiv (4 * n) (useCount l.train.use))

/-- Every unacknowledged flit sent again, as first sent (spec/09 R219). -/
def State.replayAll (s : State) (k : Nat) : State :=
  let flits := (s.linkAt k).tx.replay
  if flits.isEmpty then s
  else foldList (fun f s => s.sendLanes k f) flits (s.updLink k (fun l =>
    { l with
      flitsTx := l.flitsTx + BitVec.ofNat 64 flits.length, replays := satInc l.replays,
      tx := { l.tx with sent := flits.reverse ++ l.tx.sent, replayEnd := s.clk.ticks + l.flitTicks flits.length } }))

/-- A REPLAY_REQ: ignored while a replay runs (spec/09 R219). -/
def State.replayAsked (s : State) (k : Nat) : State := if s.clk.ticks < (s.linkAt k).tx.replayEnd then s else s.replayAll k

/-- A valley event or level change entered in the shadow of a STANDBY pair (spec/09 R241). -/
def State.shadowEntry (s : State) (p src : Nat) (kind : BitVec 4) : State :=
  s.updShadow p src (fun x =>
    if kind == 1 then { x with balance := satBalance (x.balance + 1) } else { x with asserted := kind == 3 })

/-- LEVEL_VIEW follows a level entry (spec/09 R226). -/
def State.viewEntry (s : State) (k src : Nat) (kind : BitVec 4) : State :=
  if kind == 1 then s else s.updLink k (fun l => { l with levelView := setBit l.levelView src (kind == 3) })

/-- The record kind of an EVENT, LEVEL_ASSERT or LEVEL_DEASSERT entry (spec/09 R222). -/
def entryKind (kind : BitVec 4) : RKind := if kind == 1 then .event else if kind == 3 then .levelAssert else .levelDeassert

/-- An EVENT, LEVEL_ASSERT or LEVEL_DEASSERT entry (spec/09 R222, R226, R237, R241); one without a time is stamped with that of its acceptance (R221). -/
def State.sourceEntry (s : State) (k : Nat) (c : LinkCfg) (at_ : BitVec 48) (e : BitVec 96) : State :=
  let kind := field e 0 4
  let src := (field e 4 12).toNat
  if c.sources ≤ src then s.linkRefuse (portUnit (16 + k)) k e 8
  else
    let s := s.viewEntry k src kind
    if s.activeFor k then s.present k (s.linkRec k src (entryKind kind) (if field e 16 48 == 0 then at_ else field e 16 48) 10 e)
    else s.shadowEntry c.pair.toNat src kind

/-- One bit of a snapshot (spec/09 R226, R241). -/
def State.snapBit (s : State) (k : Nat) (c : LinkCfg) (at_ : BitVec 48) (e : BitVec 96) (src : Nat) (v : Bool) : State :=
  if c.sources ≤ src || !(s.remoteEntry k src).route.level then s
  else
    let view := bitAt (s.linkAt k).levelView src
    let again := bitAt (s.linkAt k).reassert src
    let s := s.updLink k (fun l => { l with levelView := setBit l.levelView src v, reassert := setBit l.reassert src false })
    if !s.activeFor k then s.updShadow c.pair.toNat src (fun x => { x with asserted := v })
    else if v && (!view || again) then s.present k { s.linkRec k src .levelAssert at_ 10 e with snap := true }
    else if !v && view then s.present k { s.linkRec k src .levelDeassert at_ 10 e with snap := true }
    else s

/-- A SNAP entry (spec/09 R221, R226). -/
def State.snapEntry (s : State) (k : Nat) (c : LinkCfg) (at_ : BitVec 48) (e : BitVec 96) : State :=
  foldBelow 64 (fun j s => s.snapBit k c at_ e (64 * (field e 4 6).toNat + j) (bitAt e (32 + j))) s

/-- The zone's word on its link to the other chip (spec/09 R221, R242). -/
def State.peerWord (s : State) (k : Nat) (up : Bool) : State := (s.updLink k (fun l => { l with peerUp := some up })).lossPromote k

/-- A SNAP_END entry (spec/09 R221, R227, R230). -/
def State.snapEnd (s : State) (k : Nat) (e : BitVec 96) : State :=
  (s.updLink k (fun l =>
    { l with
      lastSnapId := field e 16 16, snapshots := satInc l.snapshots, snapAt := s.clk.ticks,
      snapWait := l.snapWait && !bitAt e 32, releasing := l.releasing || (bitAt e 32 && l.orphaned) })).peerWord k (bitAt e 33)

/-- An entry on a valley link (spec/09 R221). -/
def State.valleyEntry (s : State) (k : Nat) (c : LinkCfg) (at_ : BitVec 48) (e : BitVec 96) : State :=
  let kind := field e 0 4
  if kind == 0 then s
  else if kind == 1 || kind == 3 || kind == 4 then s.sourceEntry k c at_ e
  else if kind == 6 then s.snapEntry k c at_ e
  else if kind == 7 then s.snapEnd k e
  else if kind == 9 then s.peerWord k (bitAt e 4)
  else s.linkRefuse (portUnit (16 + k)) k e 4

/-- One shared credit consumed: returned with others, at once when 8 have gathered (spec/09 R245). -/
def State.oweShared (s : State) (k : Nat) : State :=
  let l := s.linkAt k
  if 8 ≤ l.owedShared + 1 then (s.updLink k (fun l => { l with owedShared := 0 })).queueEntry k (creditEntry (BitVec.ofNat 7 (l.owedShared + 1)) 0)
  else s.updLink k (fun l => { l with owedShared := l.owedShared + 1, owedAt := if l.owedShared = 0 then s.clk.ticks else l.owedAt })

/-- The credit of a notice: by its RSV bit (spec/09 R240, R245). -/
def State.noticeCredit (s : State) (k : Nat) (e : BitVec 96) : State :=
  if bitAt e 4 then s.queueEntry k (creditEntry 0 1) else s.oweShared k

/-- Whether the block keeps a shadow record of a source: STANDBY for its pair, of which it has the link (spec/09 R241). -/
def State.hasShadow (s : State) (p src : Nat) : Bool :=
  !bitAt s.partner.active p &&
  (match s.pairLink p with | some k => (match (s.linkAt k).cfg with | some c => decide (src < c.sources) | none => false) | none => false)

/-- A shadow record changed where the block keeps one. -/
def State.inShadow (s : State) (p src : Nat) (f : Shadow → Shadow) : State := if s.hasShadow p src then s.updShadow p src f else s

/-- CLAIM_NOTICE in the shadow (spec/09 R241). -/
def Shadow.claim (x : Shadow) (level : Bool) (count : Nat) : Shadow :=
  { x with balance := if level then x.balance else satBalance (x.balance - count), act := min 16 (x.act + 1) }

/-- SYNC RECORD in the shadow (spec/09 R241). -/
def Shadow.sync (x : Shadow) (pend act : Nat) (asserted : Bool) : Shadow :=
  { balance := satBalance (max x.balance pend), act := max x.act (min 16 act), asserted := x.asserted || asserted }

/-- One promoted instance of a source that is still pending leaves; its serials are acknowledged (spec/09 R243). -/
def State.withdrawPromoted (s : State) (h : Handle) : State :=
  match s.tgt.findSome? (fun t => (t.2.store.find? (fun x => x.isOf h && x.promoted)).map (fun x => (t.1, x))) with
  | some (t, x) => (s.removeInst t x).after t
  | none =>
    match s.vt.findSome? (fun v => (v.2.bivouac.find? (fun x => x.isOf h && x.promoted)).map (fun x => (v.1, x))) with
    | some (v, x) =>
      (((s.updVt v (fun m => { m with bivouac := dropFirst (fun y => y.serial == x.serial) m.bivouac })).groupNoPending x.group.toNat).ackAll x.serials).evalAll
    | none => s

/-- COMPLETE_NOTICE (spec/09 R241, R243). -/
def State.completeEntry (s : State) (p src : Nat) : State :=
  if bitAt s.partner.active p then (match s.pairLink p with | some k => s.withdrawPromoted (remoteHandle k src) | none => s)
  else s.inShadow p src (fun x => { x with act := x.act - 1 })

/-- A SYNC entry (spec/09 R240, R246): BEGIN while the junior's own sync runs aborts that sync. -/
def State.syncRx (s : State) (e : BitVec 96) : State :=
  let pair : BitVec 4 := field e 6 4
  match (field e 4 2).toNat with
  | 0 =>
    let s := s.modPartner (fun x => { x with rxSync := some pair })
    if s.straps.senior then s
    else (match s.partner.sync with
      | some y => s.modPartner (fun x => { x with sync := none, abort := some (y.pair, y.id), syncQ := y.pair :: x.syncQ })
      | none => s)
  | 1 => s.inShadow pair.toNat (field e 10 12).toNat (fun x => x.sync (field e 22 16).toNat (field e 38 5).toNat (bitAt e 43))
  | _ => s.modPartner (fun x => { x with rxSync := none })

/-- A ROLE entry (spec/09 R240, R242, R246). -/
def State.roleRx (s : State) (op : BitVec 4) (p : Nat) : State :=
  if op == 0 then s.tryPromote p
  else if op == 1 then (if bitAt s.partner.active p && (s.pairLink p).isSome then s.startSync p else s)
  else s

/-- An entry on the col link (spec/09 R221, R240). -/
def State.colRx (s : State) (k : Nat) (e : BitVec 96) : State :=
  match (field e 0 4).toNat with
  | 0 => s
  | 0xB => (s.inShadow (field e 5 4).toNat (field e 9 12).toNat (fun x => x.claim (bitAt e 21) (field e 22 16).toNat)).noticeCredit k e
  | 0xC => (s.completeEntry (field e 5 4).toNat (field e 9 12).toNat).noticeCredit k e
  | 0xD => ((s.syncRx e).oweShared k).pumpCol
  | 0xE => s.roleRx (field e 4 4) (field e 8 4).toNat
  | 0xF =>
    (s.updLink k (fun l =>
      { l with
        sharedAvail := min 62 (l.sharedAvail + (field e 4 7).toNat), noticeAvail := min 2 (l.noticeAvail + (field e 11 2).toNat) })).pumpCol
  | _ => s.updLink k (fun l => { l with refused := l.refused + 1 })

/-- One entry of a released flit that was accepted at a time. -/
def State.entryRx (s : State) (k : Nat) (at_ : BitVec 48) (e : BitVec 96) : State :=
  match (s.linkAt k).cfg with
  | none => s
  | some c => if c.col then s.colRx k e else s.valleyEntry k c at_ e

/-- The two entries of an ENTRY flit, in order (spec/09 R221). -/
def State.flitEntries (s : State) (k : Nat) (f : BitVec 256 × BitVec 48) : State :=
  if field f.1 0 4 == 4 then (s.entryRx k f.2 (field f.1 32 96)).entryRx k f.2 (field f.1 128 96) else s

/-- A valley link whose receive queue is full accepts no ENTRY flit: the zone's replay sends it again (spec/01 R29). -/
def State.queueFull (s : State) (k : Nat) : Bool :=
  let q := s.inqAt (linkQueue k)
  !q.isEmpty && decide (Config.linkQueueDepth ≤ q.length)

/-- A sequenced flit (spec/09 R216, R217). -/
def State.seqFlit (s : State) (k : Nat) (f : BitVec 256) : State :=
  let l := s.linkAt k
  let seq : BitVec 12 := field f 8 12
  let ahead := (seq - l.rx.expect).toNat
  if ahead = 0 then
    if field f 0 4 == 4 && s.queueFull k then s
    else
    let s := s.updLink k (fun l =>
      { l with
        flitsRx := l.flitsRx + 1,
        rx := { l.rx with
          expect := l.rx.expect + 1, xseq := l.rx.xseq + 1, asked := none, hold := if l.isAuth then l.rx.hold ++ [(f, s.now48)] else l.rx.hold } })
    if l.isAuth then s
    else (s.updLink k (fun l => { l with rx := { l.rx with released := seq }, tx := { l.tx with ackOwed := true } })).flitEntries k (f, s.now48)
  else if 2048 ≤ ahead then s.updLink k (fun l => { l with dupDiscards := satInc l.dupDiscards, tx := { l.tx with ackOwed := true } })
  else
    s.updLink k (fun l =>
      { l with
        oooDiscards := satInc l.oooDiscards, rx := { l.rx with asked := some l.rx.expect },
        tx := { l.tx with reqOwed := l.tx.reqOwed || l.rx.asked != some l.rx.expect } })

/-- Roles as a HEARTBEAT shows them (spec/09 R242): two ACTIVE, the junior demotes; none ACTIVE at link-up, the senior promotes, whatever its own link of the
pair. -/
def State.settleRoles (s : State) (peer : BitVec 16) (first : Bool) : State :=
  foldBelow 16 (fun p s =>
    if (s.pairLink p).isNone then s
    else if bitAt s.partner.active p then (if bitAt peer p && !s.straps.senior then s.toStandby p 2 else s)
    else if first && !bitAt peer p && s.straps.senior then s.promotePair p
    else s) s

/-- A HEARTBEAT (spec/09 R238, R242). -/
def State.heartbeat (s : State) (f : BitVec 256) : State :=
  let first := !s.partner.hbSeen
  let peer : BitVec 16 := field f 80 16
  (s.modPartner (fun x => { x with peerMask := peer, hbSeen := true, lastHb := s.clk.ticks, hbOk := true, lost := false })).settleRoles peer first

/-- The PAIR_MASK of the block (spec/09 R236). -/
def State.pairMask (s : State) : BitVec 16 :=
  BitVec.ofNat 16 ((List.range 16).foldl (fun n p => if (s.pairLink p).isSome then n + 2 ^ p else n) 0)

/-- Whether a CAP agrees with the link (spec/09 R236). -/
def State.capAgrees (s : State) (c : LinkCfg) (f : BitVec 256) : Bool :=
  field f 32 8 == 1 && bitAt f 40 == c.col && bitAt f 41 == c.auth &&
  (if c.col then bitAt f 42 != s.straps.senior && field f 104 16 == s.pairMask else (field f 48 16).toNat == c.sources)

/-- A CAP flit while CAP is exchanged (spec/09 R236). -/
def State.capFlit (s : State) (k : Nat) (f : BitVec 256) : State :=
  match (s.linkAt k).cfg with
  | none => s
  | some c => if s.capAgrees c f then s.linkComesUp k (field f 80 20) else s.linkGoesDown k 6 none

/-- A good flit on an up link (spec/09 R216). -/
def State.upFlit (s : State) (k : Nat) (f : BitVec 256) : State :=
  let type : BitVec 4 := field f 0 4
  let s := s.updLink k (fun l => { l with rx := { l.rx with crcRun := 0 } })
  let s := s.useAck k (field f 20 12)
  let s := if bitAt f 4 then s.replayAsked k else s
  if type == 1 then s.heartbeat f
  else if type == 4 || type == 5 then s.seqFlit k f
  else s

/-- The RATES of a link (spec/10 R260). -/
def ratesOf (r : BitVec 2) : BitVec 8 := BitVec.ofNat 8 (2 ^ (r.toNat + 1) - 1)

/-- The highest rate code below `n` in a set. -/
def highestRate (m : BitVec 8) : Nat → Option Nat
  | 0 => none
  | n + 1 => if bitAt m n then some n else highestRate m n

/-- The STEP flit that a link sends (spec/10 R260). -/
def Link.stepFlit (l : Link) : BitVec 256 :=
  flitOf (BitVec.ofNat 160 0 ++ ((0#7 : BitVec 7) ++ bit l.train.agreedTx) ++ l.train.chosen ++ ratesOf (l.cfg.getD LinkCfg.reset).rate ++ (1#8 : BitVec 8) ++
    (0xE#32 : BitVec 32))

/-- A STEP flit leaves (spec/10 R260). -/
def State.sendStep (s : State) (k : Nat) : State :=
  (s.updLink k (fun l => { l with tx := { l.tx with sent := l.stepFlit :: l.tx.sent } })).sendLanes k (s.linkAt k).stepFlit

/-- A good STEP flit from the peer (spec/10 R260, R261): CHOSEN and AGREED follow, and agreement at code 0 goes straight to CAP. -/
def State.stepRx (s : State) (k : Nat) (c : LinkCfg) (f : BitVec 256) : State :=
  let shared := ratesOf c.rate &&& field f 40 8
  match highestRate shared 4 with
  | none => s
  | some r =>
    let s := (s.updLink k (fun l =>
      { l with
        train := { l.train with
          peerRates := field f 40 8, chosen := BitVec.ofNat 8 r, agreedTx := l.train.agreedTx || field f 48 8 == BitVec.ofNat 8 r,
          agreedRx := l.train.agreedRx || bitAt f 56 } })).sendStep k
    let t := (s.linkAt k).train
    if t.agreedTx && t.agreedRx && r = 0 then s.startCap k else s

/-- A flit received while STEP flits are exchanged (spec/10 R260, R267): eight in a row that fail their CRC lose lock. -/
def State.stepIn (s : State) (k : Nat) (c : LinkCfg) (f : BitVec 256) : State :=
  if crc32 f 28 != field f 224 32 then s.countBad k
  else
    let s := s.updLink k (fun l => { l with rx := { l.rx with crcRun := 0 } })
    if field f 0 32 == 0xE && field f 32 8 == 1 then s.stepRx k c f else s

/-- A flit received on a link whose lanes carry data (spec/09 R216, R236; spec/10 R253): while CAP is exchanged only CAP is used. -/
def State.flitIn (s : State) (k : Nat) (f : BitVec 256) : State :=
  let l := s.linkAt k
  if l.rxIdle then s
  else
  let s := s.recvLanes k f
  if l.state == 3 && l.train.stage == .stepping then (match l.cfg with | some c => s.stepIn k c f | none => s)
  else if l.state == 4 then
    (if !l.goodFlit f then s.badFlit k
     else
       let s := s.updLink k (fun l => { l with rx := { l.rx with crcRun := 0 } })
       if field f 0 4 == 2 then s.capFlit k f else s)
  else if l.state == 5 then (if l.goodFlit f then s.upFlit k f else s.badFlit k)
  else s

/-- Whether a flit would be accepted as an ENTRY flit on an up link, so that it wakes a parked block (spec/15 R396). -/
def State.flitWakes (s : State) (k : Nat) (f : BitVec 256) : Bool :=
  let l := s.linkAt k
  l.state == 5 && !l.rxIdle && l.goodFlit f && field f 0 4 == 4 && field f 8 12 == l.rx.expect

/-- FLIT_RECEIVE: the link layer runs in PARK too, and an ENTRY flit wakes the block first (spec/15 R396). -/
def execFlitReceive (k : Fin 16) (flit : BitVec 256) (s : State) : Host.Outcome State Fault Refusal :=
  ok (if !s.linksAlive then s else if s.flitWakes k.val flit then s.unpark.flitIn k.val flit else s.flitIn k.val flit)

/-- The oldest burst held to its end: its ENTRY flits, its TAG flit, and what follows (spec/09 R232). -/
def takeBurst : List (BitVec 256 × BitVec 48) → Option (List (BitVec 256 × BitVec 48) × BitVec 256 × List (BitVec 256 × BitVec 48))
  | [] => none
  | f :: rest => if field f.1 0 4 == 5 then some ([], f.1, rest) else (takeBurst rest).map (fun b => (f :: b.1, b.2.1, b.2.2))

/-- Whether a burst verifies (spec/09 R232, R234). -/
def State.burstGood (s : State) (k : Nat) (flits : List (BitVec 256)) (tag : BitVec 256) (after : Nat) : Bool :=
  let l := s.linkAt k
  let slot := match flits with | f :: _ => bitAt f 5 | [] => bitAt tag 5
  let body (f : BitVec 256) : BitVec 224 := f.setWidth 224
  match l.key slot with
  | none => false
  | some key =>
    (field tag 160 8).toNat == flits.length &&
    gmac key (s.linkIV k false (l.rx.xseq - (after + 1))) (burstData (flits.map body) (body tag)) == field tag 32 128

/-- A burst that verifies is released with its entries (spec/09 R217, R232). -/
def State.releaseBurst (s : State) (k : Nat) (flits : List (BitVec 256 × BitVec 48)) (tag : BitVec 256) (rest : List (BitVec 256 × BitVec 48)) : State :=
  foldList (fun f s => s.flitEntries k f) flits
    (s.updLink k (fun l => { l with rx := { l.rx with hold := rest, released := field tag 8 12 }, tx := { l.tx with ackOwed := true } }))

/-- A burst that fails (spec/09 R234): nothing held is kept, so that the sender's replay delivers it again. -/
def State.failBurst (s : State) (k : Nat) : State :=
  let s := s.updLink k (fun l =>
    { l with
      authFails := satInc l.authFails, authFail := true, tx := { l.tx with reqOwed := true },
      rx := { l.rx with
        hold := [], xseq := l.rx.xseq - l.rx.hold.length, expect := l.rx.released + 1, asked := none,
        authTimes := s.clk.ticks :: l.rx.authTimes.filter (fun t => decide (s.clk.ticks < t + 100000)) } })
  let s := s.report (.other (0x90000 + k)) 0x0E 5 (BitVec.ofNat 16 k) 1 (s.linkAt k).authFails
  if 4 ≤ (s.linkAt k).rx.authTimes.length then s.linkGoesDown k 4 none else s

/-- BURST_VERIFY: the oldest complete burst (spec/09 R232, R234). -/
def execBurstVerify (k : Fin 16) (s : State) : Host.Outcome State Fault Refusal :=
  ok (if !(s.linksAlive && (s.linkAt k.val).state == 5 && (s.linkAt k.val).isAuth) then s
      else match takeBurst (s.linkAt k.val).rx.hold with
        | none => s
        | some b =>
          if s.burstGood k.val (b.1.map (fun f => f.1)) b.2.1 b.2.2.length then s.releaseBurst k.val b.1 b.2.1 b.2.2 else s.failBurst k.val)

end Sys2Proof.Machine
end

