-- ==== Sys2Proof/Machine/Train.lean ====
section
/-! DEFINITION. Quads, lanes and training (spec/10 R248 to R276). -/

namespace Sys2Proof.Machine

/-- Whether a quad is needed: a lane of a configured link, or one under test (spec/10 R249). -/
def State.quadNeeded (s : State) (q : Nat) : Bool :=
  (List.range 4).any (fun i => (s.laneLink (4 * q + i)).isSome || (s.laneAt (4 * q + i)).test != 0)

/-- The answers that waited for a quad's power-up are given (spec/10 R249). -/
def State.answerQuad (s : State) (q : Nat) : State :=
  foldList (fun (a : Nat × Nat × BitVec 512) s => s.finishSlot a.1 a.2.1 a.2.2) (s.quadAt q).waiters (s.updQuad q (fun x => { x with waiters := [] }))

/-- A quad that is no longer needed is powered down, and no command waits for its power-up any more (spec/10 R249). -/
def State.settleQuadPower (s : State) (q : Nat) : State :=
  if s.quadNeeded q then s
  else (s.answerQuad q).updQuad q (fun x => { x with powered := false, pllA := false, pllB := false, calDone := false })

/-- Whether a quad is ready for its lanes to train. -/
def Quad.ready (x : Quad) : Bool := x.powered && x.refOk && x.pllA && x.pllB

/-- A training attempt ends without data: the lanes are squelched until the next (spec/10 R259, R262, R269). -/
def State.attemptFails (s : State) (k : Nat) : State :=
  (((s.setLinkState k 1).updLink k (fun l =>
    { l with txIdle := false, rxIdle := false, train := { l.train with stage := .rest } })).updLanes k Lane.squelch).settleHeld k

/-- INFO.WIDTH of a width (spec/10 R256). -/
def widthCode (w : Nat) : BitVec 2 := if w = 4 then 2 else if w = 2 then 1 else 0

/-- The INFO that logical lane `j` of a link sends (spec/10 R256): the configured width until one is chosen. -/
def Link.info (l : Link) (j : Nat) (last : Bool) (count : BitVec 4) (idle : Bool) : BitVec 16 :=
  let w := if l.train.use == 0 then (l.cfg.getD LinkCfg.reset).width else useCount l.train.use
  infoWord j (widthCode w) l.train.locked (l.train.stage == .frozen || l.train.use != 0) last count idle

/-- Every lane of a link that is not squelched sends a training frame (spec/10 R255, R258, R263). -/
def State.sendFrames (s : State) (k : Nat) (last : Bool) (count : BitVec 4) (idle : Bool) : State :=
  let l := s.linkAt k
  foldList (fun (p : Nat × Nat) s =>
    if (s.laneAt p.2).squelched then s else s.updLane p.2 (fun x => x.sendTraining (l.info p.1 last count idle))) (s.trains l) s

/-- An attempt begins (spec/10 R255, R259, R260): every lane that trains sends frames; a link of width 4 starts at code 0. -/
def State.startAttempt (s : State) (k : Nat) (c : LinkCfg) : State :=
  let lanes := (s.trains (s.linkAt k)).map (fun p => p.2)
  let rate : BitVec 2 := if c.width = 4 then 0 else c.rate
  let s := (s.setLinkState k 3).updLink k (fun l =>
    { l with train := { Training.reset with stage := .locking, start := s.clk.ticks, lossAt := l.train.lossAt, tries := l.train.tries + 1, rateNow := rate } })
  let s := s.updLanes k (fun x => { x.squelch with polInv := false, narrow := false, rateNow := rate })
  (foldList (fun n s => s.updLane n (fun x => { x with squelched := false, attempts := satInc x.attempts, prbs := patternSeed 1 })) lanes s).sendFrames k false 0 false

/-- Whether nothing keeps an attempt waiting: the heartbeat runs, the quad is ready, no lane of the link is under test (spec/10 R269, R270, R273). -/
def State.mayTrain (s : State) (l : Link) (c : LinkCfg) : Bool :=
  s.rope.hbRunning && (s.quadAt c.quad.toNat).ready && !(s.trains l).isEmpty && (s.trains l).all (fun p => (s.laneAt p.2).test == 0)

/-- A link that is down or held, and wanted up, begins an attempt or is held (spec/09 R231; spec/10 R262). -/
def State.tryAttempt (s : State) (k : Nat) : State :=
  let l := s.linkAt k
  match l.cfg with
  | none => s
  | some c =>
    let s := s.settleHeld k
    if l.wantUp && (s.linkAt k).state == 1 && s.mayTrain l c then s.startAttempt k c else s

/-- The held links look again (spec/09 R231). -/
def State.resumeHeld (s : State) : State := foldBelow 16 (fun k s => if (s.linkAt k).state == 2 then s.tryAttempt k else s) s

/-- LINK_RETRY: an attempt's time has come, or MARK is found (spec/10 R262). -/
def execLinkRetry (k : Fin 16) (mark : Bool) (s : State) : Host.Outcome State Fault Refusal :=
  ok (let l := s.linkAt k.val
      match l.cfg with
      | none => s
      | some c =>
        if s.running && l.state == 1 && (mark || decide (l.train.lossAt + (l.train.tries + 1) * c.retry * 100 ≤ s.clk.ticks)) then s.tryAttempt k.val
        else s)

/-- Whether a lane counts as locked (spec/10 R257). -/
def State.lockCounts (s : State) (l : Link) (c : LinkCfg) (info : BitVec 16) (skew : Nat) : Bool :=
  decide ((field info 0 2).toNat < c.width) && field info 2 2 == widthCode c.width && decide (skew ≤ 64) &&
  !((s.trains l).any (fun p => (s.laneAt p.2).locked && field (s.laneAt p.2).info 0 2 == field info 0 2))

/-- LANE_LOCK: a lane's receiver locks in an attempt (spec/10 R257). -/
def execLaneLock (l : Fin 16) (info : BitVec 16) (inverted : Bool) (skew : Nat) (s : State) : Host.Outcome State Fault Refusal :=
  ok (match s.laneLink l.val with
      | none => s
      | some k =>
        let x := s.linkAt k
        match x.cfg with
        | none => s
        | some c =>
          if s.running && x.train.stage == .locking && decide (x.train.switchAt ≤ s.clk.ticks) &&
              (s.trains x).any (fun p => p.2 == l.val) && !(s.laneAt l.val).locked && s.lockCounts x c info skew then
            (s.updLane l.val (fun y =>
              { y with
                signal := true, locked := true, polInv := inverted, info := info, skew := skew,
                lockTicks := BitVec.ofNat 32 (s.clk.ticks - x.train.start) })).updLink k (fun x =>
              { x with train := { x.train with locked := setBit x.train.locked (field info 0 2).toNat true } })
          else s)

/-- The lanes in use (spec/10 R258): own and peer's frozen masks. -/
def useLanes (w : Nat) (own peer : BitVec 4) : BitVec 4 :=
  let usable := own &&& peer
  if w = 4 && usable == 0b1111 then 0b1111
  else if 2 ≤ w && usable &&& 0b0011 == 0b0011 then 0b0011
  else if w = 4 && usable &&& 0b1100 == 0b1100 then 0b1100
  else lowestBit usable

/-- The 16 countdown frames, COUNT 15 to 0, of the lanes in use (spec/10 R258). -/
def State.countDown (s : State) (k : Nat) : State := foldBelow 16 (fun i s => s.sendFrames k true (BitVec.ofNat 4 (15 - i)) false) s

/-- A lane in use begins its data: scrambler and precoder are seeded (spec/10 R252, R253). -/
def Lane.beginTx (x : Lane) (j : Nat) : Lane := { x with inUse := true, squelched := false, scr := scrSeed j, pre := 0 }

/-- A receiver in use awaits the first data symbol of the logical lane that it has locked on, whenever the peer's own countdown ends (spec/10 R257, R258). -/
def Lane.beginRx (x : Lane) : Lane := { x with rxUse := true, rxScr := scrSeed (field x.info 0 2).toNat, rxPre := 0 }

/-- Data begins on the lanes in use: stepping for a first lock at width 4, else CAP (spec/10 R258, R260, R261). The transmitters in use are those of
the logical lanes in `use`, the receivers those whose INFO.LANE is in it (R257). -/
def State.dataBegins (s : State) (k : Nat) (c : LinkCfg) (use : BitVec 4) : State :=
  let s := s.updLink k (fun l => { l with train := { l.train with use := use }, rx := { l.rx with crcRun := 0 } })
  let narrow := decide (useCount use < c.width)
  let lanes := (s.trains (s.linkAt k))
  let s := foldList (fun (p : Nat × Nat) s => if bitAt use p.1 then s else s.updLane p.2 (fun x => { x with squelched := true })) lanes s
  let s := s.countDown k
  let s := foldList (fun (p : Nat × Nat) s => if bitAt use p.1 then s.updLane p.2 (fun x => x.beginTx p.1) else s) lanes s
  let s := foldList (fun (p : Nat × Nat) s =>
    s.updLane p.2 (fun x => if x.locked && bitAt use (field x.info 0 2).toNat then x.beginRx else x)) lanes s
  let s := foldList (fun n s => s.updLane n (fun x => { x with narrow := narrow })) c.lanes s
  if c.width = 4 && !(s.linkAt k).train.stepped then
    (s.updLink k (fun l => { l with train := { l.train with stage := .stepping, chosen := 0xFF } })).sendStep k
  else s.startCap k

/-- The lanes switch to a rate: squelched for 10 µs, then they train again (spec/10 R261). -/
def State.switchRate (s : State) (k : Nat) (rate : BitVec 2) : State :=
  let lanes := (s.trains (s.linkAt k)).map (fun p => p.2)
  let s := s.updLink k (fun l =>
    { l with
      train := { l.train with
        stage := .locking, stepped := true, switchAt := s.clk.ticks + 1000, rateNow := rate, locked := 0, use := 0 } })
  let s := s.updLanes k (fun x => { x.squelch with rateNow := rate })
  foldList (fun n s => s.updLane n (fun x => { x with squelched := false })) lanes s

/-- A step of the rate fails: the next lower code that both ends' RATES allow, or the attempt fails at code 0 (spec/10 R261). -/
def State.fallBack (s : State) (k : Nat) : State :=
  let l := s.linkAt k
  match highestRate (ratesOf (l.cfg.getD LinkCfg.reset).rate &&& l.train.peerRates) l.train.rateNow.toNat with
  | some r => s.switchRate k (BitVec.ofNat 2 r)
  | none => s.attemptFails k

/-- Both ends have frozen their masks (spec/10 R258): the lanes in use follow, or the attempt fails, a stepped one back to a lower rate (R261). -/
def State.chooseLanes (s : State) (k : Nat) (c : LinkCfg) (peerLocked : BitVec 4) : State :=
  let t := (s.linkAt k).train
  let use := useLanes c.width t.locked peerLocked
  if use == 0 then (if t.stepped then s.fallBack k else s.attemptFails k) else s.dataBegins k c use

/-- The INFO of the peer's logical lane `j`, of those LOCK_FREEZE brings. -/
def peerInfo (peer : BitVec 64) (j : Nat) : BitVec 16 := field peer (16 * j) 16

/-- Whether READY has come from the peer on every lane that a mask holds (spec/10 R258). -/
def peerReady (locked : BitVec 4) (peer : BitVec 64) : Bool := (List.range 4).all (fun j => !bitAt locked j || bitAt (peerInfo peer j) 8)

/-- The peer's frozen mask, from its INFO on the lowest locked lane (spec/10 R256). -/
def peerMask (locked : BitVec 4) (peer : BitVec 64) : BitVec 4 :=
  match (List.range 4).find? (fun j => bitAt locked j) with | some j => field (peerInfo peer j) 4 4 | none => 0

/-- LOCK_FREEZE: every lane has locked, or 100 µs have passed: the mask is frozen and READY is sent. With READY from the peer on every locked lane, the lanes
in use follow from both masks (spec/10 R258). `peer` holds the INFO words last received from the peer's logical lanes. -/
def execLockFreeze (k : Fin 16) (peer : BitVec 64) (s : State) : Host.Outcome State Fault Refusal :=
  ok (let l := s.linkAt k.val
      match l.cfg with
      | none => s
      | some c =>
        let all := (s.trains l).all (fun p => (s.laneAt p.2).locked) && decide ((s.trains l).length = c.width)
        let due := all || decide (max l.train.start l.train.switchAt + 10000 ≤ s.clk.ticks)
        if !(s.running && l.state == 3 && (l.train.stage == .frozen || (l.train.stage == .locking && due))) then s
        else
          let s := if l.train.stage == .frozen then s
            else (s.updLink k.val (fun l => { l with train := { l.train with stage := .frozen } })).sendFrames k.val false 0 false
          if peerReady l.train.locked peer then s.chooseLanes k.val c (peerMask l.train.locked peer) else s)

/-- TRAINING_TIMEOUT: an attempt without data after 400 µs fails (spec/10 R259). -/
def execTrainingTimeout (k : Fin 16) (s : State) : Host.Outcome State Fault Refusal :=
  ok (let l := s.linkAt k.val
      if s.running && l.state == 3 && (l.train.stage == .locking || l.train.stage == .frozen) && !l.train.stepped && decide (l.train.start + 40000 ≤ s.clk.ticks) then
        s.attemptFails k.val
      else s)

/-- STEP_FLIT (spec/10 R260): on a link whose link layer runs it is a flit of a reserved TYPE. -/
def execStepFlit (k : Fin 16) (flit : BitVec 256) (s : State) : Host.Outcome State Fault Refusal :=
  ok (if s.linksAlive then s.flitIn k.val flit else s)

/-- RATE_STEP: AGREED has gone both ways for a rate above code 0 (spec/10 R261). -/
def execRateStep (k : Fin 16) (s : State) : Host.Outcome State Fault Refusal :=
  ok (let t := (s.linkAt k.val).train
      if s.running && t.stage == .stepping && t.agreedTx && t.agreedRx && t.chosen != 0 then
        (foldBelow 16 (fun _ s => s.sendStep k.val) s).switchRate k.val (t.chosen.setWidth 2)
      else s)

/-- RATE_STEP_TIMEOUT: no data within 500 µs of a switch; the next lower shared rate, or failure at code 0 (spec/10 R261). -/
def execRateStepTimeout (k : Fin 16) (s : State) : Host.Outcome State Fault Refusal :=
  ok (let l := s.linkAt k.val
      let t := l.train
      if s.running && l.state == 3 && (t.stage == .locking || t.stage == .frozen) && t.stepped && decide (t.switchAt + 50000 ≤ s.clk.ticks) then
        s.fallBack k.val
      else s)

/-- What the loss of lanes in use does to their link (spec/10 R268): an up link goes down with one cairn, an attempt that has reached data fails. -/
def State.laneFails (s : State) (k : Nat) (reason : BitVec 4) (cause : BitVec 8) (lanes : List Nat) : State :=
  let l := s.linkAt k
  if l.state == 5 then s.linkGoesDown k reason (some (cause, laneBits lanes))
  else if l.state == 3 || l.state == 4 then s.attemptFails k
  else s

/-- Whether LOS is signalled on a lane (spec/10 R266). -/
def State.losSignalled (s : State) (n : Nat) : Bool :=
  match s.laneLink n with
  | none => (s.laneAt n).test != 0
  | some k => (s.laneAt n).rxUse && !(s.linkAt k).rxIdle && decide ((s.linkAt k).train.switchAt ≤ s.clk.ticks)

/-- The lanes of a mask in powered quads. -/
def State.poweredLanes (s : State) (m : BitVec 16) : List Nat := (List.range 16).filter (fun n => bitAt m n && (s.quadAt (n / 4)).powered)

/-- A lane that locked in an attempt loses lock before its mask is frozen (spec/10 R257). -/
def State.unlock (s : State) (n : Nat) : State :=
  let x := s.laneAt n
  match s.laneLink n with
  | none => s
  | some k =>
    if x.locked && !x.rxUse && (s.linkAt k).train.stage == .locking then
      s.updLink k (fun y => { y with train := { y.train with locked := setBit y.train.locked (field x.info 0 2).toNat false } })
    else s

/-- Losses of signal and of lock that arrive in one LWCLK cycle (spec/10 R268): each is counted, timed and flagged on its lane, and a link goes down once, with LOS where
one of its lanes lost signal. -/
def State.lanesLost (s : State) (los lol : List Nat) : State :=
  let used (k : Nat) (l : List Nat) : List Nat := l.filter (fun n => (s.usedLanes k).contains n)
  let t := foldList (fun n s => s.updLane n (fun x => x.losHit s.now48)) los s
  let t := foldList (fun n s => (s.unlock n).updLane n (fun x => { x.lolHit s.now48 with locked := false })) lol t
  foldBelow 16 (fun k t =>
    if !(used k los).isEmpty then t.laneFails k 1 0x0B (used k (los ++ lol))
    else if !(used k lol).isEmpty then t.laneFails k 2 0x0C (used k lol)
    else t) t

/-- LOS: the amplitude of the lanes in `low` has stayed below the threshold, and in the same LWCLK cycle those in `lol` lose lock and those in `high` rise above
it (spec/10 R266, R268, R276). -/
def execLos (x : LaneEdges) (s : State) : Host.Outcome State Fault Refusal :=
  ok (if !s.linksAlive then s
      else
        let down := s.poweredLanes x.low
        let hit := down.filter s.losSignalled
        let t := foldList (fun n s => s.updLane n (fun x => { x with signal := true })) (s.poweredLanes x.high) s
        let t := foldList (fun n s => s.updLane n (fun x => { x with signal := false })) down t
        t.lanesLost hit (s.poweredLanes x.lol))

/-- LOL on the lanes that lose lock in one LWCLK cycle (spec/10 R267, R268). -/
def execLol (lanes : BitVec 16) (s : State) : Host.Outcome State Fault Refusal :=
  ok (if s.linksAlive then s.lanesLost [] (s.poweredLanes lanes) else s)

/-- The links of a quad go down with DOWN_REASON LOL (spec/10 R270): an attempt ends as well. -/
def State.quadLoses (s : State) (q : Nat) : State :=
  foldBelow 16 (fun k s =>
    let l := s.linkAt k
    if !l.lanes.any (fun n => n / 4 == q) then s
    else if l.state == 3 || l.state == 4 then (s.attemptFails k).updLink k (fun l => { l with downReason := if l.state == 2 then l.downReason else 2 })
    else s.laneFails k 2 0x0C (s.usedLanes k)) s

/-- REF_LOSS: LREFCLK stops (`pll` none), with any PLL it feeds, or a PLL loses lock (PLL_B where true), spec/10 R270. -/
def execRefLoss (q : Fin 4) (pll : Option Bool) (s : State) : Host.Outcome State Fault Refusal :=
  ok (if !(s.linksAlive && (pll.isNone || (s.quadAt q.val).powered)) then s
      else
        let s := s.updQuad q.val (fun x => match pll with
          | none => { x with ref := false, refOk := false, pllA := false, pllB := false, refLost := true, refLosses := satInc x.refLosses }
          | some b => { x with pllA := x.pllA && b, pllB := x.pllB && !b, pllLost := true, pllLosses := satInc x.pllLosses })
        let s := s.report (.other (0x90020 + q.val)) 0x14 6 (BitVec.ofNat 16 q.val) 2 (if pll.isSome then 6 else 5)
        s.quadLoses q.val)

/-- REF_RECOVERY: LREFCLK toggles again, and the PLLs of a powered quad relock (spec/10 R270). -/
def execRefRecovery (q : Fin 4) (s : State) : Host.Outcome State Fault Refusal :=
  ok (if s.linksAlive then s.updQuad q.val (fun x => { x with ref := true, refOk := true, pllA := x.powered, pllB := x.powered }) else s)

/-- QUAD_POWER_UP_DONE: power-up, PLL lock and calibration end, where LREFCLK toggles; the answers that included them are given (spec/10 R249, R275). -/
def execQuadPowerUpDone (q : Fin 4) (code : BitVec 6) (inRange : Bool) (s : State) : Host.Outcome State Fault Refusal :=
  ok (if !(s.running && s.quadNeeded q.val && !(s.quadAt q.val).powered && (s.quadAt q.val).ref) then s
      else
        (s.updQuad q.val (fun x =>
          { x with
            refOk := true, pllA := inRange, pllB := inRange, calDone := true, powered := inRange, calFail := x.calFail || !inRange, calCode := code,
            calTime := s.now48 })).answerQuad q.val)

/-- An idle frame leaves on every in-use lane, which then idles (spec/10 R263). -/
def State.sendIdle (s : State) (k : Nat) : State :=
  (s.sendFrames k false 0 true).updLink k (fun l => { l with txIdle := true, txIdleAt := s.clk.ticks })

/-- IDLE_ENTRY: R220's conditions have held for IDLE_AFTER (spec/10 R263); a parked block idles its links at once (R265). -/
def execIdleEntry (k : Fin 16) (s : State) : Host.Outcome State Fault Refusal :=
  ok (let l := s.linkAt k.val
      let after := (l.cfg.getD LinkCfg.reset).idleAfter
      if s.linksAlive && l.state == 5 && !l.txIdle && l.tx.replay.isEmpty && !l.tx.ackOwed && l.tx.queue.isEmpty &&
          (s.pwr.state == 3 || (after ≠ 0 && decide (l.lastActive + 100 * after ≤ s.clk.ticks))) then
        s.sendIdle k.val
      else s)

/-- IDLE_EXIT: an entry or an acknowledgement is to be sent on an idle link (spec/10 R264). -/
def execIdleExit (k : Fin 16) (s : State) : Host.Outcome State Fault Refusal :=
  ok (let l := s.linkAt k.val
      if !(s.linksAlive && l.state == 5 && l.txIdle && (l.tx.ackOwed || !l.tx.queue.isEmpty)) then s
      else
        let s := (s.wakeLink k.val).pump k.val
        if l.tx.ackOwed && l.tx.queue.isEmpty then s.sendPlain k.val 0 0 else s)

/-- IDLE_KEEPALIVE: after 900 µs the transmitter exits with a burst, the settle and one NOP; a parked block stays idle (spec/10 R265). -/
def execIdleKeepalive (k : Fin 16) (s : State) : Host.Outcome State Fault Refusal :=
  ok (let l := s.linkAt k.val
      if s.linksAlive && l.state == 5 && l.txIdle && decide (l.txIdleAt + 90000 ≤ s.clk.ticks) then
        (let s := (s.wakeLink k.val).sendPlain k.val 0 0
         if s.pwr.state == 3 then s.sendIdle k.val else s.pump k.val)
      else s)

/-- IDLE_TIMEOUT: no exit within 1 ms of an idle frame is LOS (spec/10 R265). -/
def execIdleTimeout (k : Fin 16) (s : State) : Host.Outcome State Fault Refusal :=
  ok (let l := s.linkAt k.val
      if s.linksAlive && l.state == 5 && l.rxIdle && decide (l.rxIdleAt + 100000 ≤ s.clk.ticks) then
        (let used := s.usedLanes k.val
         let s := foldList (fun n s => s.updLane n (fun x => { x.losHit s.now48 with idleTo := true })) used s
         s.linkGoesDown k.val 1 (some (0x0B, laneBits used)))
      else s)

/-- IDLE_FRAME_RECEIVE: a training frame at a flit boundary whose INFO is that of an idle frame (spec/10 R263). -/
def execIdleFrameReceive (x : InfoFrame) (s : State) : Host.Outcome State Fault Refusal :=
  ok (if s.linksAlive && isIdleInfo x.info && (s.linkAt x.link.val).state == 5 && !(s.linkAt x.link.val).rxIdle then
        s.updLink x.link.val (fun l => { l with rxIdle := true, rxIdleAt := s.clk.ticks })
      else s)

/-- EXIT_BURST_RECEIVE: the receivers realign, their precoders restart, and CRC failures do not count for 36 LWCLK cycles (spec/10 R264). -/
def execExitBurstReceive (k : Fin 16) (s : State) : Host.Outcome State Fault Refusal :=
  ok (if s.linksAlive && (s.linkAt k.val).rxIdle then
        (foldList (fun n s => s.updLane n (fun x => { x with signal := true, rxPre := 0 })) (s.usedLanes k.val) s).updLink k.val (fun l =>
          { l with rxIdle := false, rx := { l.rx with crcRun := 0, settleEnd := s.clk.ticks + lwTicks l.train.rateNow 36 } })
      else s)

/-- A lane whose checker is set (spec/10 R273 modes 2 to 4). -/
def Lane.checks (x : Lane) : Bool := x.test == 2 || x.test == 3 || x.test == 4

/-- CHECKER_LOCK: 256 symbols without an error, or the phase of SSPRQ is found (spec/10 R271). The checker's register runs free from `fill`, the bits it
has received; in the near-end loopback those are its own generator's. -/
def execCheckerLock (c : CheckerFill) (s : State) : Host.Outcome State Fault Refusal :=
  ok (if s.running && (s.laneAt c.lane.val).checks && !(s.laneAt c.lane.val).chkLocked then
        s.updLane c.lane.val (fun x => { x with signal := x.signal || x.test != 4, chkLocked := true, chk := if x.test == 4 then x.gen else c.fill })
      else s)

/-- CHECKER_LOCK_LOST: errors among 1,024 consecutive symbols received from the far end are counted; more than 256 drop lock (spec/10 R271).
`symbols` are those received since the last tick, which the counting of ticks has not reached. -/
def execCheckerLockLost (l : Fin 16) (symbols : BitVec 7) (symErrs bitErrs : BitVec 11) (s : State) : Host.Outcome State Fault Refusal :=
  ok (if s.running && (s.laneAt l.val).checks && (s.laneAt l.val).chkLocked then
        s.updLane l.val (fun x =>
          let lost := decide (256 < symErrs.toNat)
          { x with
            chkSymbols := if lost then x.chkSymbols + symbols.setWidth 64 else x.chkSymbols, chkSymErr := x.chkSymErr + symErrs.setWidth 64, chkBitErr := x.chkBitErr + bitErrs.setWidth 64, chkErr := x.chkErr || symErrs != 0,
            chkLocked := !lost, chkLost := x.chkLost || lost, chkLosses := if lost then satInc x.chkLosses else x.chkLosses })
      else s)

/-- Whether a lane makes injections: it generates a pattern, or it carries flits of an up link (spec/10 R273). -/
def State.injects (s : State) (n : Nat) : Bool :=
  let x := s.laneAt n
  x.test == 1 || x.test == 3 || x.test == 4 || (x.test == 5 && (match s.laneLink n with | some k => (s.linkAt k).state == 5 && x.carries | none => false))

/-- INJECTION: a periodic or one-shot injection falls due on a lane (spec/10 R272, R273): the next symbols it sends are moved, or the CRC of its link's next sequenced
flit is inverted. -/
def execInjection (l : Fin 16) (s : State) : Host.Outcome State Fault Refusal :=
  ok (let x := s.laneAt l.val
      if !(s.running && x.armed && x.inject != 0 && decide (x.injectAt ≤ s.clk.ticks) && s.injects l.val) then s
      else
        let s := s.updLane l.val (fun x =>
          { x with
            injections := satInc x.injections, armed := x.period != 0, injectAt := s.clk.ticks + 100 * x.period.toNat,
            inj := if x.inject == 3 then x.inj else max x.inj (if x.inject == 1 then 1 else x.burstLen.toNat) })
        match s.laneLink l.val with
        | some k => if x.inject == 3 then s.updLink k (fun y => { y with tx := { y.tx with crcFlips := y.tx.crcFlips + 1 } }) else s
        | none => s)

/-- Whether a period of LWCLK cycles, counted from a tick, ends with the tick that has passed. -/
def lwDue (rate : BitVec 2) (cycles from_ now : Nat) : Bool :=
  let per := cycles * (if rate == 3 then 256 else if rate == 2 then 640 else if rate == 1 then 1280 else 2560)
  decide (from_ < now) && decide ((now - 1 - from_) * 1000 / per < (now - from_) * 1000 / per)

/-- The part of a tick that a link in training has: frames follow each other in 8 LWCLK cycles, STEP flits in 128 / U symbols (spec/10 R251, R255, R260). -/
def State.trainTick (s : State) (k : Nat) : State :=
  let l := s.linkAt k
  let t := l.train
  let from_ := max t.start t.switchAt
  if l.state != 3 then s
  else match t.stage with
    | .stepping => if lwDue t.rateNow (4 / max 1 (useCount t.use)) from_ s.clk.ticks then s.sendStep k else s
    | .rest => s
    | _ => if lwDue t.rateNow 8 from_ s.clk.ticks then s.sendFrames k false 0 false else s

/-- The part of a tick that quads, lanes and links have (spec/10 R255, R260, R271, R275): REF_OK shows whether LREFCLK toggles. -/
def State.phyTick (s : State) : State :=
  let s := foldBelow 4 (fun q s => s.updQuad q (fun x => { x with refOk := x.ref })) s
  let s := foldBelow 16 (fun n s => if (s.laneAt n).test == 0 then s else s.updLane n (fun x => x.testTick s.clk.ticks)) s
  foldBelow 16 (fun k s => s.trainTick k) s

end Sys2Proof.Machine
end

