-- ==== Sys2Proof/Machine/LinkCmd.lean ====
section
/-! DEFINITION. The links' timers and mailbox commands (spec/09 R217 to R246). -/

namespace Sys2Proof.Machine

/-- A timer of link `k` that runs while the link is up, parked or not (spec/15 R396). -/
def State.linkTimer (s : State) (k : Nat) (due : Link → Bool) (f : State → State) : State :=
  if s.linksAlive && (s.linkAt k).state == 5 && due (s.linkAt k) then f s else s

/-- REPLAY_TIMER_EXPIRY: 200 ticks without an advance; the eighth in a row takes the link down (spec/09 R219). -/
def execReplayTimerExpiry (k : Fin 16) (s : State) : Host.Outcome State Fault Refusal :=
  ok (s.linkTimer k.val (fun l => !l.tx.replay.isEmpty && decide (l.tx.timer + 200 ≤ s.clk.ticks)) (fun s =>
    if 7 ≤ (s.linkAt k.val).tx.expiries then s.linkGoesDown k.val 3 (some (0x0D, 0))
    else
      (s.updLink k.val (fun l => { l with tx := { l.tx with expiries := l.tx.expiries + 1, timer := s.clk.ticks } })).replayAll k.val))

/-- ACK_DEADLINE: an acknowledgement or a replay request owed leaves in a NOP (spec/09 R216, R217). -/
def execAckDeadline (k : Fin 16) (s : State) : Host.Outcome State Fault Refusal :=
  ok (s.linkTimer k.val (fun l => (l.tx.ackOwed || l.tx.reqOwed) && !l.txIdle) (fun s => s.sendPlain k.val 0 0))

/-- BURST_IDLE_CLOSE: no further ENTRY flit for 64 FCLK cycles, 4 ticks (spec/09 R232); near the end of XSEQ the link goes down (R232). -/
def execBurstIdleClose (k : Fin 16) (s : State) : Host.Outcome State Fault Refusal :=
  ok (s.linkTimer k.val (fun l => (l.isAuth && decide (2 ^ 55 ≤ l.tx.xseq + 2)) || (!l.tx.burst.isEmpty && decide (l.tx.burstAt + 4 ≤ s.clk.ticks))) (fun s =>
    if (s.linkAt k.val).isAuth && decide (2 ^ 55 ≤ (s.linkAt k.val).tx.xseq + 2) then s.linkGoesDown k.val 10 none else (s.closeBurst k.val).pump k.val))

/-- SNAP_REQ_RETRY: no FULL snapshot for 20 µs (spec/09 R227). -/
def execSnapReqRetry (k : Fin 16) (s : State) : Host.Outcome State Fault Refusal :=
  ok (s.linkTimer k.val (fun l => l.snapWait && !l.isCol && decide (l.snapAsked + 2000 ≤ s.clk.ticks)) (fun s => s.askSnapshot k.val))

/-- SNAP_LATE: no snapshot for 4 · SNAP_PERIOD (spec/09 R227). -/
def execSnapLate (k : Fin 16) (s : State) : Host.Outcome State Fault Refusal :=
  ok (s.linkTimer k.val (fun l => !l.isCol && decide (l.snapAt + 400 * (l.cfg.getD LinkCfg.reset).snapPeriod ≤ s.clk.ticks)) (fun s =>
    s.updLink k.val (fun l => { l with snapLate := true })))

/-- Whether a snapshot record of a link has not been granted yet (spec/09 R230). -/
def State.snapQueued (s : State) (k : Nat) : Bool :=
  (s.inqAt (linkQueue k)).any (fun r => r.snap)

/-- ORPHAN_EOI_RELEASE: the held EOIs are sent in order with ORPHANED = 1, and ORPHANED clears (spec/09 R230). -/
def execOrphanEoiRelease (k : Fin 16) (s : State) : Host.Outcome State Fault Refusal :=
  ok (s.linkTimer k.val (fun l => l.orphaned && l.releasing && !(s.activeFor k.val && s.snapQueued k.val)) (fun s =>
    (s.updLink k.val (fun l =>
      { l with orphaned := false, releasing := false, orphans := [], tx := { l.tx with queue := l.tx.queue ++ l.orphans } })).pump k.val))

/-- HEARTBEAT_SEND: every 2,000 ticks while the heartbeat runs (spec/09 R238, R240). -/
def execHeartbeatSend (s : State) : Host.Outcome State Fault Refusal :=
  ok (match s.colLink with
      | none => s
      | some k => s.linkTimer k (fun _ => s.rope.hbRunning && decide (s.partner.hbSentAt + 2000 ≤ s.clk.ticks)) (fun s =>
          let s := if (s.linkAt k).txIdle then s.wakeLink k else s
          let payload : BitVec 192 := BitVec.ofNat 127 0 ++ bit s.straps.senior ++ (s.partner.active ++ s.now48)
          let s := (s.sendPlain k 1 payload).modPartner (fun x => { x with hbSentAt := s.clk.ticks })
          if s.pwr.state == 3 then s.updLink k (fun l => { l with txIdle := true, txIdleAt := s.clk.ticks }) else s))

/-- PARTNER_LOST: 6,000 ticks without a HEARTBEAT once the col link has come up (spec/09 R238, R242). -/
def execPartnerLost (s : State) : Host.Outcome State Fault Refusal :=
  ok (match s.colLink with
      | none => s
      | some k =>
        if s.linksAlive && s.partner.everUp && !s.partner.lost && decide (s.partner.lastHb + 6000 ≤ s.clk.ticks) then
          (let s := (s.modPartner (fun x => { x with lost := true, hbOk := false, notices := [] })).updLink k (fun l => { l with partnerLost := true })
           let s := s.report (.other (0x90000 + k)) 0x0F 5 (BitVec.ofNat 16 k) 2 (s.partner.peerMask.setWidth 32)
           foldBelow 16 (fun j s => s.lossPromote j) s)
        else s)

/-- CREDIT_RETURN_TIMER: shared credits owed for 100 ticks return (spec/09 R245). -/
def execCreditReturnTimer (s : State) : Host.Outcome State Fault Refusal :=
  ok (match s.colLink with
      | none => s
      | some k => s.linkTimer k (fun l => decide (0 < l.owedShared) && decide (l.owedAt + 100 ≤ s.clk.ticks)) (fun s =>
          (s.updLink k (fun l => { l with owedShared := 0 })).queueEntry k (creditEntry (BitVec.ofNat 7 (s.linkAt k).owedShared) 0)))

/-- CAP_TIMER: another CAP every 100 ticks until one has been received (spec/09 R236). -/
def execCapTimer (k : Fin 16) (s : State) : Host.Outcome State Fault Refusal :=
  ok (let l := s.linkAt k.val
      if s.running && l.state == 4 && !l.rx.capSeen && decide (l.rx.capSentAt + 100 ≤ s.clk.ticks) then s.sendCap k.val else s)

/-- LINK_CONFIG's arguments (spec/11 R291). -/
def linkCfgOf (a : BitVec 448) : LinkCfg :=
  { col := bitAt (arg a 1 8) 0, auth := bitAt (arg a 1 8) 1, paired := bitAt (arg a 1 8) 2, pair := arg a 6 4, quad := arg a 2 2,
    firstLane := arg a 3 2, width := (arg a 4 8).toNat, rate := arg a 5 2, sources := if bitAt (arg a 1 8) 0 then 0 else (arg a 8 16).toNat,
    idleAfter := (arg a 10 16).toNat, snapPeriod := if arg a 12 16 == 0 then 100 else (arg a 12 16).toNat,
    retry := if arg a 14 16 == 0 then 1000 else (arg a 14 16).toNat, pinBase := 0 }

/-- What LINK_CONFIG refuses with BAD_ARG (spec/09 R235; spec/10 R250; spec/11 R448). -/
def State.linkCfgBad (s : State) (a : BitVec 448) : List (Bool × Nat) :=
  let link := (arg a 0 8).toNat
  let c := linkCfgOf a
  let first := (arg a 3 8).toNat
  let other (p : Nat → Bool) : Bool := (List.range 16).any (fun k => k != link && p k)
  [(decide (15 < link), 0), (argOver a 1 1 3, 1), (c.col && c.paired, 1), (c.col && other (fun k => (s.linkAt k).isCol), 1),
   (decide (3 < (arg a 2 8).toNat), 2), (decide (4 < first + c.width), 2),
   (c.lanes.any (fun n => other (fun k => (s.linkAt k).lanes.contains n)), 2), (decide (3 < first), 3), (c.width = 2 && first % 2 != 0, 3),
   (c.width = 4 && first != 0, 3), (c.width != 1 && c.width != 2 && c.width != 4, 4), (argOver a 5 1 2, 5), (argOver a 6 1 4, 6),
   (c.paired && other (fun k => (s.linkAt k).pairNo == some c.pair.toNat), 6), (!c.col && (c.sources = 0 || decide (4096 < c.sources)), 8),
   (decide (c.snapPeriod < 10) || decide (10000 < c.snapPeriod), 12)]

/-- Sources partnered by every link but one (spec/09 R235, R241). -/
def State.partnered (s : State) (but : Nat) : Nat :=
  (List.range 16).foldl (fun n k => if k != but && (s.linkAt k).pairNo.isSome then n + ((s.linkAt k).cfg.getD LinkCfg.reset).sources else n) 0

/-- The requester of a valley link's remote sources (spec/01 R26). -/
def linkReq (k : Nat) : BitVec 16 := BitVec.ofNat 16 (0xFF00 + k)

/-- The compaction that is left to do in a command's last step (assumption log 58). -/
def State.compactIf (s : State) (n : Nat) : State := if s.pinCompacts n then s.compact 32768 else s

/-- LINK_CONFIG (spec/09 R233, R235; spec/01 R26; spec/10 R249, R250). A set of the device-table cache with four other locked entries cannot lock the
link's (spec/04 R106): FULL. -/
def State.linkConfig (s : State) (a : BitVec 448) : Answer × State :=
  match lowestBad (s.linkCfgBad a) with
  | some d => (badArg d, s)
  | none =>
    let k := (arg a 0 8).toNat
    let c := linkCfgOf a
    let st := (s.linkAt k).state
    if st != 0 && st != 1 then (status 1, s)
    else if c.paired && decide (8192 < s.partnered k + c.sources) then (status 2, s)
    else
      let q : BitVec 16 := linkReq k
      let freed := (s.freePin q).modXl (fun x => { x with devCache := x.devCache.filter (fun l => l.req != q) })
      if !c.col && freed.setLocked q then (status 2, s)
      else match (if c.col then some (0, freed) else (freed.compactIf c.sources).allocPin q c.sources) with
      | none => (status 2, s)
      | some (base, s') =>
        if !s'.admits then (status 3, s.modRat (fun r => { r with overcommit := true }))
        else
          let old := (s.linkAt k).lanes
          let s' := foldList (fun n s => s.updLane n Lane.squelch) old s'
          let s' := (s'.updLink k (fun l =>
            { l with
              cfg := some { c with pinBase := BitVec.ofNat 14 base }, keys := [none, none], txSlot := false, wantUp := false,
              train := Training.reset })).setLinkState k 1
          let s' := s'.settleHeld k
          let s' := if c.col then s' else s'.devFill q (linkEntry base) true
          let s' := foldBelow 4 (fun i s => s.settleQuadPower i) s'
          (okWith (if c.col then 0 else resPut 0 (BitVec.ofNat 16 base)), s')

/-- An answer that waits for the power-up of a quad that is not powered, where it is OK (spec/10 R249). -/
def State.quadAnswer (s : State) (m i : Nat) (r : BitVec 512) (q : Nat) (x : Answer × State) : State :=
  if x.1.1 == 0 && decide (q < 4) && x.2.quadNeeded q && !(x.2.quadAt q).powered then
    x.2.updQuad q (fun y => { y with waiters := y.waiters ++ [(m, i, respWords r x.1 false s.camp.execSeq)] })
  else x.2.answerSlot m i x.1

/-- A command whose OK waits for the power-up of a quad that is not powered (spec/10 R249). -/
def State.quadCommand (s : State) (m : Nat) (code : BitVec 16) (by_ : Issuers) (ready : BitVec 448 → Bool) (quad : BitVec 448 → Nat)
    (f : BitVec 448 → State → Answer × State) : State :=
  match s.taken m with
  | none => s
  | some (i, r) =>
    if reqCode r != code then s
    else if headerBad r || s.boot.failed || !by_.allow m then s.command m [code] by_ always f
    else if !ready (reqArgs r) then s
    else (let s := (s.takeSlot m i).commit m i; s.quadAnswer m i r (quad (reqArgs r)) (f (reqArgs r) s))

/-- The quad that a LINK_CONFIG names. -/
def cfgQuad (a : BitVec 448) : Nat := (arg a 2 2).toNat

/-- Whether a LINK_CONFIG compacts the pinned store before it commits (spec/04 R111). -/
def State.linkCompacts (s : State) (a : BitVec 448) : Bool :=
  let k := (arg a 0 8).toNat
  let c := linkCfgOf a
  (lowestBad (s.linkCfgBad a)).isNone && ((s.linkAt k).state == 0 || (s.linkAt k).state == 1) && !c.col &&
    decide (s.partnered k + c.sources ≤ 8192 ∨ ¬ c.paired) && (s.freePin (linkReq k)).pinCompacts c.sources

/-- LINK_CONFIG. -/
def execLinkConfig (m : Fin 34) (s : State) : Host.Outcome State Fault Refusal :=
  ok (s.compactFirst m.val 0x0060 true (fun _ => s.allQuiet) s.linkCompacts
    (s.quadCommand m.val 0x0060 .ring01 (fun _ => s.allQuiet) cfgQuad (fun a s => s.linkConfig a)))

/-- The last step of a command that compacted the pinned store: it commits and is answered (spec/04 R111, spec/11 R288). -/
def State.pinFinish (s : State) (j : PinJob) : State :=
  if !s.allQuiet then s
  else
    let a := reqArgs j.req
    let s := (s.modXl (fun x => { x with jobs := x.jobs.drop 1 })).commit j.mbox j.slot
    if j.link then s.quadAnswer j.mbox j.slot j.req (cfgQuad a) (s.linkConfig a)
    else (let x := s.reqPin a; x.2.answerSlot j.mbox j.slot x.1)

/-- One step of the command that compacts the pinned store (spec/04 R111): it begins the copy of the next block, or switches the one that moves, or
commits. -/
def State.pinStep (s : State) : State :=
  match (if s.running && s.camp.executing && !s.rekeyDue then s.xl.jobs.head? else none) with
  | none => s
  | some j =>
    match s.xl.moving, nextMove 0 s.xl.blocks with
    | some (q, base), _ =>
      (match s.xl.blocks.find? (fun b => b.req == q) with
       | some b => s.moveBlockTo b base
       | none => s.modXl (fun x => { x with moving := none }))
    | none, some (b, base) => s.modXl (fun x => { x with moving := some (b.req, base) })
    | none, none => s.pinFinish j

/-- A link named by ARGS: BAD_ARG beyond 15, NOT_FOUND where it is not configured (spec/09 R235). -/
def State.linkNamed (s : State) (a : BitVec 448) (bad : List (Bool × Nat)) : Option Answer :=
  match lowestBad ((decide (15 < (arg a 0 8).toNat), 0) :: bad) with
  | some d => some (badArg d)
  | none => if (s.linkAt (arg a 0 4).toNat).cfg.isNone then some (status 6) else none

/-- Ticks until LINK_UP answers TIMEOUT (spec/09 R235). -/
def LinkCfg.upBound (c : LinkCfg) : Nat := if c.width = 4 then 201000 else 16000

/-- A LINK_UP of mailbox `m` whose bound has passed (spec/09 R235). -/
def State.upExpired (s : State) (m : Nat) : Option (Nat × UpWait) :=
  (List.range 16).findSome? (fun k =>
    ((s.linkAt k).upWait.find? (fun w => w.mbox == m && decide (w.since + ((s.linkAt k).cfg.getD LinkCfg.reset).upBound ≤ s.clk.ticks))).map
      (fun w => (k, w)))

/-- LINK_UP taken: it starts training, and answers once the link is up (spec/09 R235, spec/10 R262). -/
def State.linkUpCmd (s : State) (m i : Nat) (r : BitVec 512) : State :=
  let s := (s.takeSlot m i).commit m i
  let a := reqArgs r
  let k := (arg a 0 4).toNat
  match s.linkNamed a [] with
  | some e => s.answerSlot m i e
  | none =>
    let s := s.updLink k (fun l =>
      { l with wantUp := true, train := if l.wantUp then l.train else { l.train with lossAt := s.clk.ticks } })
    if (s.linkAt k).state == 5 then s.answerSlot m i (status 0)
    else
      let first := (s.linkAt k).state != 3
      let s := s.updLink k (fun l =>
        { l with upWait := l.upWait ++ [{ mbox := m, slot := i, since := s.clk.ticks, seq := s.camp.execSeq, failover := false }] })
      let s := s.tryAttempt k
      if first then s.updLink k (fun l => { l with train := { l.train with tries := 0 } }) else s

/-- LINK_UP: a new command of the mailbox, or the TIMEOUT of one that waits (spec/09 R235). -/
def execLinkUp (m : Fin 34) (s : State) : Host.Outcome State Fault Refusal :=
  ok (match (if s.running then s.upExpired m.val else none) with
      | some (k, w) => (s.updLink k (fun l => { l with upWait := l.upWait.filter (fun x => x != w) })).answerUp w (status 9)
      | none =>
        match s.taken m.val with
        | none => s
        | some (i, r) =>
          if reqCode r != 0x0061 then s
          else if headerBad r || s.boot.failed || !Issuers.ring01.allow m.val then s.command m.val [0x0061] .ring01 always (fun _ s => (status 0, s))
          else s.linkUpCmd m.val i r)

/-- LINK_DOWN (spec/09 R228, R235, R242). -/
def State.linkDownCmd (s : State) (a : BitVec 448) : Answer × State :=
  let k := (arg a 0 4).toNat
  match s.linkNamed a [] with
  | some e => (e, s)
  | none =>
    let s := s.updLink k (fun l => { l with wantUp := false })
    let s := match (s.linkAt k).pairNo with | some p => s.relinquish p | none => s
    (status 0, s.linkGoesDown k 5 none)

/-- LINK_DOWN. -/
def execLinkDown (m : Fin 34) (s : State) : Host.Outcome State Fault Refusal :=
  ok (s.command m.val [0x0062] .ring01 always (fun a s => s.linkDownCmd a))

/-- LINK_KEY (spec/09 R231, R233). -/
def State.linkKeyCmd (s : State) (a : BitVec 448) : Answer × State :=
  let k := (arg a 0 4).toNat
  let slot := (arg a 1 8).toNat
  match s.linkNamed a [(argOver a 1 1 1, 1), (argOver a 2 1 1, 2)] with
  | some e => (e, s)
  | none =>
    if !(s.linkAt k).isAuth then (badArg 0, s)
    else
      let s := s.updLink k (fun l =>
        { l with keys := updList (fun _ => some (arg a 8 128)) l.keys slot, txSlot := if bitAt (arg a 2 8) 0 then slot == 1 else l.txSlot })
      (status 0, if (s.linkAt k).state == 2 then s.tryAttempt k else s)

/-- LINK_KEY. -/
def execLinkKey (m : Fin 34) (s : State) : Host.Outcome State Fault Refusal :=
  ok (s.command m.val [0x0063] .ring0 always (fun a s => s.linkKeyCmd a))

/-- PARTNER_ROLE (spec/09 R235, R242). -/
def State.partnerRole (s : State) (a : BitVec 448) : Answer × State :=
  let mask : BitVec 16 := arg a 0 16
  let active := bitAt (arg a 2 8) 0
  let peerUp (p : Nat) : Bool := match s.pairLink p with | some k => (s.linkAt k).peerUp == some true | none => false
  if argOver a 2 1 1 then (badArg 2, s)
  else if s.colLink.isNone then (status 6, s)
  else if active && s.partner.lost && (List.range 16).any (fun p => bitAt mask p && peerUp p) then (status 4, s)
  else
    (status 0, foldBelow 16 (fun p s =>
      if !bitAt mask p || (s.pairLink p).isNone then s else if active then s.tryPromote p else s.relinquish p) s)

/-- PARTNER_ROLE. -/
def execPartnerRole (m : Fin 34) (s : State) : Host.Outcome State Fault Refusal :=
  ok (s.command m.val [0x0064] .ring0 always (fun a s => s.partnerRole a))

end Sys2Proof.Machine
end

