-- ==== Sys2Proof/Machine/Service.lean ====
section
/-! DEFINITION. Test and repair in service (spec/14 R366 to R373, R379 to R382; spec/10 R273): SLICE_TEST and SLICE_SWAP. A test runs within its
command. -/

namespace Sys2Proof.Machine

/-- Whether another unit of a KIND is under test or out of service by SLICE_SWAP (spec/14 R367). -/
def State.otherOut (s : State) (kind unit : Nat) : Bool :=
  match kind with
  | 0 => (List.range 5).any (fun r => r != unit && (s.ridgeAt r).swapped)
  | 1 => s.bel.any (fun b => b.1 != unit && b.2.swapped)
  | 2 => (List.range 16).any (fun n => n != unit && ((s.laneAt n).test != 0 || (s.laneAt n).excluded))
  | 4 => (List.range 16).any (fun b => b != unit && bitAt s.xl.fenceSwap b)
  | _ => false

/-- The units of a KIND (spec/11 R291). -/
def unitsOf (kind : Nat) : Nat := match kind with | 0 => 5 | 1 => 256 | 2 => 16 | 3 => 2 | _ => 16

/-- The faults that both commands share: KIND, and UNIT of it (spec/11 R291). -/
def sliceBad (a : BitVec 448) : List (Bool × Nat) :=
  [(decide (4 < (arg a 0 8).toNat), 0), (decide (unitsOf (arg a 0 8).toNat ≤ (arg a 2 16).toNat), 2)]

/-- What a lane test refuses with BAD_ARG (spec/10 R273, spec/11 R448). -/
def State.laneTestBad (s : State) (a : BitVec 448) : List (Bool × Nat) :=
  let n := (arg a 2 16).toNat
  let mode := (arg a 4 8).toNat
  let inject := (arg a 8 8).toNat
  let pattern := decide (1 ≤ mode) && decide (mode ≤ 4)
  let live := match s.laneLink n with | some k => (s.linkAt k).state == 5 && (s.laneAt n).carries | none => false
  let period := (arg a 10 16).toNat
  sliceBad a ++
  [(decide (5 < mode), 4), (mode = 5 && !live, 2), (pattern && argOver a 5 1 2, 5), (pattern && argOver a 6 1 1, 6), (pattern && argOver a 7 1 2, 7),
   (decide (3 < inject), 8), (inject = 3 && mode ≠ 5, 4), (mode ≠ 5 && arg a 5 8 == 3 && arg a 6 8 == 1, 5),
   (inject = 2 && ((arg a 9 8) == 0 || decide (64 < (arg a 9 8).toNat)), 9), (decide (1 ≤ period) && decide (period ≤ 9), 10)]

/-- Whether a lane belongs to a link that is neither unconfigured nor down; an excluded lane counts as owned by none (spec/10 R273, spec/14 R382). -/
def State.laneBusy (s : State) (n : Nat) : Bool :=
  match s.laneLink n with
  | none => false
  | some k => (s.linkAt k).state != 0 && (s.linkAt k).state != 1 && !(s.laneAt n).excluded

/-- A lane's settings by SLICE_TEST (spec/10 R271 to R273): the generator is seeded; a transmitter sends a test pattern only while the heartbeat runs (R269). -/
def Lane.setTest (x : Lane) (a : BitVec 448) (now : Nat) (heart : Bool) : Lane :=
  let mode : BitVec 3 := arg a 4 3
  let inject : BitVec 2 := arg a 8 2
  let y : Lane := { x with
    test := mode, inject := inject, burstLen := arg a 9 7, period := arg a 10 16, armed := inject != 0,
    injectAt := now + 100 * (arg a 10 16).toNat, inj := 0 }
  let tested := x.test == 1 || x.test == 2 || x.test == 3 || x.test == 4
  if mode == 0 then { y with inject := 0, armed := false, chkLocked := false, squelched := x.squelched || tested }
  else if mode == 5 then y
  else
    { y with
      chkSymbols := 0, chkSymErr := 0, chkBitErr := 0, chkLosses := 0, chkLocked := false, chkPattern := arg a 5 3, precode := bitAt (arg a 6 8) 0,
      rateNow := arg a 7 2, squelched := !(mode == 1 || mode == 3) || !heart, gen := patternSeed (arg a 5 3), pre := 0, rxPre := 0 }

/-- SLICE_TEST of a lane (spec/10 R273). -/
def State.testLane (s : State) (a : BitVec 448) : Answer × State :=
  let n := (arg a 2 16).toNat
  let mode := (arg a 4 8).toNat
  match lowestBad (s.laneTestBad a) with
  | some d => (badArg d, s)
  | none =>
    if mode ≠ 0 && (s.otherOut 2 n || (mode ≠ 5 && s.laneBusy n)) then (status 1, s)
    else (okWith 0, (s.updLane n (fun x => x.setTest a s.clk.ticks s.rope.hbRunning)).settleQuadPower (n / 4))

/-- What keeps a unit other than a lane from its test: the status that SLICE_TEST answers (spec/14 R367, R370, R372, R379, R381). A bank whose neighbour is
fenced cannot be fenced for its test: DENIED, as SLICE_SWAP has it (DEDUCED, assumption log 63). -/
def State.testRefused (s : State) (kind unit : Nat) : Option (BitVec 8) :=
  if s.otherOut kind unit then some 1
  else match kind with
  | 0 => if (s.ridgeAt unit).role != 1 && (s.ridgeAt unit).role != 3 then some 1 else none
  | 1 => if (s.belAt unit).role != 2 then some 1 else none
  | 3 => if s.camp.active == (unit == 1) || 1 < s.camp.standby.toNat then some 1 else none
  | _ => if !bitAt s.xl.fenced unit && bitAt s.xl.fenced (unit ^^^ 1) then some 4 else none

/-- A unit enters its test (spec/14 R370: ROLE 2; R372: ROLE 3; R379: STANDBY_STATE 4, its cores under test; R381: fenced). -/
def State.enterTest (s : State) (m i kind unit : Nat) (found : BitVec 32) : State :=
  let former : BitVec 3 := match kind with
    | 0 => (s.ridgeAt unit).role
    | 4 => if bitAt s.xl.fenced unit then 1 else 0
    | _ => 0
  let t : UnitTest := { mbox := m, slot := i, kind := kind, unit := unit, former := former, found := found }
  let s := s.modCamp (fun c => { c with testing := some t })
  match kind with
  | 0 => s.updRidge unit (fun x => { x with role := 2 })
  | 1 => s.updBel unit (fun x => { x with role := 3 })
  | 3 => s.modCamp (fun c => { c.setExec (unit == 1) false with standby := 4, staged := none })
  | _ => if former == 0 then s.fenceBank unit else s

/-- A unit's test runs to its end (spec/14 R368, R370, R372, R379, R381): its former ROLE with a new result; a Camp pair that passed loads again, one that
failed leaves no standby; a bank that was in use and passes is in use again. -/
def State.leaveTested (s : State) (t : UnitTest) : State :=
  let passed := failDetail t.found == 0
  match t.kind with
  | 0 => s.updRidge t.unit (fun x => { x with role := t.former, passedTest := passed })
  | 1 => s.updBel t.unit (fun x => { x with role := 2, passedTest := passed })
  | 3 =>
    if passed then s.modCamp (fun c => { c with standby := 2 })
    else (s.modCamp (fun c => { c.setOk (t.unit == 1) false with standby := 3 })).noStandby (t.unit != 1)
  | _ =>
    if t.former == 0 && passed then s.unfenceBank t.unit
    else s.modXl (fun x => { x with fenceTest := setBit x.fenceTest t.unit passed })

/-- The test that runs ends, and its command commits and is answered (spec/14 R368). -/
def State.testStep (s : State) : State :=
  match s.camp.testing with
  | some t => if s.camp.executing then (s.leaveTested t).endTest t (failDetail t.found) else s
  | none => s

/-- SLICE_TEST of a unit other than a lane, by ring 0 (spec/11 R291, spec/14 R367, R368): the arguments and the unit's state are checked at once, the test
then runs until the tick that follows (DESIGN CHOICE, assumption log 63). -/
def State.testUnit (s : State) (m i : Nat) (req : BitVec 512) (found : BitVec 32) : State :=
  let a := reqArgs req
  let kind := (arg a 0 8).toNat
  let unit := (arg a 2 16).toNat
  let taken := s.takeSlot m i
  let reply (x : Answer) : State := (taken.commit m i).answerSlot m i x
  if m ≠ 0 then reply (status 4)
  else match lowestBad (sliceBad a ++ (List.range 8).map (fun i => (arg a (4 + i) 8 != 0, 4 + i))) with
  | some d => reply (badArg d)
  | none =>
    match s.testRefused kind unit with
    | some c => reply (status c)
    | none => taken.enterTest m i kind unit found

/-- The quad that a SLICE_TEST powers: that of its lane; 4, no quad, for other units (spec/10 R249, R273). -/
def testQuad (a : BitVec 448) : Nat := if arg a 0 8 == 2 && arg a 4 8 != 0 then (arg a 2 4).toNat / 4 else 4

/-- The slot and the request of a SLICE_TEST of a unit other than a lane whose turn it is, with no fault of its header. -/
def State.unitTest (s : State) (m : Nat) : Option (Nat × BitVec 512) :=
  (s.taken m).filter (fun x => reqCode x.2 == 0x0070 && !headerBad x.2 && !s.boot.failed && decide (m ≤ 1) && arg (reqArgs x.2) 0 8 != 2)

/-- SLICE_TEST. `found` is what the test of a unit other than a lane finds. -/
def execSliceTest (m : Fin 34) (found : BitVec 32) (s : State) : Host.Outcome State Fault Refusal :=
  ok (match s.unitTest m.val with
      | some x => s.testUnit m.val x.1 x.2 found
      | none => s.quadCommand m.val 0x0070 .ring01 always testQuad (fun a s => s.testLane a))

/-- The couloirs grant again (spec/14 R369). -/
def State.unstall (s : State) : State := foldBelow 4 (fun p s => s.updPos p (fun q => { q with stalled := false })) s

/-- A ridge leaves service: its position moves to the spare with its walks, whose reads the spare issues again (spec/14 R369, spec/04 R95). -/
def State.swapRidge (s : State) (r : Nat) : Answer × State :=
  let s := s.unstall
  if (s.ridgeAt r).role != 0 then (status 1, s)
  else match s.spare with
    | none => (status 1, s)
    | some n =>
      let p := (s.ridgeAt r).position
      let s := s.updRidge r (fun x => { x with role := 3, passedTest := false, swapped := true })
      let s := s.updRidge n (fun x => { x with role := 0, position := p })
      (status 0, (s.modXl (fun x => { x with ridgeMap := updList (fun _ => BitVec.ofNat 3 n) x.ridgeMap p.toNat })).reissueWalks p.toNat)

/-- A ridge that passed its test becomes the spare, and takes a position that none serves (spec/14 R370, spec/13 R351). -/
def State.returnRidge (s : State) (r : Nat) : Answer × State :=
  if (s.ridgeAt r).role != 3 || !(s.ridgeAt r).passedTest then (status 4, s)
  else
    let s := s.updRidge r (fun x => { x with role := 1, swapped := false })
    (status 0, match firstBelow 4 (fun p => (s.posAt p).unserved.isSome) with | some p => s.takeover p true | none => s)

/-- A belay leaves service: its partner covers (spec/14 R371). -/
def State.swapBelay (s : State) (b : Nat) : Answer × State :=
  if !s.coverable b then (status 1, s) else (status 0, (s.isolateBelay b false).updBel b (fun x => { x with swapped := true }))

/-- The cover of a belay ends (spec/14 R373). -/
def State.returnBelay (s : State) (b : Nat) : Answer × State :=
  if (s.belAt b).role != 2 || !(s.belAt b).passedTest then (status 4, s)
  else
    let s := s.updBel b (fun x => if x.pendSwitch then x.switch x.forced else x)
    let s := s.updBel b (fun x => { x with role := 0, swapped := false })
    (status 0, (s.updBel (b ^^^ 1) (fun x => { x with role := 0 })).evalAll)

/-- A link goes down as under LINK_DOWN, its pair relinquished first, and trains again at once where it is still wanted (spec/14 R382). -/
def State.retrain (s : State) (k : Nat) : State :=
  let s := match (s.linkAt k).pairNo with | some p => s.relinquish p | none => s
  ((s.linkGoesDown k 5 none).tryAttempt k).updLink k (fun l => { l with train := { l.train with tries := 0 } })

/-- A lane excluded from its link's trainings, and from those of a link that is given it later (spec/14 R367, R382). -/
def State.swapLane (s : State) (n : Nat) : Answer × State :=
  let exclude (s : State) : State := s.updLane n (fun x => { x with excluded := true })
  match s.laneLink n with
  | none => (status 0, exclude s)
  | some k =>
    let l := s.linkAt k
    let used := l.lanes.filter (fun m => (s.laneAt m).carries)
    if l.state == 3 || l.state == 4 then (status 0, (exclude (s.attemptFails k)).tryAttempt k)
    else if l.state != 5 || !used.contains n then (status 0, exclude s)
    else if 1 < useCount l.train.use then (status 0, exclude (s.updLane n Lane.squelch) |>.retrain k)
    else if l.pairNo.isSome && l.peerUp == some true then
      (status 0, exclude ((s.updLink k (fun l => { l with wantUp := false })).retrain k))
    else (status 1, s)

/-- A lane included again (spec/14 R382). -/
def State.returnLane (s : State) (n : Nat) : Answer × State :=
  if !(s.laneAt n).excluded then (status 0, s)
  else
    let s := s.updLane n (fun x => { x with excluded := false })
    match s.laneLink n with
    | none => (status 0, s)
    | some k => (status 0, if (s.linkAt k).state == 5 then s.retrain k else s)

/-- A cache bank fenced on command, or unfenced after it has passed its test (spec/14 R381). -/
def State.swapBank (s : State) (b : Nat) (back : Bool) : Answer × State :=
  if back then (if bitAt s.xl.fenced b && bitAt s.xl.fenceTest b then (status 0, s.unfenceBank b) else (status 4, s))
  else if bitAt s.xl.fenced (b ^^^ 1) then (status 4, s)
  else
    (status 0, (if bitAt s.xl.fenced b then s else s.fenceBank b).modXl (fun x => { x with fenceSwap := setBit x.fenceSwap b true }))

/-- A Camp pair's SLICE_SWAP (spec/14 R379). -/
def State.swapCamp (s : State) (b : Bool) : Answer × State :=
  if s.camp.active != b then (status 0, s)
  else if s.camp.standby != 0 then (status 1, s)
  else (status 0, s.handRole true)

/-- SLICE_SWAP (spec/14 R366, R367). -/
def State.sliceSwap (s : State) (a : BitVec 448) : Answer × State :=
  let kind := (arg a 0 8).toNat
  let unit := (arg a 2 16).toNat
  let back := arg a 4 8 == 1
  match lowestBad (sliceBad a ++ [(argOver a 4 1 1, 4), (kind = 3 && back, 4)]) with
  | some d => (badArg d, s)
  | none =>
    if !back && s.otherOut kind unit then (status 1, s)
    else match kind with
    | 0 => if back then s.returnRidge unit else s.swapRidge unit
    | 1 => if back then s.returnBelay unit else s.swapBelay unit
    | 2 => if back then s.returnLane unit else s.swapLane unit
    | 3 => s.swapCamp (unit == 1)
    | _ => s.swapBank unit back

/-- The position whose couloir a SLICE_SWAP of mailbox 0 withholds while its ridge still has records to forward or to land (spec/14 R369). -/
def State.swapStalls (s : State) (m : Nat) : Option Nat :=
  match s.taken m with
  | none => none
  | some (_, r) =>
    let a := reqArgs r
    let unit := (arg a 2 16).toNat
    let p := (s.ridgeAt unit).position.toNat
    if reqCode r == 0x0071 && !headerBad r && !s.boot.failed && m = 0 && arg a 4 8 == 0 && arg a 0 8 == 0 && decide (unit < 5) &&
        !s.otherOut 0 unit && (s.ridgeAt unit).role == 0 && s.spare.isSome && s.posBusy p then some p else none

/-- SLICE_SWAP: a ridge's waits, its couloir withheld, until what the position has logged is in STATE 2 (spec/14 R369). -/
def execSliceSwap (m : Fin 34) (s : State) : Host.Outcome State Fault Refusal :=
  ok (match s.swapStalls m.val with
      | some p => s.updPos p (fun q => { q with stalled := true })
      | none => s.command m.val [0x0071] .ring0 always (fun a s => s.sliceSwap a))

end Sys2Proof.Machine
end

