-- ==== Sys2Proof/Machine/Cairn.lean ====
section
/-! DEFINITION. The cairn table, the heartbeat, the Rope, the clock checks, the wear monitors and the time (spec/13 R338 to R345, R360 to R365;
spec/14 R383 to R386; spec/15 R390, R391). -/

namespace Sys2Proof.Machine

/-- Cairn record `i` set; a record that is all zero leaves the table. -/
def State.setCairn (s : State) (i : Nat) (c : CairnRec) : State :=
  s.modCairn (fun x => { x with recs := Tbl.set CairnRec.reset x.recs i c })

/-- The record of a report's key (spec/13 R338). -/
def State.recordOf (s : State) (r : Report) : Option Nat :=
  (s.cairn.recs.find? (fun c => c.2.valid && c.2.cause == r.cause && c.2.kind == r.kind && c.2.unit == r.unit)).map (fun c => c.1)

/-- Whether a record may be a victim, and is a better one than another (spec/13 R340): lowest SEVERITY, then oldest LAST_TIME. -/
def CairnRec.victim (c : CairnRec) : Bool := c.valid && (!c.new || c.sev == 0)
def betterVictim (a b : Nat × CairnRec) : Bool :=
  decide (a.2.sev.toNat < b.2.sev.toNat) || (a.2.sev == b.2.sev && decide (a.2.lastTime.toNat < b.2.lastTime.toNat))

/-- The slot a new record takes: the first free one, else a victim's (spec/13 R340). -/
def State.cairnSlot (s : State) : Option Nat :=
  match firstBelow 384 (fun i => !(s.cairnAt i).valid) with
  | some i => some i
  | none => (bestOf betterVictim (s.cairn.recs.filter (fun c => c.2.victim))).map (fun c => c.1)

/-- SEVERE_COUNT, DEGRADED_COUNT and LAST_SEVERE after record `i` has taken a report (spec/13 R365). SEVERE_COUNT counts the records that come to
SEVERITY 2 itself: one created with 3 is DEGRADED_COUNT's (DEDUCED, log 24). -/
def State.noteSevere (s : State) (i : Nat) (r : Report) (reached created : Bool) : State :=
  s.modCairn (fun c =>
    { c with
      severe := if reached then satInc c.severe else c.severe, degraded := if created && r.sev == 3 then satInc c.degraded else c.degraded,
      sevCause := if 2 ≤ r.sev.toNat then r.cause else c.sevCause, sevKind := if 2 ≤ r.sev.toNat then r.kind else c.sevKind,
      sevUnit := if 2 ≤ r.sev.toNat then r.unit else c.sevUnit, sevIndex := if 2 ≤ r.sev.toNat then BitVec.ofNat 9 i else c.sevIndex })

/-- The notification of a new record (spec/13 R344). -/
def State.notifyOne (s : State) (n : Notify) (sev : BitVec 2) : State :=
  if n.enable && decide (n.minSev.toNat ≤ sev.toNat) then s.sgiOccur n.target.toNat n.sgi.toNat 0xFFFE else s

/-- A report of a new key makes a record (spec/13 R338, R340, R344). -/
def State.createCairn (s : State) (r : Report) : State :=
  match s.cairnSlot with
  | none => s.modCairn (fun c => { c with lost := c.lost + 1, lostCause := r.cause, overflowed := true })
  | some i =>
    let s := s.setCairn i
      { cause := r.cause, sev := r.sev.setWidth 8, valid := true, new := true, kind := r.kind, unit := r.unit, count := r.count,
        firstDetail := r.detail, firstTime := r.first, lastTime := r.latest, lastDetail := r.last }
    let s := s.modCairn (fun c => { c with created := true, lastNew := BitVec.ofNat 9 i, reports := c.reports + r.count.setWidth 64 })
    let s := s.noteSevere i r (r.sev == 2) true
    (s.notifyOne s.cairn.notify0 r.sev).notifyOne s.cairn.notify1 r.sev

/-- A report merges into the record of its key (spec/13 R338). -/
def State.mergeCairn (s : State) (i : Nat) (r : Report) : State :=
  let old := (s.cairnAt i).sev
  let s := s.setCairn i
    { s.cairnAt i with
      count := satAdd (s.cairnAt i).count r.count.toNat, sev := if old.ult (r.sev.setWidth 8) then r.sev.setWidth 8 else old, lastTime := r.latest,
      lastDetail := r.last }
  let s := s.modCairn (fun c => { c with reports := c.reports + r.count.setWidth 64, merged := c.merged + 1 })
  s.noteSevere i r (decide (old.toNat < 2) && r.sev == 2) false

/-- One entry of the merging queue reaches the table; held keys take the place (spec/13 R339). -/
def State.drainReport (s : State) : State :=
  match s.cairn.queue with
  | [] => s.releaseHeld
  | r :: rest =>
    let s := s.modCairn (fun c => { c with queue := rest })
    (match s.recordOf r with | some i => s.mergeCairn i r | none => s.createCairn r).releaseHeld

/-- CAIRN_RECORD. -/
def execCairnRecord (s : State) : Host.Outcome State Fault Refusal := ok (if s.running then s.drainReport else s)

/-- A record acknowledged (spec/13 R343). -/
def State.ackCairn (s : State) (i : Nat) : State :=
  if i < 384 && (s.cairnAt i).valid then s.setCairn i { s.cairnAt i with new := false } else s

/-- CAIRN_ACK (spec/13 R343, R345). -/
def execCairnAck (index : BitVec 9) (s : State) : Host.Outcome State Fault Refusal := ok (if s.running then s.ackCairn index.toNat else s)

/-- The heartbeat stops: the links go down with SQUELCH, without a cairn, and every lane is squelched (spec/13 R363, spec/10 R269). -/
def State.stopHeart (s : State) (cause : BitVec 4) : State :=
  if !(s.rope.hbRunning || s.rope.hbArmed) then s
  else
    let s := s.modRope (fun r =>
      { r with hbRunning := false, hbArmed := false, hbCause := cause, hbTime := s.clk.bosc.setWidth 48 })
    let down (k : Nat) (s : State) : State :=
      let st := (s.linkAt k).state
      if st == 5 then s.linkGoesDown k 9 none else if st == 3 || st == 4 then s.attemptFails k else s
    let s := match s.colLink with | some k => down k s | none => s
    foldBelow 16 (fun n s => s.updLane n Lane.squelch) (foldBelow 16 down s)

/-- The conditions of R362 that fail a round (spec/13 R362), lowest cause first. -/
def State.roundCause (s : State) : Option (BitVec 4) :=
  if bitAt s.rope.roundSeen 1 || s.clk.fail != 0 then some 1
  else if s.xl.pos.any (fun q => match q.unserved with | some t => decide (t + 2000 ≤ s.clk.ticks) | none => false) then some 2
  else if (List.range 128).any (fun i => (s.servingBelay (4 * i)).isNone && (s.servingBelay (4 * i + 2)).isNone) then some 3
  else if (match s.rope.noCampAt with | some t => decide (t + 20000 ≤ s.clk.ticks) | none => false) then some 4
  else if bitAt s.rope.roundSeen 5 || s.wired.src.any (fun p => p.2.cfgBad) then some 5
  else none

/-- SELF_CHECK_ROUND: a pass toggles the heartbeat and starts one that is armed; a failure stops it (spec/13 R362, R363). -/
def execSelfCheckRound (s : State) : Host.Outcome State Fault Refusal :=
  ok (if !(s.aon && (s.rope.hbRunning || s.rope.hbArmed)) then s
      else
        let c := s.roundCause
        let s := s.modRope (fun r => { r with roundSeen := 0 })
        match c with
        | some c => s.stopHeart c
        | none => s.modRope (fun r => { r with hbRunning := true, hbArmed := false, hbOut := !r.hbOut }))

/-- HB_STOP: bit 0 stops the heartbeat with cause 7 (spec/13 R361, R362). -/
def execHbStop (data : Word) (s : State) : Host.Outcome State Fault Refusal := ok (if s.aon && bitAt data 0 then s.stopHeart 7 else s)

/-- ISOLATE written (spec/13 R337, R365). -/
def State.isolateWrite (s : State) (data : Word) : State :=
  let unit := (field data 16 8).toNat
  if !bitAt data 31 then s
  else if bitAt data 0 then s.isolateBelay unit false
  else if unit < 5 then s.isolateRidge unit false
  else s

/-- ISOLATE (spec/13 R365). -/
def execIsolate (data : Word) (s : State) : Host.Outcome State Fault Refusal := ok (if s.linksAlive then s.isolateWrite data else s)

/-- OUTPUTS of the Rope (spec/01 R27): the OR of each output's inputs, 0 out of service, blanked during a pulse test (spec/14 R384). -/
def State.ropeOutputs (s : State) : BitVec 16 :=
  if !s.rope.serving then 0
  else
    let out := (List.range 64).foldl (fun (m : BitVec 16) i =>
      if bitAt s.rope.inputs i && (s.ropeOf i).mapped then setBit m (s.ropeOf i).output.toNat true else m) 0
    if s.rope.pulseUntil.isSome then setBit out s.rope.pulseOutput.toNat false else out

/-- ROPE_INPUT: a filtered input changes (spec/01 R27, spec/13 R361); one that reaches the output of a running pulse test disturbs it (spec/14 R384). -/
def execRopeInput (i : Fin 64) (level : Bool) (s : State) : Host.Outcome State Fault Refusal :=
  let o := s.ropeOf i.val
  ok (s.modRope (fun r =>
    { r with
      inputs := setBit r.inputs i.val level, seen := if level && r.serving && !bitAt r.inputs i.val then setBit r.seen i.val true else r.seen,
      pulseDist := r.pulseDist || (r.pulseUntil.isSome && level && o.mapped && o.output == r.pulseOutput) }))

/-- A PULSE write of ring 0 while no test runs (spec/14 R383, R384); `seen` is what the tap sees. -/
def State.pulseWrite (s : State) (data : Word) (seen : Bool) : State :=
  let i := (field data 0 6).toNat
  let o := s.ropeOf i
  if !bitAt data 31 || s.rope.pulseUntil.isSome then s
  else
    let s := s.modRope (fun r => { r with pulseInput := field data 0 6, pulseOutput := if o.mapped then o.output else 0 })
    if !o.mapped then s.modRope (fun r => { r with pulseResult := 5 })
    else if bitAt s.rope.inputs i || bitAt s.ropeOutputs o.output.toNat then s.modRope (fun r => { r with pulseResult := 4 })
    else s.modRope (fun r =>
      { r with
        pulseResult := 1, pulseUntil := some (s.clk.bosc + 10), pulseSeen := seen, pulseDist := false, pulseTests := satInc r.pulseTests })

/-- The pulse test ends after 10 BOSC cycles (spec/14 R384). -/
def State.pulseEnd (s : State) : State :=
  match s.rope.pulseUntil with
  | none => s
  | some t =>
    if s.clk.bosc.toNat < t.toNat then s
    else s.modRope (fun r =>
      { r with pulseUntil := none, pulseResult := if r.pulseDist then 6 else if r.pulseSeen then 2 else 3 })

/-- PULSE (spec/14 R383). -/
def execPulse (ring : BitVec 2) (data : Word) (seen : Bool) (s : State) : Host.Outcome State Fault Refusal :=
  ok (if s.aon && s.rope.serving && ring == 0 then s.pulseWrite data seen else s)

/-- CLOCK_FAULT: a check of ROOTCLK, FCLK, DCLK, MCLK or TCLK fails (spec/13 R336, R362; spec/15 R390). -/
def execClockFault (which : Fin 5) (s : State) : Host.Outcome State Fault Refusal :=
  ok (if !(s.aon && s.clk.checked) || bitAt s.clk.fail which.val then s
      else
        let s := s.modClk (fun c =>
          { c with fail := setBit c.fail which.val true, faultSeen := true, timeOnBosc := c.timeOnBosc || which.val == 4 })
        (s.modRope (fun r => { r with roundSeen := setBit r.roundSeen 1 true })).report (.other 0xB0000) 0x14 0 0 2 (BitVec.ofNat 32 which.val))

/-- TIME_LOAD: applied before FAST_READY; after it, never backwards (spec/15 R391). -/
def execTimeLoad (t : Word) (s : State) : Host.Outcome State Fault Refusal :=
  ok (if s.pwr.coldHeld || s.pwr.off then s
      else if s.boot.fastReady && decide (t.toNat < s.clk.time.toNat) then
        s.modClk (fun c => { c with timeRefused := satInc c.timeRefused, timeBack := true })
      else s.modClk (fun c => { c with time := t, timeLoads := satInc c.timeLoads }))

/-- WEAR_MEASURE: every 1,000,000,000 ticks one region in turn (spec/14 R386). -/
def execWearMeasure (ppm : BitVec 32) (s : State) : Host.Outcome State Fault Refusal :=
  ok (if s.aon && decide (s.wear.measuredAt + 1000000000 ≤ s.clk.ticks) then
        s.modWear (fun w =>
          { w with
            ppm := updList (fun _ => ppm) w.ppm w.next, measured := updList satInc w.measured w.next, next := (w.next + 1) % 8,
            measuredAt := s.clk.ticks, warn := w.warn || decide (30000 ≤ ppm.toNat), limit := w.limit || decide (40000 ≤ ppm.toNat) })
      else s)

/-- The bin of a reading in °C + 64 (spec/14 R386). -/
def tempBinOf (r : BitVec 8) : Nat :=
  let n := r.toNat
  if n < 44 then 0 else if n < 104 then 1 else if n < 149 then 2 else if n < 169 then 3 else if n < 189 then 4 else if n < 204 then 5
  else if n ≤ 214 then 6 else 7

/-- TEMP_BIN: each second the highest of the four readings adds to its bin (spec/14 R386). -/
def execTempBin (a b c d : BitVec 8) (s : State) : Host.Outcome State Fault Refusal :=
  ok (if s.aon && decide (s.wear.binnedAt + 100000000 ≤ s.clk.ticks) then
        (let m := BitVec.ofNat 8 (max (max a.toNat b.toNat) (max c.toNat d.toNat))
         s.modWear (fun w =>
           { w with
             seconds := updList (fun x => x + 1) w.seconds (tempBinOf m), binnedAt := s.clk.ticks, tempNow := m,
             tempMax := if w.tempMax.ult m then m else w.tempMax, hot := w.hot || decide (214 < m.toNat) }))
      else s)

end Sys2Proof.Machine
end

