-- ==== Sys2Proof/WellFormed.lean ====
section
/-! DEFINITION. Which commands name something the block has. The operands' types say most of it; what they leave is checked here. -/

namespace Sys2Proof

/-- The 8-byte words of an SRAM region (spec/17 R437; regions 0 to 12 as spec/13 R342 numbers them; the word size is assumption log 9). -/
def sramWords (region : Fin 13) : Nat :=
  128 * (match region.val with
    | 0 => 256
    | 1 => 256
    | 2 => 1536
    | 3 => 256
    | 4 => 64
    | 5 => 2048
    | 6 => 512
    | 7 => 512
    | 8 => 1024
    | 9 => 512
    | 10 => 512
    | 11 => 512
    | _ => 192)

/-- A command whose operands the block can meet: a scrub read names a word inside its region. -/
def Instr.wf (i : Instr) : Bool :=
  match i with
  | .scrubRead region index _ _ => decide (index < sramWords region)
  | _ => true

end Sys2Proof
end

