-- ==== Sys2Proof/Machine/Scrub.lean ====
section
/-! DEFINITION. The scrub engine and what an uncorrectable word does (spec/13 R354, spec/14 R380, R381). Where a word of a region lies is the model's
(assumption log 9). -/

namespace Sys2Proof.Machine

/-- ECC reports of a bank within the last second, a new one included (spec/14 R381). -/
def State.noteBankEcc (s : State) (b : Nat) : State :=
  s.modXl (fun x => { x with bankEcc := (b, s.clk.ticks) :: x.bankEcc.filter (fun e => decide (s.clk.ticks < e.2 + 100000000)) })

/-- Tamri fences a bank of its own accord where its neighbour is in use (spec/14 R381): whether it did, and the state after. -/
def State.fenceByTamri (s : State) (b : Nat) : Bool × State :=
  if bitAt s.xl.fenced (b ^^^ 1) || bitAt s.xl.fenced b || !s.camp.executing then (false, s)
  else (true, (s.fenceBank b).modXl (fun x => { x with bankEcc := x.bankEcc.filter (fun e => e.1 != b) }))

/-- The scrub engine reads a word (spec/14 R380): words come in ascending order, so one that does not lie above the last begins the next pass. -/
def State.scrubPass (s : State) (region index : Nat) : State :=
  s.modXl (fun x =>
    let above := decide (x.scrubAt.1 < region) || (x.scrubAt.1 == region && decide (x.scrubAt.2 < index))
    let x := if above then x else { x with scrubLast := x.scrubNow, scrubNow := [] }
    { x with scrubAt := (region, index) })

/-- A word that corrects in this pass and did in the one before has a stuck bit (spec/14 R380). -/
def State.stuckBit (s : State) (region index : Nat) : Bool := s.xl.scrubLast.contains (region, index)

/-- A word corrected (spec/13 R342; spec/14 R380, R381): a stuck bit sets bit 31 of DETAIL, and the sixteenth in a bank within 1 s fences it. -/
def State.eccCorrected (s : State) (region : Nat) (index : Nat) : State :=
  let stuck := s.stuckBit region index
  let s := s.modXl (fun x => { x with scrubNow := if x.scrubNow.contains (region, index) then x.scrubNow else (region, index) :: x.scrubNow })
  let s := s.report (.other (0xA0000 + region)) 0x01 4 (BitVec.ofNat 16 region) 0 (BitVec.ofNat 32 index ||| (if stuck then 0x80000000 else 0))
  if region ≠ 2 then s
  else
    let b := index / 24 / 512
    let s := s.noteBankEcc b
    if 16 ≤ (s.xl.bankEcc.filter (fun e => e.1 == b)).length then (s.fenceByTamri b).2 else s

/-- The line of a set that a way names, by its place among the set's lines. -/
def State.dropWay (s : State) (set way : Nat) : State :=
  let here (l : XLine) : Bool := (s.foldSet l.set).toNat == set
  match (s.xl.cache.filter here)[way]? with
  | some l => s.modXl (fun x => { x with cache := dropFirst (fun y => y == l) x.cache })
  | none => s

/-- A line of the device-table cache that is not locked, invalidated; Tamri reloads a locked one (spec/13 R354). -/
def State.dropDevWay (s : State) (set way : Nat) : State :=
  match (s.xl.devCache.filter (fun l => (devSet l.req).toNat == set))[way]? with
  | some l => if l.locked then s else s.modXl (fun x => { x with devCache := dropFirst (fun y => y == l) x.devCache })
  | none => s

/-- A private bank's word zeroed: its sources are disabled (spec/13 R354; the words at the offsets of spec/02 R50). -/
def State.zeroPrivWord (s : State) (t w : Nat) : State :=
  let base := 8192 + 64 * t
  let tf : Fin 512 := Fin.ofNat 512 t
  let off (from_ n : Nat) (s : State) : State := foldBelow n (fun i s => s.setEn (base + from_ + i) false) s
  if w = 0 then s.eachBit base .full 0 State.setEn
  else if w = 1 then s.eachBit base .full 0 (fun s n _ => s.updSrc n (fun x => x.clearPend false))
  else if w = 6 then foldBelow 48 (fun i s => s.updSrc (base + i) (fun x => { x with act := false })) (off 0 48 s)
  else if w = 7 then foldBelow 48 (fun i s => s.updSrc (base + i) (fun x => { x with storm := false })) (off 0 48 s)
  else if 8 ≤ w && w < 16 then s.cfgApply (.privPrio tf (Fin.ofNat 8 (w - 8))) .full 0
  else if w = 16 then (off 0 32 s).cfgApply (.privTrigLo tf) .full 0
  else if w = 17 then (off 32 16 s).cfgApply (.privTrigHi tf) .full 0
  else if w = 18 then (off 16 32 s).cfgApply (.privPol tf) .full 0
  else if w = 19 then (off 16 32 s).modWired (fun x => { x with bank := Tbl.set BankStorm.reset x.bank t BankStorm.reset })
  else if w = 20 then (off 0 32 s).cfgApply (.privRingLo tf) .full 0
  else if w = 21 then (off 32 16 s).cfgApply (.privRingHi tf) .full 0
  else s

/-- A shared source whose configuration copies have both failed: its PRIORITY is taken as 0 (spec/13 R354, R362). -/
def State.configLost (s : State) (n : Nat) : State :=
  let s := s.modRope (fun r => { r with roundSeen := setBit r.roundSeen 5 true })
  s.updSrc n (fun x => { x with cfgBad := true }.drop false)

/-- A pending instance on chip rebuilt from its logbook entry with REPLAYED = 1 (spec/13 R354, R358). -/
def State.rebuildInst (s : State) (t n : Nat) : State :=
  match ((s.tgtAt t).store.filter (fun x => !x.spilled))[n]? with
  | some x => s.updInst t x.serial (fun x => { x with replayed := true, arrival := s.restored x.origin x.serial x.input x.arrival })
  | none => s

/-- An entry in use of the pinned store is reloaded from its DRAM master; its records wait (spec/13 R354). -/
def State.pinnedLost (s : State) (i : Nat) : State :=
  if !(s.pinnedAt i).valid then s
  else s.modXl (fun x => { x with rewrites := if x.rewrites.contains (.pinned i) then x.rewrites else x.rewrites ++ [.pinned i] })

/-- An uncorrectable residency-map word: both entries are rewritten by Tamri, their records wait (spec/08 R193, spec/13 R354). -/
def State.mapLost (s : State) (v : Nat) : State :=
  if !(s.vtAt v).defined then s
  else
    let r : Rewrite := .map (BitVec.ofNat 16 v)
    (s.modXl (fun x => { x with rewrites := if x.rewrites.contains r then x.rewrites else x.rewrites ++ [r] })).degrade (.other 0xA0006) 12 (BitVec.ofNat 16 v) 3

/-- A resident context's fields at their reset values (spec/13 R354). -/
def State.contextLost (s : State) (c : Nat) : State :=
  if !(s.ctxAt c).used then s
  else ((s.updFrame (2048 + c) (fun _ => Frame.reset)).degrade (.other 0xA0006) 12 (s.ctxAt c).vt 3).evalAll

/-- A descriptor held in SRAM fails: VALID = 0 until Tamri rewrites it (spec/16 R426). -/
def State.descLost (s : State) (i : Nat) : State :=
  if i = 1 || i = 2 || i = 12 then s
  else
    (s.modAcc (fun a => { a with slot := Tbl.upd Desc.reset a.slot i (fun d => { d with bad := true }) })).modXl (fun x =>
      { x with rewrites := if x.rewrites.contains (.slot i) then x.rewrites else x.rewrites ++ [.slot i] })

/-- A cairn record's word zeroed (spec/13 R354). -/
def CairnRec.zeroWord (c : CairnRec) (w : Nat) : CairnRec :=
  match w with
  | 0 => { c with cause := 0, sev := 0, valid := false, new := false, kind := 0, unit := 0 }
  | 1 => { c with count := 0, firstDetail := 0 }
  | 2 => { c with firstTime := 0, lastTime := field c.lastTime 16 32 ++ (0#16 : BitVec 16) }
  | _ => { c with lastTime := (field c.lastTime 0 16).setWidth 48, lastDetail := 0 }

/-- A flit of a replay buffer fails: the link goes down (spec/13 R354, spec/09 R228). -/
def State.replayLost (s : State) (k n : Nat) : State :=
  if n < (s.linkAt k).tx.replay.length then s.linkGoesDown k 3 (some (0x0D, 0)) else s

/-- A retained line fails as a failed write (spec/13 R354, R355). -/
def State.retainedLost (s : State) (n : Nat) : State :=
  match (s.mem.out.filter (fun r => r.write))[n]? with
  | some r => (s.modMem (fun m => { m with out := m.out.filter (fun x => x != r) })).memFailed r 0
  | none => s

/-- A pair's memory fails: a pair fault (spec/13 R353, R354). -/
def State.campMemLost (s : State) (b : Bool) : State :=
  if !s.camp.execOf b then s else (if s.camp.active == b then s.activeFails b else s.standbyFails b).pumpAll

/-- An uncorrectable word (spec/13 R354). `both`: in region 0, the other copy has failed too. It counts as a second fault whatever its region, so DEGRADED is
raised (spec/01 R10), in region 6 for the virtual target. -/
def State.eccLost (s : State) (region index : Nat) (both : Bool) : State :=
  let s := s.report (.other (0xA0000 + region)) 0x02 4 (BitVec.ofNat 16 region) 2 (BitVec.ofNat 32 index)
  let s := if region = 6 then s else s.degrade (.other (0xA0000 + region)) 4 (BitVec.ofNat 16 region) 3
  match region with
  | 0 => if both then s.configLost (index % 16384 / 2) else s
  | 1 => s.zeroPrivWord (index / 64) (index % 64)
  | 2 =>
    let x := s.fenceByTamri (index / 24 / 512)
    if x.1 then x.2 else s.dropWay (index / 24) (index / 2 % 12)
  | 3 => s.pinnedLost (index / 2)
  | 4 => s.dropDevWay (index / 8) (index / 2 % 4)
  | 5 => s.rebuildInst (index / 512) (index % 512)
  | 6 =>
    if index < 32768 then (s.mapLost (2 * index)).mapLost (2 * index + 1) else s.contextLost ((index - 32768) / 16)
  | 8 => s.isolateBelay (index / 512) true
  | 9 => s.campMemLost (32768 ≤ index)
  | 10 =>
    (match (s.log.filter (fun e => !e.2.overflow))[index / 2]? with
     | some e => s.updLog e.1 (fun x => { x with intact := false })
     | none => s)
  | 11 =>
    if index < 32768 then s.descLost (index / 2)
    else if index < 32768 + 1536 then s.setCairn ((index - 32768) / 4) ((s.cairnAt ((index - 32768) / 4)).zeroWord (index % 4))
    else s
  | 12 => if index < 16384 then s.replayLost (index / 1024) (index % 1024 / 4) else s.retainedLost ((index - 16384) / 4)
  | _ => s

/-- A scrub read costs a SCRUB cycle at the belay whose SRAM it reads (spec/12 R306, spec/14 R380). -/
def State.chargeScrub (s : State) (region index : Nat) : State :=
  if region = 5 then s.charge 6 1 (index / 1024) else if region = 8 then s.charge 6 1 (index / 512) else s

/-- SCRUB_READ: one SRAM word (spec/14 R380): good, corrected (`some false`) or uncorrectable (`some true`); `both` is of a word of region 0. A word that the region does not have is no command of the block. -/
def execScrubRead (region : Fin 13) (index : Nat) (error : Option Bool) (both : Bool) (s : State) : Host.Outcome State Fault Refusal :=
  if sramWords region ≤ index then .refused .illFormed
  else if !s.running then ok s
  else
    let s := (s.chargeScrub region.val index).scrubPass region.val index
    match error with
    | none => ok s
    | some false => ok (s.eccCorrected region.val index)
    | some true => ok (s.eccLost region.val index both)

end Sys2Proof.Machine
end

