-- ==== Sys2Proof/Machine/WakeRecord.lean ====
section
/-! DEFINITION. The wake record's body (spec/15 R408): the rescue window (spec/13 R365), the wear frame (spec/14 R386), the cairn records (spec/13
R341) and the logbook entries in use (spec/13 R346). -/

namespace Sys2Proof.Machine

/-- A W1C register from its bits, bit 0 first. -/
def flagWord (l : List Bool) : Word := (enumFrom 0 l).foldl (fun w p => w ||| putBit p.1 p.2) 0

/-- Word `i` of BELAY_OUT (spec/13 R365). -/
def State.belayOut (s : State) (i : Nat) : Word :=
  (List.range 64).foldl (fun w j => w ||| putBit j (s.belAt (64 * i + j)).out) 0

/-- The rescue window (spec/13 R365). -/
def State.rescueWord (s : State) (o : Nat) : Word :=
  match o with
  | 0x000 =>
    put 0 s.readyBits ||| putBit 3 s.rope.hbRunning ||| put 4 s.rope.hbCause ||| putBit 8 s.camp.aOk ||| putBit 9 s.camp.bOk |||
      putBit 10 s.camp.active
  | 0x008 => s.clk.bosc
  | 0x010 => put 0 s.ridgeRoles
  | 0x018 => s.belayOut 0
  | 0x020 => s.belayOut 1
  | 0x028 => s.belayOut 2
  | 0x030 => s.belayOut 3
  | 0x038 => s.cairn.lastSevere
  | 0x040 => put 0 s.cairn.severe ||| put 32 s.cairn.degraded
  | _ => 0

/-- The wear frame (spec/14 R386). -/
def State.wearWord (s : State) (o : Nat) : Word :=
  let w := s.wear
  if o < 0x040 then put 0 (w.ppm.getD (o / 8) 0) ||| put 32 (w.measured.getD (o / 8) 0)
  else if o < 0x080 then put 0 (w.seconds.getD ((o - 0x040) / 8) 0)
  else if o = 0x080 then put 0 w.tempNow ||| put 8 w.tempMax
  else if o = 0x088 then flagWord [w.warn, w.limit, w.hot]
  else 0

/-- WEAR_READ of the test-access port (spec/14 R385): the eight SLOWDOWN_PPM values as one 256-bit register, region 0 lowest (DESIGN CHOICE, assumption log
63). -/
def State.tapWear (s : State) : BitVec 256 :=
  (List.range 8).foldl (fun v r => v ||| ((s.wear.ppm.getD r 0).setWidth 256 <<< (32 * r))) 0

/-- The logbook entries of position `p` in serial order, modulo 2^30 (spec/04 R97): those at or above the position's next serial are older. -/
def State.logOf (s : State) (p : Nat) : List (Nat × LogEntry) :=
  let l := s.log.filter (fun e => e.1 / 2 ^ 30 == p)
  let c := (s.posAt p).serial.toNat
  l.filter (fun e => decide (c ≤ e.1 % 2 ^ 30)) ++ l.filter (fun e => decide (e.1 % 2 ^ 30 < c))

/-- The entries that are not free, position by position, in serial order (spec/15 R408). -/
def State.logInOrder (s : State) : List (Nat × LogEntry) := s.logOf 0 ++ (s.logOf 1 ++ (s.logOf 2 ++ s.logOf 3))

/-- 8-byte word `w` of a wake record's body, of which the logbook entries are `l` (spec/15 R408). -/
def State.wakeWord (s : State) (l : List (Nat × LogEntry)) (w : Nat) : Word :=
  if w < 17 then s.rescueWord (8 * (w - 8))
  else if w < 35 then s.wearWord (8 * (w - 17))
  else if w < 40 then 0
  else if w < 1576 then (s.cairnAt ((w - 40) / 4)).words.getD ((w - 40) % 4) 0
  else match l[(w - 1576) / 2]? with
    | some e => field (e.2.bits (BitVec.ofNat 32 e.1)) (64 * (w % 2)) 64
    | none => 0

/-- Line `i` of a wake record's body: 32 bytes, of which those past the record's end are 0. -/
def State.wakeLine (s : State) (l : List (Nat × LogEntry)) (i : Nat) : BitVec 256 :=
  lineOf (s.wakeWord l (4 * i)) (s.wakeWord l (4 * i + 1)) (s.wakeWord l (4 * i + 2)) (s.wakeWord l (4 * i + 3))

/-- The body lines of the wake record, in ascending address order (spec/15 R407); the header's two lines come last. -/
def State.writeWake (s : State) (size : Nat) : State :=
  let l := s.logInOrder.take 15596
  foldFrom (fun i t => t.memIssue .save true (s.nvmLine + BitVec.ofNat 47 i) (s.wakeLine l i) false) 2 (ceilDiv size 32 - 2)
    (s.modPwr (fun p => { p with saveHead := false }))

end Sys2Proof.Machine
end

