-- ==== Sys2Proof/Machine/Power.lean ====
section
/-! DEFINITION. Resets, start-up, PARK, power failure and the noise source (spec/15 R392 to R412; spec/11 R292 to R295, R300, R301; spec/03 R63 to
R65; spec/04 R116, R117). -/

namespace Sys2Proof.Machine

/-- The lines of the wired sources, which a cold reset does not move. -/
def State.linesOnly (s : State) : Tbl Source :=
  foldList (fun (p : Nat × Source) t => Tbl.set Source.reset t p.1 { Source.reset with line := p.2.line }) s.wired.src []

/-- The TGT_PRESENT levels. -/
def State.presentOnly (s : State) : Tbl Target :=
  foldList (fun (p : Nat × Target) t => Tbl.set Target.reset t p.1 { Target.reset with present := p.2.present }) s.tgt []

/-- The PASSn_RESET_N levels, and whether each PCLK runs. -/
def State.passPins (s : State) : Tbl PassPort :=
  foldList (fun (p : Nat × PassPort) t => Tbl.set PassPort.reset t p.1 { PassPort.reset with resetN := p.2.resetN, pclk := p.2.pclk.map (fun _ => 0) }) s.pass []

/-- Whether each LREFCLK toggles. -/
def State.quadPins (s : State) : Tbl Quad :=
  foldList (fun (q : Nat × Quad) t => Tbl.set Quad.reset t q.1 { Quad.reset with ref := q.2.ref }) s.quads []

/-- COLD_RESET_N falls (spec/15 R398): every field at its reset value; the ROM, the levels of the input pins, the waiting commands and the draws
made stay. -/
def State.coldReset (s : State) : State :=
  { State.reset with
    pending := s.pending, freeCtr := s.freeCtr, rom := s.rom, wired := { Wired.reset with src := s.linesOnly }, tgt := s.presentOnly, pass := s.passPins,
    quads := s.quadPins,
    rope := { Rope.reset with inputs := s.rope.inputs } }

/-- COLD_RESET. -/
def execColdReset (s : State) : Host.Outcome State Fault Refusal := ok s.coldReset

/-- The strapped Rope map (spec/15 R392): input i to output i / 4, or every input unmapped. -/
def strappedMap (mapped : Bool) : Tbl RopeOut :=
  if mapped then (List.range 64).map (fun i => (i, { mapped := true, output := BitVec.ofNat 4 (i / 4) })) else []

/-- COLD_RESET_RELEASE: the straps are sampled, the Rope serves, the heartbeat's first round begins (spec/15 R392, R399). In production mode the Rope's outputs
stay at 0 (spec/14 R385). -/
def execColdResetRelease (senior ropeDefault tapMode : Bool) (fwBase : BitVec 40) (s : State) : Host.Outcome State Fault Refusal :=
  ok (if !s.pwr.coldHeld then s
      else
        let s := s.modPwr (fun p => { p with coldHeld := false })
        let s := { s with straps := { senior := senior, ropeDefault := ropeDefault, tapMode := tapMode, fwBase := fwBase } }
        let s := s.modRope (fun r => { r with serving := !tapMode, map := strappedMap ropeDefault, seen := r.inputs, hbArmed := true })
        (s.modBoot (fun b => { b with aonUp := true })).modClk (fun c => { c with checked := true }))

/-- SRAM_ZEROED (spec/15 R399). -/
def execSramZeroed (s : State) : Host.Outcome State Fault Refusal :=
  ok (if s.aon && !s.pwr.off then s.modBoot (fun b => { b with sramZeroed := true }) else s)

/-- The boot ROM's first read, of the platform descriptor at FW_IMAGE_BASE (spec/11 R292, R294): two lines. No quota is in force before CAMP_READY (spec/12
R314), so its lines go out above ration. -/
def State.bootRead (s : State) : State :=
  let a : BitVec 47 := s.straps.fwBase ++ (0#7 : BitVec 7)
  (s.memEnter true .boot false a 0 false).memEnter true .boot false (a + 1) 0 false

/-- The boot ROM has read `n` lines (spec/11 R294, spec/12 R334), the descriptor's among them; of the others the port's grants, bytes and latencies are not followed (DESIGN CHOICE,
assumption log 62). -/
def State.bootReads (s : State) (n : Nat) : State :=
  let keep (l : List MemReq) : List MemReq := l.filter (fun r => r.owner != .boot)
  (s.modMem (fun m => { m with waits := keep m.waits, queued := keep m.queued, out := keep m.out })).modRat (fun r =>
    { r with reads := r.reads + BitVec.ofNat 64 n })

/-- FAST_READY: POLUIF_AVAIL rises, but for production mode (spec/14 R385), the wired path goes live, Camp A leaves reset (spec/15 R399; spec/02 R33; spec/11 R294; spec/13 R365). -/
def execFastReady (s : State) : Host.Outcome State Fault Refusal :=
  ok (if !(s.aon && !s.pwr.off && s.boot.sramZeroed) || s.boot.fastReady then s
      else
        let s := (s.modBoot (fun b => { b with fastReady := true })).modPwr (fun p => { p with avail := !s.straps.tapMode })
        (((s.modCamp (fun c => { c with execA := true, aOk := true })).sampleLines).bootRead).evalAll)

/-- Tamri's own REKEY, once, at the later of ENTROPY_READY and CAMP_READY; it waits for the conditions under which any REKEY runs (spec/04 R117, R118). -/
def State.ownRekey (s : State) : State :=
  if s.running && s.rekeyDue && s.served && s.mayRekey then
    (s.modCamp (fun c => { c with rekeyed := true })).rekeyNow
  else s

/-- M, the open part of the spill pool (spec/11 R292). -/
def descSpillOpen (d : BitVec 512) : BitVec 32 := if (field d 288 32).toNat < 65536 then 65536 else field d 288 32

/-- The size of the fixed structures and the spill pool's open part: 12.5 MiB + 32 × M (spec/11 R292). -/
def fixedBytes (m : BitVec 32) : Nat := 13107200 + 32 * m.toNat

/-- Step 1 of the boot ROM: MAGIC, CRC and TABLE_SIZE of the platform descriptor (spec/11 R292, R294). -/
def descOk (d : BitVec 512) : Bool :=
  let size := (field d 128 64).toNat
  field d 0 32 == (0x54414C50 : BitVec 32) && crc32 d 0x3C == field d 480 32 && decide (16777216 ≤ size) && size % 4096 == 0 &&
    decide (fixedBytes (descSpillOpen d) ≤ size)

/-- Step 2: MAGIC, INTERFACE_LEVEL and CODE_LENGTH of the image (spec/11 R293, R294). -/
def bootImageOk (i : Image) : Bool := imgMagic i == (0x524D4154 : BitVec 32) && decide (4 ≤ (imgLevel i).toNat) && imgCodeOk i 196608

/-- A failed boot: the cairn names the step, and the boot ROM serves every mailbox (spec/11 R294). -/
def State.bootFails (s : State) (step : Nat) : State :=
  ((s.report (.other 0x80000) 0x16 13 0 2 (BitVec.ofNat 32 step)).modBoot (fun b => { b with failed := true })).openMailboxes

/-- Whether a header read at boot is one: MAGIC and CRC right (spec/15 R411). -/
def headerGood (h : BitVec 512) : Bool := field h 0 32 == (0x454B4157 : BitVec 32) && crc32 h 0x3C == field h 480 32

/-- Whether a last-words slot is one of the header's session (spec/15 R411). -/
def slotGood (h w : BitVec 512) : Bool :=
  field w 0 32 == (0x5453414C : BitVec 32) && crc32 w 0x3C == field w 480 32 && field w 32 32 == field h 64 32

/-- The save check at boot (spec/15 R411): an armed header that no save followed raises SAVE_SKIPPED. -/
def State.saveCheck (s : State) (h w : BitVec 512) : State :=
  if headerGood h && field h 32 8 == (1 : BitVec 8) then
    s.report (.other 0) 0x17 0 0 1 (if slotGood h w then (field w 128 8).setWidth 32 else 0x100)
  else s

/-- Tamri writes the header with STATE 1 and a SAVE_SEQ (spec/15 R408), as its other writes under CONFIG (spec/12 R306). -/
def State.arm (s : State) (seq : BitVec 32) : State :=
  let h : NvHeader := { NvHeader.reset with state := 1, saveSeq := seq }
  (s.modPwr (fun p => { p with armed := true, saveSeq := seq, header := h })).writeHeader .config h

/-- What Tamri reads from the descriptor and the image, and where it places its tables (spec/11 R292, R294). -/
def State.placeTables (s : State) (d : BitVec 512) (i : Image) : State :=
  let a := s.drawAlloc
  let b := a.2.drawAlloc
  let c := b.2.drawAlloc
  let r := c.2.drawAlloc
  let m := descSpillOpen d
  let pages := ((field d 128 64).toNat - fixedBytes m) / 4096
  r.2.modBoot (fun x =>
    { x with
      level := imgLevel i, fwVersion := imgVersion i, secVersion := imgSecVersion i, tableBase := field d 64 64, tableSize := field d 128 64,
      nvmWindow := field d 192 64, nvmSize := field d 256 32, spillOpen := m, devBase := a.1, vtBase := b.1, spillBase := c.1, tableFree := 0,
      zeroing :=
        if pages = 0 then []
        else [{ act := 5, belay := 0, page := r.1, pages := pages, next := r.1 ++ (0#7 : BitVec 7), left := 128 * pages, vt := none }],
      campReady := true })

/-- Tamri starts in both pairs, sets CAMP_READY, opens the mailboxes and the Pass ports, and arms the save (spec/11 R294; spec/15 R408, R411). -/
def State.bootSucceeds (s : State) (d : BitVec 512) (i : Image) (memKHz : BitVec 32) (h w : BitVec 512) : State :=
  let s := (s.placeTables d i).bootReads 4
  let s := s.modCamp (fun c => { c with execB := true, bOk := true, standby := 0, copySeq := c.execSeq })
  let s := s.modRat (fun r => { r with ready := true, since := r.round, memKHz := memKHz })
  let s := (s.modClk (fun c => { c with memclkOk := true })).openMailboxes
  let s := foldBelow 8 (fun n s => s.passRise n) s
  let s := (s.saveCheck h w).arm ((if headerGood h then field h 64 32 else 0) + 1)
  s.ownRekey

/-- BOOT (spec/11 R293, R294): memory is available; `desc` and `img` are what the boot ROM reads, `header` and `lastWords` what Tamri reads (spec/15
R411), `memKHz` the measured MEMCLK (spec/12 R318). -/
def execBoot (desc : BitVec 512) (img : Image) (memKHz : BitVec 32) (header lastWords : BitVec 512) (s : State) : Host.Outcome State Fault Refusal :=
  ok (if !(s.running && s.camp.execA) || s.boot.campReady || s.boot.failed then s
      else if !descOk desc then (s.bootReads 2).bootFails 1
      else if !bootImageOk img then (s.bootReads 6).bootFails 2
      else
        let code := (imgCodeLength img).toNat / 32
        let s := (s.bootReads (6 + code)).countVerify (imgSigned s.rom img)
        if imgSigned s.rom img then s.bootSucceeds desc img memKHz header lastWords else s.bootFails 3)

/-- ENTROPY_READY (spec/11 R301): held links look again (spec/09 R231). -/
def execEntropyReady (s : State) : Host.Outcome State Fault Refusal :=
  ok (if !(s.aon && !s.pwr.off) || s.boot.entropy then s
      else
        let s := (s.modBoot (fun b => { b with entropy := true })).modCamp (fun c => { c with healthFailed := 0 })
        if s.running then s.ownRekey.resumeHeld else s)

/-- An ENTROPY_HEALTH report (spec/13 R342). -/
def State.entropyCairn (s : State) (detail : Nat) : State :=
  (s.modCamp (fun c => { c with healthFailed := 1 })).report (.other 0) 0x18 0 0 1 (BitVec.ofNat 32 detail)

/-- ENTROPY_HEALTH (spec/11 R301): a start-up test fails (0; the first four after cold reset are silent), or the repetition count (1) or the adaptive
proportion test (2) fails. -/
def execEntropyHealth (kind : Fin 3) (s : State) : Host.Outcome State Fault Refusal :=
  ok (if !(s.aon && !s.pwr.off) then s
      else if kind.val = 0 then
        (if s.boot.entropy then s
         else if s.camp.startFails < 4 then s.modCamp (fun c => { c with startFails := c.startFails + 1 })
         else s.entropyCairn 0)
      else if !s.boot.entropy then s
      else
        let s := foldBelow 16 (fun k s => s.settleHeld k) (s.modBoot (fun b => { b with entropy := false }))
        let s := s.modCamp (fun c =>
          { c with
            startFails := 4, rctFails := if kind.val = 1 then satInc c.rctFails else c.rctFails,
            aptFails := if kind.val = 2 then satInc c.aptFails else c.aptFails })
        s.entropyCairn kind.val)

/-- The couloirs go on for 320 FCLK cycles, 200 ns, in which the posted-write buffer drains (spec/15 R401, R404). -/
def State.drainWrites (s : State) : State :=
  foldBelow 320 (fun _ s => foldBelow 4 (fun p s => if s.couloirOpen p then s.contest p else s) s) s

/-- Step 2 of a warm reset (spec/15 R401): every posted write is answered before POLUIF_AVAIL falls. -/
def State.warmDrain (s : State) (held : State → State) : State :=
  let s := held s.drainWrites
  let s := s.modCp (fun c => { c with wbuf := c.wbuf.map (fun o => { o with left := 0 }) })
  s.answerWrites

/-- The Pass ports lose the records they still hold, SYNCs among them, and say how many (spec/03 R65). -/
def PassPort.warm (p : PassPort) : PassPort :=
  { p with live := false, buf := [], credit := 0, owed := 0, seqRef := none, resetDropped := satField 6 p.buf.length }

/-- The answers that commands owe once they have committed (spec/11 R295): their notifications are raised. -/
def State.answerOwed (s : State) : State :=
  let s := s.answerWaiters
  let s := foldBelow 4 (fun q s => s.answerQuad q) s
  let s := foldBelow 16 (fun k s =>
    foldList (fun w s => s.answerUp w (status 9)) (s.linkAt k).upWait (s.updLink k (fun l => { l with upWait := [] }))) s
  match s.pwr.save with
  | .now w _ => ((s.dropSaveLines).modPwr (fun p => { p with save := .none })).answerUp w (status 1)
  | _ => s

/-- A test that runs is abandoned (spec/11 R295): its unit is as before; a Camp pair is restarted with the other (spec/15 R402). -/
def State.abandonTest (s : State) : State :=
  match s.camp.testing with
  | some t =>
    if t.kind = 3 then s.modCamp (fun c => { c.setExec (t.unit == 1) true with testing := none, standby := 0, copySeq := c.execSeq })
    else s.leaveTest t
  | none => s

/-- The mailboxes after a warm reset: commands that have not committed are abandoned, every slot is zeroed, and they open again (spec/11 R295). -/
def State.warmMailboxes (s : State) : State :=
  let s := (s.modXl (fun x => { x with jobs := [], moving := none })).unstall.abandonTest
  let s := foldBelow 34 (fun m s => s.updMbx m (fun x =>
    { x with slots := [], order := [], isOpen := x.isOpen && (s.boot.campReady || s.boot.failed) })) s
  s.modCamp (fun c => { c with rr := 33, forced := false })

/-- A lane's test and training state cleared; its counters and events stay (spec/15 R402). -/
def Lane.warm (x : Lane) : Lane :=
  { x.squelch with
    signal := false, polInv := false, narrow := false, rateNow := 0, test := 0, chkLocked := false, precode := false, inject := 0, burstLen := 0,
    period := 0, armed := false, info := 0, skew := 0 }

/-- The links, lanes and arbiters reset; keys, orphans, configuration and counters stay (spec/15 R401, R402). -/
def State.warmLogic (s : State) : State :=
  let s := foldBelow 16 (fun n s => s.updLane n Lane.warm) s
  let s := foldBelow 4 (fun q s => s.settleQuadPower q) s
  let s := foldBelow 16 (fun k s => s.updLink k (fun l => { l with train := { Training.reset with lossAt := l.train.lossAt, tries := l.train.tries } })) s
  let fresh : Tbl ArbReq := s.arb.req.map (fun r => (r.1, { r.2 with losses := 0, wait := 0, told := false }))
  s.modArb (fun a => { a with lock := none, req := fresh.filter (fun r => decide (r.2 ≠ ArbReq.init (arbPrio r.1))) })

/-- A quota as a warm reset leaves it: what was set stays, budgets and counts restart (spec/12 R305; spec/15 R402). -/
def Quota.warm (q : Quota) : Quota :=
  { q with
    cycles := q.nextCycles.or q.cycles, bytes := q.nextBytes.or q.bytes, nextCycles := none, nextBytes := none, round := 0, used := 0, usedLast := 0,
    bytesIn := 0, bytesInLast := 0, bytesAbove := 0, bytesAboveLast := 0, budget := 0, masked := false }

/-- ROUND counts again from the end of the warm reset (spec/12 R305). -/
def Rations.warm (r : Rations) : Rations :=
  { r with
    round := 0, since := 0, unpins := (r.unpins.filter (fun e => decide (r.round < e))).map (fun e => e - r.round),
    quota := (r.quota.map (fun q => (q.1, q.2.warm))).filter (fun q => decide (q.2 ≠ Quota.reset)) }

/-- Every unacknowledged request is sent again under a fresh identifier; the old ones await their late responses (spec/12 R324, spec/15 R401). -/
def Mem.warm (m : Mem) : Mem := { m with waits := m.out ++ m.queued ++ m.waits, queued := [], out := [], late := m.late ++ m.out.map (fun r => r.id) }

/-- The serials whose entries stand in STATE 1 (spec/13 R347): those a warm reset replays. -/
def State.stateOne (s : State) : List (BitVec 32) := (s.log.filter (fun e => e.2.state == 1)).map (fun e => BitVec.ofNat 32 e.1)

/-- PARK ends with a warm reset, during entry with FAIL_CAUSE 3 (spec/15 R395, R402). -/
def Power.warmPark (p : Power) : Power :=
  { p with state := 0, parking := false, latches := [], parkFailed := p.parkFailed || p.parking, failCause := if p.parking then 3 else p.failCause }

/-- The records that had landed and were not yet inserted are in STATE 1 and replayed as well (spec/15 R401, R402): REPLAYED = 1 where the entry is not
intact, which raises DEGRADED (spec/13 R358). -/
def State.replayLandings (s : State) : State :=
  let lost := s.bel.any (fun b => b.2.landing.any (fun l => !s.itemIntact l.item))
  let again (x : Belay) : Belay :=
    { x with landing := x.landing.map (fun l => { l with item := (s.restoreItem l.item).replay (!s.itemIntact l.item) }) }
  let s' := foldBelow 256 (fun b t => if (t.belAt b).landing.isEmpty then t else t.updBel b again) s
  if lost then s'.degrade (.other 0x80000) 4 10 7 else s'

/-- The Camp cores restart without verification (spec/15 R402): an active pair that had stopped serves again, unless it is still to load the boot image
(spec/11 R297). -/
def State.restartCamp (s : State) : State :=
  if s.camp.executing || s.camp.standby != 3 then s
  else
    let s := s.modCamp (fun c => (c.setExec c.active true).setOk c.active true)
    let s := s.modRope (fun r => { r with noCampAt := none })
    if s.boot.campReady || s.boot.failed then s.openMailboxes else s

/-- Steps 4 to 6 of a warm reset: replay, the requests sent again, FAST_READY, the lines sampled, mailboxes and Pass ports (spec/15 R401). -/
def State.warmEnd (s : State) : State :=
  let s := s.modPwr (fun p => { p with warmHeld := false, avail := true })
  let s := s.modBoot (fun b => { b with replaying := s.stateOne })
  let s := (foldBelow 4 (fun p s => s.replayPos p false) s).replayLandings.restartCamp
  let s := ((s.modRat Rations.warm).modRope (fun r => { r with hbArmed := true })).sampleLines
  let s := foldBelow 8 (fun n s => s.passRise n) s
  (s.pumpAll).evalAll

/-- A warm reset (spec/15 R401): `cause` is RESET_CAUSE, `held` what becomes of the accesses that the control port holds. -/
def State.warmReset (s : State) (cause : BitVec 2) (held : State → State) : State :=
  if !s.linksAlive || s.pwr.warmHeld then s
  else
    let faulty := s.clk.fail != 0
    let s := s.modPwr (fun p => { p with resetCause := if faulty then 3 else cause, warmResets := satInc p.warmResets })
    let s := s.stopHeart 8
    let s := foldBelow 16 (fun p s => s.relinquish p) s
    let s := if faulty then s.modCp (fun c => { c with wbuf := [], held := [] }) else s.warmDrain held
    let s := s.abandonWake.answerOwed.warmMailboxes
    let s := foldBelow 8 (fun n s => s.updPass n PassPort.warm) s
    let s := ((s.modPwr Power.warmPark).warmLogic.modMem Mem.warm).modAcc (fun x => { x with snap := [] })
    if faulty then s.modPwr (fun p => { p with warmHeld := true, avail := false }) else s.warmEnd

/-- A WARM_RESET.KEY write: 0x5752 from ring 0 (spec/15 R401, R413). -/
def State.warmKey (s : State) (ring : BitVec 2) (data : Word) (held : State → State) : State :=
  if ring == 0 && field data 0 16 == (0x5752 : BitVec 16) then s.warmReset 2 held else s

/-- CLOCK_FAULT_CLEAR: a check passes again; a warm reset held in step 3 goes on once all pass (spec/15 R390, R401). -/
def execClockFaultClear (which : Fin 5) (s : State) : Host.Outcome State Fault Refusal :=
  ok (if !(s.aon && bitAt s.clk.fail which.val) then s
      else
        let s := s.modClk (fun c => { c with fail := setBit c.fail which.val false, timeOnBosc := c.timeOnBosc && which.val != 4 })
        if s.pwr.warmHeld && s.clk.fail == 0 && !s.pwr.off then s.warmEnd else s)

/-- Steps 1 and 2 of PARK are complete (spec/15 R395): every granted record is in STATE 2, no line is unacknowledged, no command runs, no write
waits. -/
def State.parkQuiet (s : State) : Bool :=
  s.xl.pos.all (fun q => q.walks.isEmpty && q.waits.isEmpty && q.items.isEmpty) && s.bel.all (fun b => b.2.landing.isEmpty) &&
  !s.mem.has (fun r => r.write) && s.mem.retained.isEmpty &&
  s.mbx.all (fun m => m.2.slots.all (fun x => !x.2.running)) && s.wired.waiting.isEmpty && s.cp.wbuf.isEmpty

/-- Step 3: no group holds a gathering instance (spec/07 R181, spec/15 R395). -/
def State.noGathering (s : State) : Bool := s.grp.all (fun g => !(g.2.pending && !g.2.due))

/-- PARK is entered once its conditions hold; up links with nothing unacknowledged go idle (spec/15 R395, R396; spec/10 R265). -/
def State.tryPark (s : State) : State :=
  if !(s.pwr.parking && s.parkQuiet && s.noGathering) then s
  else
    let s := s.modPwr (fun p => { p with parking := false, state := 3, parks := satInc p.parks })
    foldBelow 16 (fun k s => s.updLink k (fun l =>
      if l.state == 5 && !l.txIdle && l.tx.replay.isEmpty && !l.tx.ackOwed && l.tx.queue.isEmpty then { l with txIdle := true, txIdleAt := s.clk.ticks }
      else l)) s

/-- A PARK.REQ write (spec/15 R395): ring 0 and bit 0. -/
def State.parkWrite (s : State) (ring : BitVec 2) (data : Word) : State :=
  if !(s.running && s.pwr.state == 0 && ring == 0 && bitAt data 0) then s
  else
    let s := s.modPwr (fun p => { p with parking := true, parkAt := s.clk.ticks, state := 2 })
    (foldBelow 8 (fun n s => s.updPass n (fun x => { x with live := false, credit := 0 })) s).tryPark

/-- PARK_REQ. -/
def execParkReq (ring : BitVec 2) (data : Word) (s : State) : Host.Outcome State Fault Refusal := ok (s.parkWrite ring data)

/-- PARK entry ends without parking (spec/15 R395). -/
def State.parkFails (s : State) (cause : BitVec 3) : State :=
  if !s.pwr.parking then s
  else
    let s := s.modPwr (fun p => { p with parking := false, state := 0, parkFailed := true, failCause := cause })
    foldBelow 8 (fun n s => s.passRise n) s

/-- PARK_TIMEOUT: 10,000 ticks after the request (spec/15 R395). -/
def execParkTimeout (s : State) : Host.Outcome State Fault Refusal :=
  ok (if decide (s.pwr.parkAt + 10000 ≤ s.clk.ticks) then s.parkFails (if s.parkQuiet then 2 else 1) else s)

/-- PARK_WAKE (spec/15 R396). -/
def execParkWake (s : State) : Host.Outcome State Fault Refusal := ok s.unpark

/-- The save decision when the drain of POWER_WARN ends (spec/15 R405, R406). `on`: the block was ON or IDLE. -/
def State.saveDecision (s : State) (on : Bool) : State :=
  let size := wakeSize s.logInUse
  if on && s.boot.campReady && s.pwr.armed && decide (0x41000 ≤ s.boot.nvmSize.toNat) && energyCovers (energy s.pwr.holdup) size then
    (s.modPwr (fun p => { p with lastHoldup := p.holdup, save := .wake (s.wakeHeader 2 1) })).writeWake size
  else s.sendWords (if !s.pwr.armed || !on then 2 else 1)

/-- POWER_WARN qualifies (spec/12 R312; spec/15 R395, R404 to R406). -/
def execPowerWarn (code : BitVec 8) (s : State) : Host.Outcome State Fault Refusal :=
  ok (if !s.aon || s.pwr.warn then s
      else
        let s := s.modPwr (fun p => { p with warn := true, warnSeen := true, holdup := code })
        if s.pwr.off then s
        else
          let on := s.pwr.state == 0 && !s.pwr.warmHeld
          let s := (s.modPwr (fun p => { p with maskedSave := true })).parkFails 4
          let s := if s.running && s.clk.fail == 0 then s.drainWrites else s
          let s := match s.pwr.save with
            | .now w _ => ((s.dropSaveLines).modPwr (fun p => { p with save := .none })).answerUp w (status 1)
            | _ => s
          if s.pwr.save == .none then s.saveDecision on else s)

/-- Tamri re-arms the header with the next SAVE_SEQ once POWER_WARN has fallen and the save has ended (spec/15 R407). -/
def State.rearm (s : State) : State :=
  if s.running && s.boot.campReady && !s.pwr.warn && s.pwr.save == .none then s.arm (s.pwr.saveSeq + 1) else s

/-- POWER_WARN_FALL (spec/15 R407). -/
def execPowerWarnFall (s : State) : Host.Outcome State Fault Refusal :=
  ok (if s.aon && s.pwr.warn then (s.modPwr (fun p => { p with warn := false })).rearm else s)

/-- Whether a page of the wake record is SUSPECT (spec/13 R355). -/
def State.saveSuspect (s : State) (size : Nat) : Bool :=
  s.boot.suspect.any (fun p => decide ((s.boot.nvmWindow.toNat / 4096) ≤ p.toNat) && decide (p.toNat ≤ (s.boot.nvmWindow.toNat + size - 1) / 4096))

/-- WAKE_RECORD_DONE: the header has been written after every body line was acknowledged, and is acknowledged (spec/15 R407, R408). -/
def execWakeRecordDone (s : State) : Host.Outcome State Fault Refusal :=
  ok (if !s.running || s.saveLinesOut || !s.pwr.saveHead then s
      else match s.pwr.save with
        | .wake h => (s.modPwr (fun p => { p with save := .none, lastSave := 1, header := h, armed := false })).rearm
        | .now w h =>
          let s := s.modPwr (fun p => { p with save := .none, header := h })
          let st : BitVec 8 := if s.saveSuspect h.length.toNat then 7 else 0
          s.answerUp w (st, 0, resPut 0 h.length)
        | _ => s)

/-- LAST_WORDS_SENT: the frame's last LW_CLK cycle (spec/15 R407, R410). -/
def execLastWordsSent (s : State) : Host.Outcome State Fault Refusal :=
  ok (match s.pwr.save with
      | .words => (s.modPwr (fun p => { p with save := .none, lastSave := 2 })).rearm
      | _ => s)

/-- SUPPLY_LOSS: a core supply falls below its minimum (spec/15 R397); no outstanding request is answered (spec/16 R415). -/
def execSupplyLoss (s : State) : Host.Outcome State Fault Refusal :=
  ok (if !s.aon || s.pwr.off then s
      else
        let s := s.stopHeart 9
        let s := foldBelow 8 (fun n s => s.updPass n (fun x => { x with live := false, credit := 0 })) s
        (s.modCp (fun c => { c with wbuf := [], held := [] })).modPwr (fun p => { p with off := true, avail := false }))

/-- SAVE_NOW (spec/15 R405, R408): with a window too small for a wake record the save is a last-words record. -/
def State.saveNow (s : State) (m : Nat) : State :=
  match s.taken m with
  | none => s
  | some (i, r) =>
    if reqCode r != 0x00F0 then s
    else if headerBad r || s.boot.failed || m ≠ 0 || s.pwr.warn || s.pwr.save != .none then
      s.command m [0x00F0] .ring0 always (fun _ s => (status 1, s))
    else
      let s := (s.takeSlot m i).commit m i
      let h := s.wakeHeader 1 2
      if s.boot.nvmSize.toNat < 0x41000 then (s.sendWords 1).answerSlot m i (okWith (resPut 0 h.length))
      else
        (s.modPwr (fun p =>
          { p with
            save := .now { mbox := m, slot := i, since := s.clk.ticks, seq := s.camp.execSeq, failover := false } h })).writeWake h.length.toNat

/-- SAVE_NOW. -/
def execSaveNow (m : Fin 34) (s : State) : Host.Outcome State Fault Refusal := ok (s.saveNow m.val)

end Sys2Proof.Machine
end

