-- ==== Sys2Proof/Machine/RegRead.lean ====
section
/-! DEFINITION. What each 64-bit register word reads (spec/16 R414 to R416, R429 to R432, and the frame tables of spec/02 to spec/15). `o` is the word's
byte offset in its frame, a multiple of 8. A reserved word reads 0 (spec/00 R16). -/

namespace Sys2Proof.Machine

/-- STRAPS (spec/15 R413). -/
def Straps.word (x : Straps) : Word := putBit 0 x.senior ||| putBit 1 x.ropeDefault ||| putBit 2 x.tapMode ||| put 12 x.fwBase

/-- STATUS (spec/15 R400): REPLAYING while a replayed serial has not landed. -/
def State.statusWord (s : State) : Word :=
  put 0 s.readyBits ||| putBit 3 s.boot.sramZeroed ||| putBit 4 (s.boot.replaying.any (fun x => (s.logAt x.toNat).state == 1)) |||
    putBit 5 s.clk.timeOnBosc

/-- The identity and status frame (spec/16 R416). -/
def State.idWord (s : State) (o : Nat) : Word :=
  match o with
  | 0x000 => 0x1051256F
  | 0x008 => 0x02287FFF587FFDFF
  | 0x010 => s.statusWord
  | 0x018 => s.clk.time
  | 0x020 => s.straps.word
  | 0x028 => put 0 s.powerState ||| putBit 3 s.pwr.armed
  | 0x030 => (if s.campBit then put 0 s.boot.level else 0) ||| put 32 s.boot.fwVersion
  | _ => 0

/-- Events of the clock, reset and power frame, bit 0 first (spec/15 R413). -/
def State.clockEvents (s : State) : Word :=
  flagWord [s.clk.faultSeen, s.pwr.parkFailed, s.pwr.warnSeen, s.pwr.saveAbandoned, s.clk.timeBack]

/-- The clock, reset and power frame (spec/15 R413). -/
def State.clockWord (s : State) (o : Nat) : Word :=
  match o with
  | 0x000 =>
    put 0 s.powerState ||| putBit 3 s.clk.timeOnBosc ||| putBit 4 s.pwr.warn ||| putBit 5 (s.pwr.save != .none) ||| putBit 6 s.pwr.armed |||
      put 8 s.pwr.holdup
  | 0x008 => s.clockEvents
  | 0x010 => (if s.clk.checked then put 0 (~~~s.clk.fail) else 0) ||| putBit 5 s.clk.memclkOk
  | 0x018 => put 0 s.pwr.resetCause ||| put 16 s.pwr.warmResets
  | 0x030 => put 0 s.pwr.failCause ||| put 16 s.pwr.parks ||| put 32 s.pwr.lastExit
  | 0x038 => put 0 s.pwr.saveSeq ||| put 32 s.pwr.lastSave ||| put 40 s.pwr.lastHoldup
  | 0x040 => put 0 s.clk.timeLoads ||| put 32 s.clk.timeRefused
  | 0x048 => s.straps.word
  | _ => 0

/-- Events of the ration frame, bit 0 first (spec/12 R334). -/
def Rations.events (r : Rations) : Word := flagWord [r.breachSeen, r.timeoutSeen, r.exhaustSeen, r.overcommit]

/-- EXHAUSTED of an activity (spec/12 R334): activity 0 reads 0. -/
def Rations.exhaustedOf (r : Rations) (a : Nat) : Word := if a = 0 || 10 < a then 0 else Tbl.get 0 r.exhausted a

/-- The contract's fields, 0 where there is none. -/
def Rations.terms (r : Rations) : Contract := r.contract.getD { bytes := 0, latency := 0, percentile := 0, keepWarm := false }

/-- The ration frame (spec/12 R334). -/
def State.rationWord (s : State) (o : Nat) : Word :=
  match o with
  | 0x000 => BitVec.ofNat 64 s.rat.round
  | 0x008 => putBit 0 s.rat.contract.isSome ||| putBit 1 s.rat.inBreach ||| putBit 2 s.keepWarm ||| putBit 3 s.rat.saveMode
  | 0x010 => s.rat.events
  | 0x018 => putNat 0 32 s.committed ||| putNat 32 32 s.memLimit
  | 0x020 => put 0 s.rat.terms.bytes ||| put 32 s.rat.terms.latency
  | 0x028 => put 0 s.rat.terms.percentile
  | 0x030 => s.rat.reads
  | 0x038 => s.rat.tailReads
  | 0x040 => put 0 s.rat.timeouts ||| put 32 s.rat.reissues
  | 0x048 => put 0 s.rat.maxLatency ||| put 32 s.rat.breaches ||| put 48 s.rat.late
  | o => if 0x050 ≤ o && o < 0x0A8 then s.rat.exhaustedOf ((o - 0x050) / 8) else 0

/-- NOTIFYk (spec/13 R345). -/
def Notify.word (n : Notify) : Word := put 0 n.sgi ||| put 16 n.target ||| put 28 n.minSev ||| putBit 31 n.enable

/-- CAIRN_ALERT (spec/13 R344): a severe record is new, or the heartbeat has stopped. -/
def State.alert (s : State) : Bool :=
  s.cairn.recs.any (fun r => r.2.valid && r.2.new && decide (2 ≤ r.2.sev.toNat)) || s.rope.hbCause != 0 && !s.rope.hbRunning

/-- The cairn control frame (spec/13 R345). -/
def State.cairnWord (s : State) (o : Nat) : Word :=
  match o with
  | 0x000 =>
    putNat 0 9 (s.cairn.recs.filter (fun r => r.2.valid)).length ||| putNat 16 9 (s.cairn.recs.filter (fun r => r.2.valid && r.2.new)).length |||
      putBit 32 s.alert
  | 0x008 => flagWord [s.cairn.created, s.cairn.overflowed, s.cairn.lostSeen]
  | 0x010 => s.cairn.notify0.word
  | 0x018 => s.cairn.notify1.word
  | 0x028 => put 0 s.cairn.lastNew ||| put 16 s.cairn.lostCause
  | 0x030 => s.cairn.reports
  | 0x038 => s.cairn.merged
  | 0x040 => s.cairn.lost
  | 0x048 => put 0 s.cairn.faultTime
  | _ => 0

/-- Word `i` of the cairn records, four words each (spec/13 R341). -/
def State.cairnRecWord (s : State) (i : Nat) : Word := (s.cairnAt (i / 4)).words.getD (i % 4) 0

/-- A word of a violation record (spec/16 R430). -/
def Violation.word (v : Violation) (j : Nat) : Word := match j with | 0 => v.w0 | 1 => v.w1 | 2 => v.w2 | _ => 0

/-- A word of a descriptor (spec/16 R424). -/
def Desc.word (d : Desc) (j : Nat) : Word := match j with | 0 => d.w0 | 1 => d.w1 | 2 => d.w2 | _ => d.w3

/-- SLOT_VIEWj (spec/16 R429). -/
def State.slotView (s : State) (j : Nat) : Word :=
  if 16447 < s.acc.select.toNat then 0 else (s.descAt s.acc.select.toNat).word j

/-- The access-check frame (spec/16 R429). -/
def State.accWord (s : State) (o : Nat) : Word :=
  if o = 0x000 then s.acc.violations
  else if o = 0x008 then flagWord [s.acc.seen, s.acc.wrapped, s.acc.held]
  else if o = 0x010 then put 0 s.acc.next
  else if o = 0x018 then put 0 s.acc.select
  else if 0x020 ≤ o && o < 0x040 then s.slotView ((o - 0x020) / 8)
  else if 0x040 ≤ o && o < 0x060 then s.acc.first.word ((o - 0x040) / 8)
  else if 0x100 ≤ o && o < 0x300 then (Tbl.get Violation.reset s.acc.recs ((o - 0x100) / 32)).word (o / 8 % 4)
  else 0

/-- The requesters of an arbiter, by key (spec/12 R331, R332). -/
def arbKeys (a : Nat) : List Nat :=
  if a < 5 then (List.range 12).map (fun i => 12 * a + i)
  else if a = 5 then (List.range 26).map (fun i => 60 + i)
  else (List.range 16).map (fun i => 100 + 16 * (a - 6) + i)

/-- An arbiter's control word (spec/12 R331). -/
def State.arbControl (s : State) (a : Nat) : Word :=
  put 0 (Tbl.get (0 : BitVec 32) s.arb.limit a) ||| putBit 32 ((arbKeys a).any (fun k => (s.arbAt k).starved)) |||
    (match (if a = 5 then s.arb.lock else none) with | some x => putBit 33 true ||| putNat 34 5 x.1 | none => 0)

/-- Word `j` of a requester block (spec/12 R332). -/
def State.arbBlock (s : State) (k j : Nat) : Word :=
  let a := s.arbAt k
  match j with
  | 0 => a.grants
  | 1 => a.waits
  | 2 =>
    put 0 a.longest ||| put 32 a.prio ||| putNat 36 4 a.effective ||| putBit 40 a.starved ||| putBit 41 (s.arbMasked k) ||| putBit 42 a.forced |||
      (if 60 ≤ k && k < 100 then putNat 43 4 (s.mem.queued.filter (fun r => r.input + 60 == k)).length else 0)
  | _ => a.ration

/-- The requester block at an offset of the arbiter frames: frame 9, or the ledge blocks from 0x0000_A000 (spec/12 R331). -/
def blockAt (f o : Nat) : Option Nat :=
  if f = 9 then
    (if 0x100 ≤ o && o < 0x880 then some ((o - 0x100) / 32)
     else if 0x900 ≤ o && o < 0xC40 then some (60 + (o - 0x900) / 32)
     else none)
  else some (100 + ((f - 10) * 0x1000 + o) / 32)

/-- The arbiter frames (spec/12 R331, R332). -/
def State.arbWord (s : State) (f o : Nat) : Word :=
  if f = 9 && o < 0x0B0 then s.arbControl (o / 8)
  else match blockAt f o with
    | some k => s.arbBlock k (o / 8 % 4)
    | none => 0

/-- Word `w` of MAP (spec/13 R361). -/
def State.mapWord (s : State) (w : Nat) : Word :=
  (List.range 8).foldl (fun x j =>
    let o := s.ropeOf (8 * w + j)
    x ||| put (8 * j) o.output ||| putBit (8 * j + 7) o.mapped) 0

/-- The Rope frame (spec/13 R361, spec/14 R383). -/
def State.ropeWord (s : State) (o : Nat) : Word :=
  match o with
  | 0x000 => s.rope.inputs
  | 0x008 => s.rope.seen
  | 0x010 => put 0 s.ropeOutputs ||| putBit 16 s.rope.locked
  | 0x018 => putBit 0 s.rope.hbRunning ||| put 4 s.rope.hbCause ||| put 16 s.rope.hbTime
  | 0x030 => put 0 s.rope.pulseResult ||| put 8 s.rope.pulseInput ||| put 16 s.rope.pulseOutput ||| put 32 s.rope.pulseTests
  | o => if 0x040 ≤ o && o < 0x080 then s.mapWord ((o - 0x040) / 8) else 0

/-- Bits of a mailbox's slots in a state (spec/11 R283). -/
def State.slotBits (s : State) (m : Nat) (f : Slot → Bool) : BitVec 8 :=
  BitVec.ofNat 8 ((List.range 8).foldl (fun n i => if f (s.slotAt m i) then n + 2 ^ i else n) 0)

/-- A mailbox frame (spec/11 R283). -/
def State.mbxWord (s : State) (m o : Nat) : Word :=
  let x := s.mbxAt m
  if o < 0x200 then field (s.slotAt m (o / 64)).req (8 * (o % 64)) 64
  else if o < 0x400 then (if (s.slotAt m ((o - 0x200) / 64)).done then field (s.slotAt m ((o - 0x200) / 64)).resp (8 * (o % 64)) 64 else 0)
  else match o with
    | 0x408 => put 0 (s.slotBits m (fun y => y.posted)) ||| put 8 (s.slotBits m (fun y => y.running)) ||| putBit 16 x.isOpen
    | 0x410 => put 0 (s.slotBits m (fun y => y.done))
    | 0x418 => put 0 x.sgi ||| put 16 x.target ||| putBit 31 x.enable
    | 0x420 => put 0 x.posts ||| put 32 x.ignored ||| put 48 x.wrIgnored
    | _ => 0

/-- A word of 64 source bits (spec/02 R43, R50): reserved private numbers read 0. -/
def State.srcBits (s : State) (base : Nat) (f : Source → Bool) : Word :=
  (List.range 64).foldl (fun w i => w ||| putBit i (!isReserved (base + i) && f (s.srcAt (base + i)))) 0

/-- The wired words (spec/02 R43). -/
def State.wiredWord (s : State) (o : Nat) : Word :=
  let base := 64 * (o / 8 % 128)
  match o / 0x400 with
  | 0 => s.srcBits base (fun x => x.en)
  | 1 => s.srcBits base (fun x => x.pend)
  | 2 => s.srcBits base (fun x => x.act)
  | _ => s.srcBits base (fun x => x.storm)

/-- A Pass port's frame (spec/03 R87). -/
def State.passWord (s : State) (n o : Nat) : Word :=
  let p := s.passAt n
  match o with
  | 0x000 =>
    putBit 0 p.live ||| putBit 1 (!p.resetN) ||| putBit 2 (syncHolds p.buf) |||
      putBit 3 (s.linksAlive && p.pclk.all (fun e => decide (s.clk.ticks < e))) ||| putNat 8 6 p.buf.length ||| putNat 16 6 p.owed
  | 0x008 => put 0 p.err
  | 0x010 => p.accepted
  | 0x018 => p.refused
  | 0x020 => put 0 p.seqGaps ||| put 32 p.syncTimeouts
  | 0x028 => p.fullCycles
  | 0x030 => field p.lastErr 0 64
  | 0x038 => field p.lastErr 64 64
  | 0x040 => put 0 p.lastCode ||| put 16 p.lastPar ||| put 32 p.lastTime
  | 0x048 => put 0 p.resetDropped
  | _ => 0

/-- The doorbell status frame (spec/03 R89). -/
def State.doorWord (s : State) (o : Nat) : Word :=
  let d := s.door
  match o with
  | 0x000 => putNat 0 5 d.markers.length
  | 0x008 => put 0 d.err
  | 0x010 => d.accepted
  | 0x018 => d.refused
  | 0x020 => d.lastErrData
  | 0x028 => put 0 d.lastCode ||| put 16 d.lastReq ||| put 32 d.lastTime
  | _ => 0

/-- A ridge's frame (spec/04 R120): what belongs to a position reads 0 while the ridge holds none. SERIAL_NEXT shows the position in bits 31:30 (R97), also at
reset, where the table gives 0 (DESIGN CHOICE, assumption log 60). -/
def State.ridgeWord (s : State) (r o : Nat) : Word :=
  let x := s.ridgeAt r
  let q := if x.role == 0 then s.posAt x.position.toNat else Pos.reset
  match o with
  | 0x000 =>
    put 0 x.role ||| put 4 x.position ||| putNat 8 7 (min q.walks.length 64) ||| putNat 16 9 (min q.slots 256) ||| putBit 31 q.withhold
  | 0x008 => flagWord [x.walkFail, x.withheld]
  | 0x010 => x.forwarded
  | 0x018 => x.pinnedHits
  | 0x020 => x.cacheHits
  | 0x028 => x.eventWalks
  | 0x030 => x.deviceWalks
  | 0x038 => x.direct
  | 0x040 => put 0 x.disabledDrops ||| put 32 x.walkFailed
  | 0x048 => x.withholdCyc
  | 0x050 => (if x.role == 0 then put 0 (s.serialOf x.position.toNat) else 0) ||| put 32 x.longestWalk
  | 0x058 => x.lastFailAddr
  | 0x060 => put 0 x.lastFailH ||| put 40 x.lastFailKind
  | _ => 0

/-- RIDGE_MAP (spec/04 R121). -/
def State.ridgeMapWord (s : State) : Word :=
  put 0 (s.xl.ridgeMap.getD 0 0) ||| put 4 (s.xl.ridgeMap.getD 1 0) ||| put 8 (s.xl.ridgeMap.getD 2 0) ||| put 12 (s.xl.ridgeMap.getD 3 0)

/-- The translation frame (spec/04 R121, spec/16 R432). -/
def State.xlWord (s : State) (o : Nat) : Word :=
  match o with
  | 0x000 => putBit 0 s.xl.key0 ||| putBit 1 s.xl.sweep
  | 0x008 => s.ridgeMapWord
  | 0x010 => put 0 s.boot.devBase
  | 0x018 => putNat 0 17 (s.xl.cache.filter (fun l => l.epoch == s.xl.epoch)).length ||| put 32 s.xl.fenced
  | 0x020 => putNat 0 15 s.pinnedUsed ||| putNat 16 15 (largestFree 0 s.pinRuns) ||| putNat 32 13 s.xl.blocks.length
  | 0x028 => putNat 0 13 s.xl.devCache.length ||| putNat 16 13 (s.xl.devCache.filter (fun l => l.locked)).length
  | 0x030 => put 0 s.xl.rekeys
  | 0x038 => s.xl.evictions
  | 0x040 => put 0 s.boot.vtBase
  | 0x048 => put 0 s.boot.spillBase
  | 0x050 => put 0 s.boot.spillOpen
  | _ => 0

/-- A belay's frame (spec/06 R173). -/
def State.belayWord (s : State) (b o : Nat) : Word :=
  let x := s.belAt b
  match o with
  | 0x00 => put 0 x.role
  | 0x08 => x.inserts
  | 0x10 => x.claims
  | 0x18 => x.completes
  | 0x20 => x.spills
  | 0x28 => x.refills
  | 0x30 => put 0 x.spillDrops
  | 0x38 => if x.role == 0 then 0 else put 0 x.coverSince
  | _ => 0

/-- The microcode frame (spec/14 R378). -/
def State.codeWord (s : State) (o : Nat) : Word :=
  let x := s.belAt (o / 16)
  if o % 16 = 0 then putBit 0 x.bank ||| putBit 1 x.inactive ||| putBit 2 x.pendSwitch ||| putBit 3 x.forced ||| put 32 x.activeVer
  else put 0 (if x.inactive then x.inactiveVer else 0) ||| (if x.pendSwitch then put 32 (satField 32 (s.clk.ticks - x.pendSince)) else 0)

/-- Whether a sync is sent or received (spec/09 R246, R247): in the col link's frame, and in that of the pair's valley link. -/
def State.syncing (s : State) (k : Nat) : Bool :=
  let x := s.partner
  if (s.linkAt k).isCol then x.sync.isSome || !x.syncQ.isEmpty || x.rxSync.isSome
  else match (s.linkAt k).pairNo with
    | some p => (match x.sync with | some y => y.pair.toNat == p | none => false) || x.syncQ.any (fun y => y.toNat == p) ||
        (match x.rxSync with | some y => y.toNat == p | none => false)
    | none => false

/-- PARTNER_OK (spec/09 R247). -/
def State.partnerOk (s : State) (k : Nat) : Bool :=
  (s.linkAt k).isCol && s.partner.hbOk && decide (s.clk.ticks < s.partner.lastHb + 6000)

/-- A link's frame (spec/09 R247). -/
def State.linkWord (s : State) (k o : Nat) : Word :=
  let l := s.linkAt k
  match o with
  | 0x000 =>
    put 0 l.state ||| putBit 3 l.orphaned ||| putBit 4 l.isAuth ||| putBit 5 l.isCol ||| putBit 6 l.pairNo.isSome |||
      putBit 7 (match l.pairNo with | some p => bitAt s.partner.active p | none => false) ||| putNat 8 4 (l.pairNo.getD 0) ||| put 12 l.downReason |||
      putBit 16 (s.partnerOk k) ||| putBit 17 (s.syncing k) ||| putBit 18 l.snapWait ||| putNat 19 9 l.tx.replay.length ||| putNat 28 11 l.orphans.length
  | 0x008 => flagWord [l.wentDown, l.cameUp, l.authFail, l.orphOverflow, l.snapLate, l.promoted, l.demoted, l.partnerLost]
  | 0x010 => put 0 l.err
  | 0x018 => l.flitsTx
  | 0x020 => l.flitsRx
  | 0x028 => put 0 l.crcErrors ||| put 32 l.replays
  | 0x030 => put 0 l.dupDiscards ||| put 32 l.oooDiscards
  | 0x038 => put 0 l.authFails ||| put 32 l.orphanDrops
  | 0x040 => l.records
  | 0x048 => l.refused
  | 0x050 => field l.lastErr 0 64
  | 0x058 => put 0 (field l.lastErr 64 32) ||| put 32 l.lastCode
  | 0x060 => put 0 l.lastChange
  | 0x068 => put 0 l.tx.seq ||| put 16 l.rx.expect ||| put 32 l.rx.ackUsed
  | 0x070 => putNat 0 6 l.sharedAvail ||| putNat 8 2 l.noticeAvail ||| put 16 l.lastSnapId ||| put 32 l.snapshots
  | _ => 0

/-- Whether a lane carries flits of an up link (spec/10 R276). -/
def State.laneCarries (s : State) (n : Nat) : Bool :=
  (s.laneAt n).carries && (match s.laneLink n with | some k => (s.linkAt k).state == 5 | none => false)

/-- A bit for each of a quad's lanes. -/
def quadBits (q : Nat) (f : Nat → Bool) : BitVec 4 := BitVec.ofNat 4 ((List.range 4).foldl (fun n i => if f (4 * q + i) then n + 2 ^ i else n) 0)

/-- A quad's frame (spec/10 R275). -/
def State.quadWord (s : State) (q o : Nat) : Word :=
  let x := s.quadAt q
  match o with
  | 0x000 =>
    putBit 0 x.refOk ||| putBit 1 x.pllA ||| putBit 2 x.pllB ||| putBit 3 x.calDone ||| putBit 4 x.powered |||
      put 8 (quadBits q (fun n => (s.laneLink n).isSome)) ||| put 12 (quadBits q (fun n => (s.laneAt n).carries))
  | 0x008 => flagWord [x.refLost, x.pllLost, x.calFail]
  | 0x010 => put 0 x.pllLosses ||| put 32 x.refLosses
  | 0x018 => put 0 x.calCode ||| put 16 x.calTime
  | _ => 0

/-- A lane's logical number in its link (spec/10 R250). -/
def State.logical (s : State) (n k : Nat) : Nat := ((enumFrom 0 (s.linkAt k).lanes).find? (fun p => p.2 == n)).elim 0 (fun p => p.1)

/-- Whether a lane is squelched: for the 10 µs of a rate switch as well (spec/10 R261, R269). -/
def State.quietLane (s : State) (n : Nat) : Bool :=
  (s.laneAt n).squelched || (match s.laneLink n with | some k => decide (s.clk.ticks < (s.linkAt k).train.switchAt) | none => false)

/-- What a lane's transmit balls show (spec/10 R263, R269). -/
def State.drive (s : State) (n : Nat) : Drive :=
  if !s.pwr.avail then .undriven
  else if s.quietLane n || (match s.laneLink n with | some k => (s.linkAt k).txIdle | none => false) then .quiet
  else .levels

/-- A lane's frame (spec/10 R276). -/
def State.laneWord (s : State) (n o : Nat) : Word :=
  let x := s.laneAt n
  let k := s.laneLink n
  match o with
  | 0x000 =>
    putBit 0 x.signal ||| putBit 1 x.locked ||| putBit 2 (s.laneCarries n) |||
      (match k with
       | some k =>
         putBit 3 ((s.linkAt k).txIdle && x.inUse) ||| putBit 4 ((s.linkAt k).rxIdle && x.rxUse) |||
           putNat 10 2 (s.logical n k) ||| putNat 12 4 k ||| putBit 16 true
       | none => 0) ||| putBit 5 (s.quietLane n) |||
      putBit 6 x.polInv ||| putBit 7 x.narrow ||| put 8 x.rateNow ||| put 17 x.test
  | 0x008 => flagWord [x.losSeen, x.lolSeen, x.chkErr, x.chkLost, x.idleTo]
  | 0x010 => put 0 x.losCount ||| put 32 x.lolCount
  | 0x018 => put 0 x.losTime
  | 0x020 => put 0 x.lolTime
  | 0x028 => put 0 x.lockTicks ||| put 32 x.attempts
  | 0x030 => x.chkSymbols
  | 0x038 => x.chkSymErr
  | 0x040 => x.chkBitErr
  | 0x048 => putBit 0 x.chkLocked ||| put 1 x.chkPattern ||| put 16 x.chkLosses ||| put 32 x.injections
  | _ => 0

/-- WHY of a frame (spec/05 R128, spec/08 R196, R211): another holder of the pair makes the frame's instances held; 8 for a virtual target that does
not run. -/
def State.whyOf (s : State) (t n : Nat) (tag : Option (BitVec 11)) : Nat :=
  if (s.pairAt (4 * t + n)).running == tag then s.whyNot t n tag
  else if !((s.storeOf t).any (inFrame n tag)) then 1
  else if tag.isSome then 8 else 7

/-- RUNPRIO of a frame (spec/05 R128, spec/08 R195, R211). -/
def State.runprioWord (s : State) (t n : Nat) (tag : Option (BitVec 11)) : Word :=
  let p := s.pairAt (4 * t + n)
  put 0 (p.prioOf tag) ||| putNat 8 5 p.stack.length ||| (if p.running == tag then put 16 p.level else 0) ||| putNat 20 4 (s.whyOf t n tag)

/-- PEEK of a frame (spec/06 R160). -/
def State.peekWord (s : State) (t n : Nat) (tag : Option (BitVec 11)) : Word :=
  match s.claimPick t n tag with | some x => x.word | none => 0

/-- Whether a refill for a frame is outstanding (spec/06 R172, spec/08 R211). -/
def State.refillingFrame (s : State) (t n : Nat) (tag : Option (BitVec 11)) : Bool :=
  let mine (o : MemOwner) : Bool := match o with
    | .refill u serial => u.toNat == t && (s.tgtAt t).store.any (fun x => x.serial == serial && x.ring.toNat == n && (tag.isNone || x.slot == tag))
    | _ => false
  s.mem.has (fun r => mine r.owner) || s.mem.done.any (fun d => mine d.1) ||
    (match tag with | some c => (s.ctxAt c.toNat).refilling | none => false)

/-- SPILL_STATUS of a frame (spec/06 R172). -/
def State.spillWord (s : State) (t n : Nat) (tag : Option (BitVec 11)) : Word :=
  let l := (s.tgtAt t).store.filter (fun x => x.ring.toNat == n && (tag.isNone || x.slot == tag))
  let spilled := (l.filter (fun x => x.spilled)).length
  putNat 0 10 (l.length - spilled) ||| put 16 (satField 16 spilled) ||| putBit 32 (s.refillingFrame t n tag)

/-- The registers that a target frame and a resident frame share (spec/06 R172, spec/08 R211). CLAIM is not a plain read; it is in RegCmd.lean. -/
def State.sharedWord (s : State) (t n : Nat) (tag : Option (BitVec 11)) (o : Nat) : Word :=
  let f := s.frameAt (frameKey t n tag)
  match o with
  | 0x018 => s.runprioWord t n tag
  | 0x020 => put 0 f.threshold
  | 0x028 => s.peekWord t n tag
  | 0x038 => f.claimTime
  | 0x040 => f.strayWord
  | 0x048 => f.strayLast
  | 0x050 => f.starveWord (s.oldestOf t n tag)
  | 0x078 => s.spillWord t n tag
  | _ => 0

/-- A private bank's words (spec/02 R50). -/
def State.privWord (s : State) (t : Fin 512) (o : Nat) : Word :=
  let base := 8192 + 64 * t.val
  match o with
  | 0x100 => s.srcBits base (fun x => x.en)
  | 0x108 => s.srcBits base (fun x => x.pend)
  | 0x130 => s.srcBits base (fun x => x.act)
  | 0x138 => s.srcBits base (fun x => x.storm)
  | 0x180 => s.cfgWord (.privTrigLo t)
  | 0x188 => s.cfgWord (.privTrigHi t)
  | 0x190 => s.cfgWord (.privPol t)
  | 0x198 => put 48 (s.bankAt t.val).window ||| put 32 (s.bankAt t.val).limit
  | 0x1A0 => s.cfgWord (.privRingLo t)
  | 0x1A8 => s.cfgWord (.privRingHi t)
  | o => if 0x140 ≤ o && o < 0x180 then s.cfgWord (.privPrio t (Fin.ofNat 8 ((o - 0x140) / 8))) else 0

/-- A target frame (spec/06 R172, spec/02 R50, spec/08 R212). -/
def State.targetWord (s : State) (t : Fin 512) (n o : Nat) : Word :=
  let x := s.tgtAt t.val
  let p := s.pairAt (4 * t.val + n)
  if 0x100 ≤ o && o < 0x1B0 then s.privWord t o
  else match o with
    | 0x058 => putBit 0 x.esc ||| put 16 x.escCount
    | 0x060 => put 0 x.escTime
    | 0x068 => put 0 p.withheld ||| put 32 p.claimRefused
    | 0x200 => put 0 p.dbVector ||| put 32 p.dbPrio
    | o => s.sharedWord t.val n none o

/-- A resident frame (spec/08 R211): a free slot reads 0. -/
def State.residentWord (s : State) (c o : Nat) : Word :=
  let x := s.ctxAt c
  let v := s.vtAt x.vt.toNat
  if !x.used then 0
  else if o = 0x080 then
    put 0 x.vt ||| putBit 16 v.running ||| putBit 17 v.notified ||| putBit 18 v.suspect ||| put 19 x.target ||| put 28 x.ring
  else s.sharedWord x.target.toNat x.ring.toNat (some (BitVec.ofNat 11 c)) o

/-- What the word at offset `o` of frame `f` reads (spec/16 R414); unassigned frames read 0. -/
def State.readWord (s : State) (f o : Nat) : Word :=
  if f = 0 then s.idWord o
  else if f = 1 then s.rescueWord o
  else if f = 2 then s.clockWord o
  else if f = 3 then s.rationWord o
  else if f = 4 then s.cairnWord o
  else if f < 8 then s.cairnRecWord ((f - 5) * 512 + o / 8)
  else if f = 8 then s.accWord o
  else if f < 12 then s.arbWord f o
  else if f = 12 then s.ropeWord o
  else if 16 ≤ f && f < 50 then s.mbxWord (f - 16) o
  else if 256 ≤ f && f < 288 then
    (let n : Fin 8192 := Fin.ofNat 8192 ((f - 256) * 256 + o / 16)
     s.cfgWord (if o % 16 = 0 then .word0 n else .word1 n))
  else if f = 288 then s.wiredWord o
  else if 512 ≤ f && f < 520 then s.passWord (f - 512) o
  else if f = 529 then s.doorWord o
  else if 768 ≤ f && f < 773 then s.ridgeWord (f - 768) o
  else if f = 776 then s.xlWord o
  else if 784 ≤ f && f < 800 then s.belayWord ((f - 784) * 16 + o / 256) (o % 256)
  else if f = 800 then s.codeWord o
  else if f = 801 then s.wearWord o
  else if 1024 ≤ f && f < 1040 then s.linkWord (f - 1024) o
  else if 1040 ≤ f && f < 1044 then s.quadWord (f - 1040) o
  else if 1056 ≤ f && f < 1072 then s.laneWord (f - 1056) o
  else if 4096 ≤ f && f < 6144 then s.targetWord (Fin.ofNat 512 ((f - 4096) / 4)) ((f - 4096) % 4) o
  else if 8192 ≤ f && f < 10240 then s.residentWord (f - 8192) o
  else 0

end Sys2Proof.Machine
end

