-- ==== Sys2Proof/Machine/RegCmd.lean ====
section
/-! DEFINITION. The control port (spec/16 R415 to R431): the access check, violations, reads with their snapshots, and writes. -/

namespace Sys2Proof.Machine

/-- The frame of an access. -/
def accFrame (a : Access) : Nat := a.addr.toNat / 0x1000

/-- The offset in the frame of the word an access reaches. -/
def accOff (a : Access) : Nat := a.addr.toNat % 0x1000 / 8 * 8

/-- Which part of the word it reaches. -/
def accPart (a : Access) : Acc := if a.size8 then .full else if bitAt a.addr 2 then .hi else .lo

/-- A frame of the rescue lane: 1, 2 and 12 (spec/16 R415). -/
def rescueFrame (f : Nat) : Bool := f = 1 || f = 2 || f = 12

/-- Whether a descriptor governs an access to an address (spec/16 R423, R426): an overlay by its bounds. -/
def Desc.valid (d : Desc) : Bool := bitAt d.w0 8 && !d.bad
def Desc.covers (d : Desc) (addr : Nat) : Bool := d.valid && decide ((field d.w2 0 26).toNat ≤ addr) && decide (addr ≤ (field d.w3 0 26).toNat)

/-- The governing slot of an address: the highest overlay that covers it, else the frame's valid fixed slot (spec/16 R423). -/
def State.governing (s : State) (addr : Nat) : Option Nat :=
  match (firstBelow 64 (fun k => (s.descAt (16447 - k)).covers addr)).map (fun k => 16447 - k) with
  | some k => some k
  | none => if (s.descAt (addr / 0x1000)).valid then some (addr / 0x1000) else none

/-- The cause of a refusal by the access check (spec/16 R425): 1 DENIED_RING, 2 DENIED_MASTER, 3 NO_SLOT. -/
def State.accessCause (s : State) (a : Access) (write : Bool) : Option Nat :=
  match s.governing a.addr.toNat with
  | none => if a.ring == 0 then none else some 3
  | some k =>
    let d := s.descAt k
    if !bitAt d.w0 ((if write then 4 else 0) + a.ring.toNat) then some 1
    else if d.admits a.master then none
    else some 2

/-- What refuses an accepted request, in the order of spec/16 R417: 4 MALFORMED, 5 PARITY, 6 WRONG_LANE, then the access check. -/
def State.refusal (s : State) (a : Access) (write : Bool) : Option Nat :=
  if !a.sizeOk || a.addr.toNat % (if a.size8 then 8 else 4) ≠ 0 then some 4
  else if write && !parityOk a.data a.parity (if a.size8 then 8 else 4) then some 5
  else if a.rescue != rescueFrame (accFrame a) then some 6
  else s.accessCause a write

/-- KIND of a violation record (spec/16 R430). -/
def violationKind (a : Access) (write : Bool) : BitVec 2 := bit write ++ bit (a.size8 && a.sizeOk)

/-- A violation record (spec/16 R430). -/
def State.violation (s : State) (a : Access) (write : Bool) (cause slot : Nat) : Violation :=
  { w0 := put 0 a.addr ||| put 26 (violationKind a write) ||| putNat 28 4 cause ||| put 32 a.ring ||| putBit 34 true ||| putBit 35 a.rescue ||| put 48 a.master,
    w1 := putNat 0 15 slot ||| put 16 s.now48,
    w2 := if write then a.data else 0 }

/-- A refused access leaves its trace (spec/16 R428). -/
def State.violate (s : State) (a : Access) (write : Bool) (cause : Nat) : State :=
  let slot := if cause < 4 then (s.governing a.addr.toNat).getD (accFrame a) else accFrame a
  let v := s.violation a write cause slot
  let s := s.modAcc (fun x =>
    { x with
      violations := x.violations + 1, seen := true, wrapped := x.wrapped || (Tbl.get Violation.reset x.recs x.next.toNat != Violation.reset),
      recs := Tbl.set Violation.reset x.recs x.next.toNat v, next := x.next + 1, first := if x.held then x.first else v, held := true })
  s.report (.other 0x70020) 0x10 16 (BitVec.ofNat 16 slot) 1
    ((put 0 a.master ||| put 16 a.ring ||| put 18 (violationKind a write) ||| putNat 20 4 cause).setWidth 32)

/-- CP_RSP_ERR of a refusal (spec/16 R417): 1 DENIED, 2 MALFORMED. -/
def errOf (cause : Nat) : BitVec 2 := if cause < 4 then 1 else 2

/-- The checks of ROOTCLK, FCLK, DCLK and MCLK fail: only the always-on frames are served (spec/15 R390). -/
def State.clocksFail (s : State) : Bool := field s.clk.fail 0 4 != 0

/-- An access on either lane as the front end takes it (spec/16 R415, R417): `none` where the block is not reachable, so that nothing happens. The first
access to a frame behind the main lane ends PARK (spec/15 R396). -/
def State.frontEnd (s : State) (a : Access) (write : Bool) (serve : State → State) : State :=
  if a.rescue && !s.aon then s
  else if !a.rescue && !s.linksAlive then s
  else if s.clocksFail && !rescueFrame (accFrame a) then s.respond a.rescue a.tag 3 0
  else
    let s := if rescueFrame (accFrame a) then s else s.unpark
    match s.refusal a write with
    | some c => if write && !a.rescue then (s.violate a write c).refuseWrite a.tag (errOf c) else (s.violate a write c).respond a.rescue a.tag (errOf c) 0
    | none => serve s

/-- The snapshot register of a frame (spec/16 R431). -/
def State.snapAt (s : State) (f : Nat) : BitVec 32 := Tbl.get 0 s.acc.snap f
def State.setSnap (s : State) (f : Nat) (v : BitVec 32) : State := s.modAcc (fun x => { x with snap := Tbl.set 0 x.snap f v })

/-- Whether a word of a target frame has only RO fields, CLAIM and PEEK apart (spec/06 R172, spec/02 R50). -/
def targetRO (o : Nat) : Bool :=
  !([0x000, 0x010, 0x020, 0x028, 0x030, 0x040, 0x050, 0x058, 0x070, 0x200].contains o) && !(0x100 ≤ o && o < 0x130) &&
    !(0x138 ≤ o && o < 0x170) && !(0x180 ≤ o && o < 0x1B0)

/-- Whether every field of a word is RO, so that the snapshot rule applies (spec/16 R431). -/
def allRO (f o : Nat) : Bool :=
  if f = 1 then o ≠ 0x048
  else if f = 2 then o ≠ 0x008 && o ≠ 0x020 && o ≠ 0x028
  else if f = 3 then o ≠ 0x010
  else if f = 4 then !([0x008, 0x010, 0x018, 0x020].contains o)
  else if f = 8 then o ≠ 0x008 && o ≠ 0x018
  else if f = 9 then decide (0x0B0 ≤ o) && !((blockAt 9 o).isSome && o % 32 = 0x10)
  else if f = 10 || f = 11 then o % 32 ≠ 0x10
  else if f = 12 then o ≠ 0x008 && o ≠ 0x020 && o ≠ 0x028
  else if 16 ≤ f && f < 50 then decide (0x200 ≤ o) && o ≠ 0x400 && o ≠ 0x410 && o ≠ 0x418
  else if 256 ≤ f && f < 288 then false
  else if f = 288 then o / 0x400 = 2
  else if f = 289 then decide (0x020 ≤ o)
  else if 512 ≤ f && f < 520 then o ≠ 0x008
  else if f = 528 then decide (0x010 ≤ o)
  else if f = 529 then o ≠ 0x008
  else if 768 ≤ f && f < 773 then o ≠ 0x008
  else if f = 801 then o ≠ 0x088
  else if 1024 ≤ f && f < 1040 then o ≠ 0x008 && o ≠ 0x010
  else if 1040 ≤ f && f < 1044 then o ≠ 0x008
  else if 1056 ≤ f && f < 1072 then o ≠ 0x008
  else if 4096 ≤ f && f < 6144 then targetRO o
  else if 8192 ≤ f && f < 10240 then !([0x000, 0x010, 0x020, 0x028, 0x040, 0x050, 0x070].contains o)
  else true

/-- The half of a word that a 4-byte access reaches, in bits 31:0 of the response. -/
def partOf (p : Acc) (w : Word) : Word :=
  match p with
  | .full => w
  | .lo => w &&& 0xFFFFFFFF
  | .hi => w >>> 32

/-- A read without CLAIM's effect: its data and the snapshot it leaves (spec/16 R431). -/
def State.plainRead (s : State) (f o : Nat) (p : Acc) : Word × State :=
  let w := s.readWord f o
  if !allRO f o then (partOf p w, s)
  else match p with
    | .full => (w, s.setSnap f (field w 32 32))
    | .lo => (partOf p w, s.setSnap f (field w 32 32))
    | .hi => (put 0 (s.snapAt f), s)

/-- The target or resident frame of a frame number. -/
def frameIdOf (f : Nat) : Option FrameId :=
  if 4096 ≤ f && f < 6144 then some (.phys (Fin.ofNat 512 ((f - 4096) / 4)) (Fin.ofNat 4 ((f - 4096) % 4)))
  else if 8192 ≤ f && f < 10240 then some (.slot (Fin.ofNat 2048 (f - 8192)))
  else none

/-- The claim shadow of a frame; a free slot reads 0 (spec/06 R157, spec/08 R211). -/
def State.shadowWord (s : State) (x : FrameId) : Word :=
  match s.frameOf x with
  | some (t, n, tag) => put 0 (s.frameAt (frameKey t n tag)).shadow
  | none => 0

/-- An accepted read performed (spec/16 R421): a CLAIM takes its instance, and is held (`none`) while no belay serves the target (spec/13 R337). -/
def State.performRead (s : State) (f o : Nat) (p : Acc) : Option (Word × State) :=
  match frameIdOf f with
  | some x =>
    if o = 0 then
      (match p with
       | .hi => some (s.shadowWord x, s)
       | _ => (s.claimFrame x).map (fun r => (partOf p r.1, r.2)))
    else some (s.plainRead f o p)
  | none => some (s.plainRead f o p)

/-- An accepted read that may be performed: its response, or `none` while it must wait (spec/16 R421). `n`: the number of the next write at its acceptance. -/
def State.tryRead (s : State) (a : Access) (n : Nat) : Option State :=
  if s.waitsFor (accFrame a) (accOff a) n then none
  else (s.performRead (accFrame a) (accOff a) (accPart a)).map (fun r => r.2.respond a.rescue a.tag 0 r.1)

/-- Whether a read waits in the read queue; reads take effect in the order of their acceptance (spec/16 R431). -/
def State.readsHeld (s : State) : List HeldAccess := s.cp.held.filter (fun h => !h.write)

/-- REGISTER_READ (spec/16 R419, R421, R431): with 8 reads in the queue it is not accepted; one that must wait, or that follows one that waits, joins the
queue. -/
def State.readAccess (s : State) (a : Access) : State :=
  if !a.rescue && decide (8 ≤ s.readsHeld.length) then s
  else
    s.frontEnd a false (fun s =>
      if a.rescue then (s.tryRead a 0).getD s
      else
        let wait := s.modCp (fun c => { c with held := c.held ++ [{ acc := a, write := false, wid := c.nextWid }] })
        if s.readsHeld.isEmpty then (s.tryRead a s.cp.nextWid).getD wait else wait)

/-- REGISTER_READ. -/
def execRegisterRead (a : Access) (s : State) : Host.Outcome State Fault Refusal := ok (s.readAccess a)

/-- A write to the clock, reset and power frame (spec/15 R413). -/
def State.clockWrite (s : State) (o : Nat) (p : Acc) (d : Word) (ring : BitVec 2) : State :=
  let c (i : Nat) (old : Bool) : Bool := w1c p d i old
  match o with
  | 0x008 =>
    (s.modClk (fun x => { x with faultSeen := c 0 x.faultSeen, timeBack := c 4 x.timeBack })).modPwr (fun x =>
      { x with parkFailed := c 1 x.parkFailed, warnSeen := c 2 x.warnSeen, saveAbandoned := c 3 x.saveAbandoned })
  | 0x028 => s.parkWrite ring (accData p d)
  | _ => s

/-- A write to the Rope frame (spec/13 R361, spec/14 R383). What a pulse test's tap sees is not the write's to say: a free value (log 2). -/
def State.ropeWrite (s : State) (o : Nat) (p : Acc) (d : Word) (ring : BitVec 2) : State :=
  match o with
  | 0x008 => s.modRope (fun x => { x with seen := w1cField p d 0 x.seen })
  | 0x020 => if bitAt (accData p d) 0 then s.stopHeart 7 else s
  | 0x028 =>
    if s.rope.serving && ring == 0 then
      { s with freeCtr := s.freeCtr + 1 }.pulseWrite (accData p d) (bitAt (Config.freeValue s.freeCtr) 0)
    else s
  | _ => s

/-- A write to the rescue window (spec/13 R365). -/
def State.rescueWrite (s : State) (o : Nat) (p : Acc) (d : Word) : State :=
  if o = 0x048 && s.linksAlive then s.isolateWrite (accData p d) else s

/-- A write to the ration frame (spec/12 R334). -/
def State.rationWrite (s : State) (o : Nat) (p : Acc) (d : Word) : State :=
  if o = 0x010 then
    s.modRat (fun r =>
      { r with
        breachSeen := w1c p d 0 r.breachSeen, timeoutSeen := w1c p d 1 r.timeoutSeen, exhaustSeen := w1c p d 2 r.exhaustSeen,
        overcommit := w1c p d 3 r.overcommit })
  else s

/-- A NOTIFY word as written (spec/13 R345). -/
def Notify.ofWord (w : Word) : Notify := { sgi := field w 0 4, target := field w 16 9, minSev := field w 28 2, enable := bitAt w 31 }

/-- A write to the cairn control frame (spec/13 R345). -/
def State.cairnWrite (s : State) (o : Nat) (p : Acc) (d : Word) : State :=
  match o with
  | 0x008 => s.modCairn (fun c =>
      { c with created := w1c p d 0 c.created, overflowed := w1c p d 1 c.overflowed, lostSeen := w1c p d 2 c.lostSeen })
  | 0x010 => s.modCairn (fun c => { c with notify0 := Notify.ofWord (merge p c.notify0.word d) })
  | 0x018 => s.modCairn (fun c => { c with notify1 := Notify.ofWord (merge p c.notify1.word d) })
  | 0x020 => if p = .hi then s else s.ackCairn (field d 0 9).toNat
  | _ => s

/-- A write to the access-check frame (spec/16 R429). -/
def State.accWrite (s : State) (o : Nat) (p : Acc) (d : Word) : State :=
  match o with
  | 0x008 => s.modAcc (fun x => { x with seen := w1c p d 0 x.seen, wrapped := w1c p d 1 x.wrapped, held := w1c p d 2 x.held })
  | 0x018 => s.modAcc (fun x => { x with select := field (merge p (put 0 x.select) d) 0 15 })
  | _ => s

/-- A requester block's third word written: PRIO, and STARVED with LONGEST_WAIT (spec/12 R326, R332). -/
def ArbReq.write (a : ArbReq) (p : Acc) (d : Word) : ArbReq :=
  let clear := a.starved && wrote1 p d 40
  { a with
    prio := field (merge p (put 32 a.prio) d) 32 4, starved := a.starved && !wrote1 p d 40, longest := if clear then 0 else a.longest }

/-- A write to the arbiter frames (spec/12 R331, R332). -/
def State.arbWrite (s : State) (f o : Nat) (p : Acc) (d : Word) : State :=
  if f = 9 && o < 0x0B0 then
    s.modArb (fun a => { a with limit := Tbl.upd 0 a.limit (o / 8) (fun x => field (merge p (put 0 x) d) 0 32) })
  else match blockAt f o with
    | some k => if o % 32 = 0x10 then s.updArb k (fun a => a.write p d) else s
    | none => s

/-- A request slot's word written; writes to a slot that is not free are counted (spec/11 R283). -/
def State.reqWrite (s : State) (m o : Nat) (p : Acc) (d : Word) : State :=
  let i := o / 64
  let b := 8 * (o % 64)
  if (s.slotAt m i).free then
    s.updSlot m i (fun x =>
      { x with req := (x.req &&& ~~~((0xFFFFFFFFFFFFFFFF#512) <<< b)) ||| (((merge p (field x.req b 64) d).setWidth 512) <<< b) })
  else s.updMbx m (fun x => { x with wrIgnored := satInc x.wrIgnored })

/-- A write to a mailbox frame (spec/11 R283, R286, R287). -/
def State.mbxWrite (s : State) (m o : Nat) (p : Acc) (d : Word) : State :=
  if o < 0x200 then s.reqWrite m o p d
  else match o with
    | 0x400 => if p = .hi then s else s.postSlot m (field d 0 3).toNat
    | 0x410 => foldBelow 8 (fun i s => if wrote1 p d i then s.releaseSlot m i else s) s
    | 0x418 => s.updMbx m (fun x =>
        let w := merge p (put 0 x.sgi ||| put 16 x.target ||| putBit 31 x.enable) d
        { x with sgi := field w 0 4, target := field w 16 9, enable := bitAt w 31 })
    | _ => s

/-- A write to the wired words (spec/02 R43). -/
def State.wiredWrite (s : State) (o : Nat) (p : Acc) (d : Word) : State :=
  let base := 64 * (o / 8 % 128)
  match o / 0x400 with
  | 0 => s.eachBit base p d State.setEn
  | 1 => s.eachBit base p d State.setPend
  | 2 => s
  | _ => s.eachBit base p d (fun s n v => if v then s.clearStorm n else s)

/-- One of the four per-source registers written (spec/02 R46, R50): 0 SETPEND, 1 CLRPEND, 2 SETEN, 3 CLREN. -/
def State.perSource (s : State) (op n : Nat) : State :=
  if isReserved n then s
  else match op with
    | 0 => s.setPend n true
    | 1 => s.setPend n false
    | 2 => s.setEn n true
    | _ => s.setEn n false

/-- W1C writes to a Pass port's and the doorbell's ERR (spec/03 R87, R89). -/
def State.passWrite (s : State) (n o : Nat) (p : Acc) (d : Word) : State :=
  if o = 0x008 then s.updPass n (fun x => { x with err := w1cField p d 0 x.err }) else s
def State.doorStatWrite (s : State) (o : Nat) (p : Acc) (d : Word) : State :=
  if o = 0x008 then s.modDoor (fun x => { x with err := w1cField p d 0 x.err }) else s

/-- A write to a ridge's frame (spec/04 R120). -/
def State.ridgeWrite (s : State) (r o : Nat) (p : Acc) (d : Word) : State :=
  if o = 0x008 then s.updRidge r (fun x => { x with walkFail := w1c p d 0 x.walkFail, withheld := w1c p d 1 x.withheld }) else s

/-- A write to the wear frame (spec/14 R386). -/
def State.wearWrite (s : State) (o : Nat) (p : Acc) (d : Word) : State :=
  if o = 0x088 then s.modWear (fun w => { w with warn := w1c p d 0 w.warn, limit := w1c p d 1 w.limit, hot := w1c p d 2 w.hot }) else s

/-- A write to a link's frame (spec/09 R247). -/
def State.linkWrite (s : State) (k o : Nat) (p : Acc) (d : Word) : State :=
  let c (i : Nat) (old : Bool) : Bool := w1c p d i old
  match o with
  | 0x008 => s.updLink k (fun l =>
      { l with
        wentDown := c 0 l.wentDown, cameUp := c 1 l.cameUp, authFail := c 2 l.authFail, orphOverflow := c 3 l.orphOverflow, snapLate := c 4 l.snapLate,
        promoted := c 5 l.promoted, demoted := c 6 l.demoted, partnerLost := c 7 l.partnerLost })
  | 0x010 => s.updLink k (fun l => { l with err := w1cField p d 0 l.err })
  | _ => s

/-- Writes to a quad's and a lane's frame (spec/10 R275, R276). -/
def State.quadWrite (s : State) (q o : Nat) (p : Acc) (d : Word) : State :=
  if o = 0x008 then
    s.updQuad q (fun x => { x with refLost := w1c p d 0 x.refLost, pllLost := w1c p d 1 x.pllLost, calFail := w1c p d 2 x.calFail })
  else s
def State.laneWrite (s : State) (n o : Nat) (p : Acc) (d : Word) : State :=
  if o = 0x008 then
    s.updLane n (fun x =>
      { x with
        losSeen := w1c p d 0 x.losSeen, lolSeen := w1c p d 1 x.lolSeen, chkErr := w1c p d 2 x.chkErr, chkLost := w1c p d 3 x.chkLost,
        idleTo := w1c p d 4 x.idleTo })
  else s

/-- The RW and W1C fields of STARVE and STRAY_COUNT (spec/05 R143, spec/06 R172). -/
def Frame.writeStarve (f : Frame) (p : Acc) (d : Word) : Frame :=
  let w := merge p (put 0 f.limit ||| putBit 24 f.polled) d
  { f with limit := field w 0 24, polled := bitAt w 24, flag := w1c p d 31 f.flag }
def Frame.writeStray (f : Frame) (p : Acc) (d : Word) : Frame :=
  { f with strayLimit := field (merge p f.strayWord d) 32 16, strayCount := if wrote1 p d 63 then 0 else f.strayCount }

/-- A write to a register that target and resident frames share; an 8-byte COMPLETE or one at 0x010 completes, one at 0x014 loads the stage (spec/06
R161, R172). -/
def State.sharedWrite (s : State) (x : FrameId) (t n : Nat) (tag : Option (BitVec 11)) (o : Nat) (p : Acc) (d : Word) : State :=
  let k := frameKey t n tag
  match o with
  | 0x010 =>
    if p = .hi then s.updFrame k (fun f => { f with stage := field d 0 32 }) else s.completeWrite x (p == .full) d
  | 0x020 => (s.updFrame k (fun f => { f with threshold := field (merge p (put 0 f.threshold) d) 0 8 })).evalAll
  | 0x040 => s.updFrame k (fun f => f.writeStray p d)
  | 0x050 => s.updFrame k (fun f => f.writeStarve p d)
  | 0x070 => s.unwindWrite x (accData p d)
  | _ => s

/-- The configuration register at an offset of a private bank (spec/02 R50). -/
def privReg (t : Fin 512) (o : Nat) : Option CfgReg :=
  if 0x140 ≤ o && o < 0x170 then some (.privPrio t (Fin.ofNat 8 ((o - 0x140) / 8)))
  else match o with
    | 0x180 => some (.privTrigLo t)
    | 0x188 => some (.privTrigHi t)
    | 0x190 => some (.privPol t)
    | 0x1A0 => some (.privRingLo t)
    | 0x1A8 => some (.privRingHi t)
    | _ => none

/-- A write to a private bank's plain registers (spec/02 R50). -/
def State.privWrite (s : State) (t o : Nat) (p : Acc) (d : Word) : State :=
  let base := 8192 + 64 * t
  match o with
  | 0x100 => s.eachBit base p d State.setEn
  | 0x108 => s.eachBit base p d State.setPend
  | 0x138 => s.eachBit base p d (fun s n v => if v then s.clearStorm n else s)
  | 0x198 => s.modWired (fun w => { w with bank := Tbl.upd BankStorm.reset w.bank t (fun b =>
      let v := merge p (put 48 b.window ||| put 32 b.limit) d
      { window := field v 48 16, limit := field v 32 16 }) })
  | o => if 0x110 ≤ o && o < 0x130 && p ≠ .hi then s.perSource ((o - 0x110) / 8) (base + (field d 0 6).toNat) else s

/-- A write to a target frame's own registers (spec/06 R172, spec/08 R212). -/
def State.targetWrite (s : State) (t : Fin 512) (n : Fin 4) (o : Nat) (p : Acc) (d : Word) : State :=
  if 0x100 ≤ o && o < 0x1B0 then s.privWrite t.val o p d
  else match o with
    | 0x058 => s.updTgt t.val (fun x => { x with esc := w1c p d 0 x.esc })
    | 0x200 => s.updPair (4 * t.val + n.val) (fun x =>
        let w := merge p (put 0 x.dbVector ||| put 32 x.dbPrio) d
        { x with dbVector := field w 0 22, dbPrio := field w 32 8 })
    | o => s.sharedWrite (.phys t n) t.val n.val none o p d

/-- A write to a resident frame; a free slot's writes are ignored (spec/08 R211). -/
def State.residentWrite (s : State) (c : Fin 2048) (o : Nat) (p : Acc) (d : Word) : State :=
  match s.frameOf (.slot c) with
  | some (t, n, tag) => s.sharedWrite (.slot c) t n tag o p d
  | none => s

/-- A write applied to a main-lane frame whose response does not wait (spec/16 R414, R420). -/
def State.applyWrite (s : State) (f o : Nat) (p : Acc) (d : Word) : State :=
  if f = 3 then s.rationWrite o p d
  else if f = 4 then s.cairnWrite o p d
  else if f = 8 then s.accWrite o p d
  else if 9 ≤ f && f < 12 then s.arbWrite f o p d
  else if 16 ≤ f && f < 50 then s.mbxWrite (f - 16) o p d
  else if f = 288 then s.wiredWrite o p d
  else if f = 289 then (if o < 0x020 && p ≠ .hi then s.perSource (o / 8) (field d 0 13).toNat else s)
  else if 512 ≤ f && f < 520 then s.passWrite (f - 512) o p d
  else if f = 529 then s.doorStatWrite o p d
  else if 768 ≤ f && f < 773 then s.ridgeWrite (f - 768) o p d
  else if f = 801 then s.wearWrite o p d
  else if 1024 ≤ f && f < 1040 then s.linkWrite (f - 1024) o p d
  else if 1040 ≤ f && f < 1044 then s.quadWrite (f - 1040) o p d
  else if 1056 ≤ f && f < 1072 then s.laneWrite (f - 1056) o p d
  else if 4096 ≤ f && f < 6144 then s.targetWrite (Fin.ofNat 512 ((f - 4096) / 4)) (Fin.ofNat 4 ((f - 4096) % 4)) o p d
  else if 8192 ≤ f && f < 10240 then s.residentWrite (Fin.ofNat 2048 (f - 8192)) o p d
  else s

/-- The configuration register a write reaches, whose response waits for the commit (spec/02 R35, R50; spec/13 R349). -/
def cfgRegAt (f o : Nat) : Option CfgReg :=
  if 256 ≤ f && f < 288 then
    (let n : Fin 8192 := Fin.ofNat 8192 ((f - 256) * 256 + o / 16)
     some (if o % 16 = 0 then .word0 n else .word1 n))
  else if 4096 ≤ f && f < 6144 then privReg (Fin.ofNat 512 ((f - 4096) / 4)) o
  else none

/-- A main-lane write leaves the posted-write buffer and is applied; the response follows in acceptance order (spec/16 R418, R420, spec/03 R83). -/
def State.mainWrite (s : State) (a : Access) : State :=
  let f := accFrame a
  let o := accOff a
  let p := accPart a
  if f = 528 && o = 0x000 then s.doorbellWrite a.master p a.data a.tag
  else if f = 528 && o = 0x008 && p ≠ .hi then (s.dbMarkWrite a.master (field a.data 0 16)).openWrite a.tag f 0
  else if 4096 ≤ f && f < 6144 && o = 0x030 then s.sgiWrite ((f - 4096) / 4) ((f - 4096) % 4) p a.data a.tag
  else match cfgRegAt f o with
    | some r => ((s.openWrite a.tag f 1).cfgWrite r p a.data (some s.cp.nextWid)).evalAll
    | none => (s.applyWrite f o p a.data).openWrite a.tag f 0

/-- Whether no belay serves the target of a frame, so that accesses to what the belay keeps are held (spec/13 R337); SGI_SEND is the collector's. -/
def State.unserved (s : State) (a : Access) : Bool :=
  match (frameIdOf (accFrame a)).bind s.frameOf with
  | some (t, _, _) => (s.servingBelay t).isNone && ((accOff a < 0x100 && accOff a ≠ 0x030) || accOff a = 0x200)
  | none => false

/-- One held access, performed if it may be; `stuck`: an earlier read waits, so a read waits behind it (spec/16 R420, R421, R431). -/
def State.serveOne (x : Bool × State) (h : HeldAccess) : Bool × State :=
  let keep (s : State) : State := s.modCp (fun c => { c with held := c.held ++ [h] })
  if h.write then
    (if x.2.unserved h.acc then (x.1, keep x.2)
     else (x.1, (x.2.applyWrite (accFrame h.acc) (accOff h.acc) (accPart h.acc) h.acc.data).settleWrite (some h.wid)))
  else if x.1 then (true, keep x.2)
  else match x.2.tryRead h.acc h.wid with
    | some s => (false, s)
    | none => (true, keep x.2)

/-- The held accesses are performed in arrival order, as far as they may be (spec/13 R352, spec/16 R421). -/
def State.serveHeld (s : State) : State := (s.cp.held.foldl State.serveOne (false, s.modCp (fun c => { c with held := [] }))).2

/-- What a warm reset does with the held accesses once the buffer has drained (spec/15 R401, spec/16 R415): they are performed and answered; a read of a
target that no belay serves returns 0, and a write to it is lost (DESIGN CHOICE, assumption log 64). -/
def State.answerHeld (s : State) : State :=
  let s := s.serveHeld
  foldList (fun (h : HeldAccess) s => if h.write then s else s.respond false h.acc.tag 0 0) s.cp.held (s.modCp (fun c => { c with held := [] }))

/-- A rescue-lane write, applied before its response (spec/16 R418, R422). -/
def State.rescueLaneWrite (s : State) (a : Access) : State :=
  let f := accFrame a
  if f = 1 then s.rescueWrite (accOff a) (accPart a) a.data
  else if f = 2 then (if accOff a = 0x020 then s.warmKey a.ring (accData (accPart a) a.data) State.answerHeld else s.clockWrite (accOff a) (accPart a) a.data a.ring)
  else s.ropeWrite (accOff a) (accPart a) a.data a.ring

/-- Whether a write is held: no belay serves its target, or a write to its frame is held already (spec/13 R337, spec/16 R420). -/
def State.writeHeld (s : State) (a : Access) : Bool := s.unserved a || s.cp.held.any (fun h => h.write && accFrame h.acc == accFrame a)

/-- REGISTER_WRITE (spec/16 R417 to R422): with 16 entries taken the write is not accepted; one that is held keeps its entry. -/
def State.writeAccess (s : State) (a : Access) : State :=
  if !a.rescue && s.bufferFull then s
  else
    s.frontEnd a true (fun s =>
      if a.rescue then (s.rescueLaneWrite a).respond true a.tag 0 0
      else if s.writeHeld a then
        (s.openWrite a.tag (accFrame a) 1).modCp (fun c => { c with held := c.held ++ [{ acc := a, write := true, wid := s.cp.nextWid }] })
      else s.mainWrite a)

/-- REGISTER_WRITE. -/
def execRegisterWrite (a : Access) (s : State) : Host.Outcome State Fault Refusal := ok (s.writeAccess a)

/-- WARM_RESET: a falling edge of WARM_RESET_N. -/
def execWarmReset (s : State) : Host.Outcome State Fault Refusal := ok (s.warmReset 1 State.answerHeld)

/-- WARM_RESET_KEY. -/
def execWarmResetKey (ring : BitVec 2) (data : Word) (s : State) : Host.Outcome State Fault Refusal := ok (s.warmKey ring data State.answerHeld)

end Sys2Proof.Machine
end

