-- ==== Sys2Proof/Machine/VtCmd.lean ====
section
/-! DEFINITION. The mailbox commands of groups and virtual targets (spec/07 R176; spec/08 R202 to R210), and background zeroing (spec/11 R449). -/

namespace Sys2Proof.Machine

/-- A moved instance changed. -/
def PItem.mapMoved (f : Inst → Inst) (i : PItem) : PItem := match i with | .moved x v => .moved (f x) v | i => i

/-- P of a group changed wherever it is: in a store, in a bivouac, or on its way between pairs (spec/05 R134, spec/07 R186). -/
def State.mapP (s : State) (g : Nat) (f : Inst → Inst) : State :=
  let h (x : Inst) : Inst := if x.group.toNat == g then f x else x
  { s with
    tgt := s.tgt.map (fun t => (t.1, { t.2 with store := t.2.store.map h })),
    vt := s.vt.map (fun v => (v.1, { v.2 with bivouac := v.2.bivouac.map h })),
    bel := s.bel.map (fun b => (b.1, { b.2 with landing := b.2.landing.map (fun l => { l with item := l.item.mapMoved h }) })),
    xl := { s.xl with pos := s.xl.pos.map (Pos.mapItems (PItem.mapMoved h)) } }

/-- A group's pending instance becomes due, wherever it is (spec/07 R176, R180). -/
def State.dueP (s : State) (g : Nat) : State :=
  if (s.grpAt g).pending then (s.mapP g (fun x => { x with due := true })).updGrp g (fun y => { y with due := true }) else s

/-- A group's pending instance meets the group's limits again: with COUNT_LIMIT 0 it is due wherever it is, else by count or time on chip (spec/07 R176,
R180). -/
def State.recheckP (s : State) (g : Nat) : State :=
  let y := s.grpAt g
  if y.limit == 0 then s.dueP g
  else match s.pendingOfGroup g with
    | none => s
    | some (t, x) =>
      if !x.spilled && (dueByCount y.limit x.count || decide (x.landed.toNat + y.time.toNat + 1 ≤ s.clk.time.toNat)) then s.setDue g t x.serial else s

/-- CGROUP_SET (spec/07 R176). -/
def State.cgroupSet (s : State) (a : BitVec 448) : Answer × State :=
  let g := (arg a 0 16).toNat
  let flush := bitAt (arg a 8 8) 0
  match lowestBad [(g = 0, 0), (!flush && argOver a 4 4 20, 4), (argOver a 8 1 1, 8), (!flush && !ownerOk (arg a 9 8), 9)] with
  | some d => (badArg d, s)
  | none =>
    let old := s.grpAt g
    let s := s.updGrp g (fun y => { y with conflicts := 0 })
    let s := if flush then s.dueP g
             else (s.updGrp g (fun y => { y with limit := arg a 2 16, time := arg a 4 20, owner := arg a 9 8 })).recheckP g
    (okWith (resPut 0 old.word ||| resPut 8 old.owner), s.evalAll)

/-- CGROUP_SET. -/
def execCgroupSet (m : Fin 34) (s : State) : Host.Outcome State Fault Refusal :=
  ok (s.command m.val [0x0030] .ring01 always (fun a s => s.cgroupSet a))

/-- Whether a move, a moved instance or a re-rank notice is on its way. -/
def State.movesInFlight (s : State) : Bool :=
  let moves (i : PItem) : Bool := match i with | .record _ => false | _ => true
  s.xl.pos.any (fun q => !q.moves.isEmpty || q.items.any moves) || s.bel.any (fun b => b.2.landing.any (fun l => moves l.item))

/-- What a change of the residency map waits for: quiet positions (spec/13 R349), and no move or re-rank on its way, for R202's flush lets everything of
the virtual target land first (DEDUCED, assumption log 55). -/
def State.mapReady (s : State) : Bool := s.allQuiet && !s.movesInFlight

/-- Pages of a virtual target's area: 512 + 32 · BIV_CAP bytes (spec/08 R205). -/
def areaPages (cap : BitVec 16) : Nat := ceilDiv (512 + 32 * cap.toNat) 4096

/-- Line 0 of a virtual target's descriptor (spec/08 R205). -/
def State.descAddr (s : State) (v : Nat) : BitVec 47 := s.boot.vtBase ++ (0#7 : BitVec 7) + BitVec.ofNat 47 (2 * v)

/-- The descriptor of a virtual target written to its table (spec/08 R205). -/
def State.writeVt (s : State) (v : Nat) : State :=
  foldBelow 2 (fun i s => s.memWrite (.descriptor (BitVec.ofNat 16 v)) (s.descAddr v + BitVec.ofNat 47 i) ((s.vtAt v).descLine i)) s

/-- Whether a virtual target's old descriptor and area are still being zeroed (spec/08 R209). -/
def State.vtZeroing (s : State) (v : Nat) : Bool := s.boot.zeroing.any (fun z => z.vt == some (BitVec.ofNat 16 v))

/-- VT_CREATE once its arguments stand (spec/08 R205, R207, R209; spec/12 R315, R316). -/
def State.vtMake (s : State) (a : BitVec 448) : Answer × State :=
  let v := (arg a 0 16).toNat
  let pages := areaPages (arg a 8 16)
  if s.vtZeroing v then (status 1, s)
  else match s.spaceStatus pages with
    | some r => (r, s)
    | none =>
      let d := (s.settleQuota 3 1 ((arg a 4 16).toNat / 2)).drawAlloc
      let t := (d.2.takePages pages).updVt v (fun _ =>
        { Vt.reset with
          defined := true, owner := arg a 2 6, ring := arg a 3 2, dbTarget := arg a 4 9, dbRing := arg a 6 2, dbLevel := arg a 7 4, cap := arg a 8 16,
          area := d.1 ++ (0#7 : BitVec 7) })
      if !t.admits then (status 3, s.modRat (fun r => { r with overcommit := true }))
      else (okWith (resPut 0 (d.1 ++ (0#12 : BitVec 12))), t.writeVt v)

/-- VT_CREATE (spec/08 R207). -/
def State.vtCreate (s : State) (a : BitVec 448) : Answer × State :=
  let ring := (arg a 3 8).toNat
  let cap := (arg a 8 16).toNat
  match lowestBad [((s.vtAt (arg a 0 16).toNat).defined, 0), (!ownerOk (arg a 2 8), 2), (ring ≠ 2 && ring ≠ 3, 3),
      (decide (511 < (arg a 4 16).toNat), 4), (argOver a 6 1 2, 6), (argOver a 7 1 4, 7), (cap = 0 || decide (4096 < cap), 8)] with
  | some d => (badArg d, s)
  | none => s.vtMake a

/-- VT_CREATE. -/
def execVtCreate (m : Fin 34) (s : State) : Host.Outcome State Fault Refusal :=
  ok (s.command m.val [0x0040] .ring01 (fun _ => s.mapReady) (fun a s => s.vtCreate a))

/-- The fixed access slot of resident frame `c` (spec/08 R202, R204; spec/16 R427): ring 1, and another ring where one is named, under the patterns of
the owner's mailbox frame. -/
def State.residentSlot (s : State) (c : Nat) (owner : BitVec 6) (ring : Option (BitVec 2)) : State :=
  let rings : BitVec 4 := match ring with | some n => setBit 2 n.toNat true | none => 2
  let from_ := if owner.toNat < 32 then s.descAt (18 + owner.toNat) else Desc.reset
  s.setDesc (0x2000 + c)
    { w0 := put 0 rings ||| put 4 rings ||| 0x100 ||| put 9 (field from_.w0 9 2), w1 := from_.w1, w2 := 0, w3 := 0, bad := false }

/-- An active entry bound to a pair and tag. -/
def Active.retag (a : Active) (t : BitVec 9) (n : BitVec 2) (c : Option (BitVec 11)) : Active :=
  { a with inst := { a.inst with target := t, ring := n, slot := c } }

/-- VT_RESIDENT's steps 2 to 7 (spec/08 R202, R206, R209): the save area is zeroed as it is restored. -/
def State.makeResident (s : State) (v t c : Nat) : State :=
  let m := s.vtAt v
  let tb := BitVec.ofNat 9 t
  let cb := BitVec.ofNat 11 c
  let lost := if m.suspect then m.bivouac else []
  let keep := if m.suspect then [] else m.bivouac
  let s := s.updPair (4 * t + m.ring.toNat) (fun p => { p with stack := m.savedAct.map (fun a => a.retag tb m.ring (some cb)) ++ p.stack })
  let s := s.updCtx c (fun x => { x with used := true, vt := BitVec.ofNat 16 v, ring := m.ring, target := tb, refilling := !keep.isEmpty })
  let s := s.updFrame (2048 + c) (fun _ => { m.saved with shadow := 0, stage := 0, flag := false })
  let s := s.updVt v (fun m => { m with resident := true, slot := cb, savedAct := [], bivouac := keep, dropTold := false })
  let s := foldList (fun (x : Inst) s => (s.groupNoPending x.group.toNat).ackAll x.serials) lost s
  let s := foldBelow m.savedAct.length (fun i s => (s.unretain (.actWrite (BitVec.ofNat 16 v) i)).memWrite (.zero 3 (t / 2)) (m.area + BitVec.ofNat 47 i) 0) s
  let s := s.residentSlot c m.owner (some m.ring)
  let s := foldList (fun (x : Inst) s => (s.charge 3 1 (t / 2)).readBack (.bivWrite (BitVec.ofNat 16 v) x.serial) (.bivouac cb x.serial) x.line) keep s
  s.releaseAllWaits.evalAll

/-- VT_RESIDENT (spec/08 R202, R207). -/
def State.vtResident (s : State) (a : BitVec 448) : Answer × State :=
  let v := (arg a 0 16).toNat
  let t := (arg a 2 16).toNat
  let m := s.vtAt v
  match lowestBad [(m.resident, 0), (decide (511 < t), 2)] with
  | some d => (badArg d, s)
  | none =>
  if !m.defined then (status 6, s)
  else match firstBelow 2048 (fun c => !(s.ctxAt c).used && decide ((s.ctxAt c).zeroUntil ≤ s.clk.ticks)) with
    | none => (if (s.ctx.filter (fun c => c.2.used)).length = 2048 then status 2 else status 1, s)
    | some c =>
      if 16 < (s.pairAt (4 * t + m.ring.toNat)).stack.length + m.savedAct.length then (status 2, s)
      else ((if m.suspect then 7 else 0, 0, resPut 0 (BitVec.ofNat 16 c)), s.makeResident v t c)

/-- VT_RESIDENT. -/
def execVtResident (m : Fin 34) (s : State) : Host.Outcome State Fault Refusal :=
  ok (s.command m.val [0x0041] .ring01 (fun _ => s.mapReady) (fun a s => s.vtResident a))

/-- A list in rank order, highest first, taken `n` times. -/
def byRank : Nat → List (Nat × Inst) → List Inst
  | 0, _ => []
  | n + 1, l =>
    match topRank l with
    | none => []
    | some b => b.2 :: byRank n (l.filter (fun a => a.2.serial != b.2.serial))

/-- The reads of a slot's bivouac that are on their way serve no one. -/
def State.cancelBivouac (s : State) (c : Nat) : State :=
  let mine (o : MemOwner) : Bool := match o with | .bivouac d _ => d.toNat == c | _ => false
  let strip (r : MemReq) : MemReq := if mine r.owner then { r with owner := .config } else r
  s.modMem (fun m => { m with waits := m.waits.map strip, queued := m.queued.map strip, out := m.out.map strip, done := m.done.filter (fun d => !mine d.1) })

/-- The order of a bivouac after an eviction that interrupts its refill: what had been read back is older than what is still unread, and that older than
what landed (spec/08 R202, R204; spec/05 R123 row 6). -/
def evictOrder (back : List (BitVec 32)) (unread : List (BitVec 32)) (l : List Inst) : List Inst :=
  l.filter (fun x => back.contains x.serial) ++ l.filter (fun x => unread.contains x.serial) ++
    l.filter (fun x => !back.contains x.serial && !unread.contains x.serial)

/-- The active entries saved to the area (spec/08 R204, R205). -/
def State.saveActs (s : State) (v : Nat) (acts : List Active) : State :=
  foldList (fun (a : Nat × Active) s =>
    (s.charge 3 1 (s.writerOf v / 2)).memWrite (.actWrite (BitVec.ofNat 16 v) a.1) ((s.vtAt v).area + BitVec.ofNat 47 a.1)
      (a.2.inst.areaData (BitVec.ofNat 16 v) a.2.asserted)) (enumFrom 0 acts) s

/-- VT_EVICT's steps 2 to 5 (spec/08 R204, R205, R209). The bound target's belay writes; BIV_CAP stops the instances, and a SUSPECT area takes them though
no residency reads them (R206). -/
def State.evict (s : State) (v : Nat) : State :=
  let m := s.vtAt v
  let c := m.slot.toNat
  let x := s.ctxAt c
  let t := x.target.toNat
  let k := 4 * t + x.ring.toNat
  let tag : Option (BitVec 11) := some m.slot
  let l := (s.storeOf t).filter (fun a => a.2.slot == tag)
  let acts := (s.pairAt k).stack.filter (fun a => a.inst.slot == tag)
  let f := s.frameAt (2048 + c)
  let s := (s.cancelBivouac c).updStore t (fun l => l.filter (fun y => y.slot != tag))
  let s := s.updPair k (fun p => { p with stack := p.stack.filter (fun a => a.inst.slot != tag) })
  let s := foldList (fun (y : Inst) s =>
    s.bivouacPut (BitVec.ofNat 16 v) { y with target := m.dbTarget, slot := none } false) (byRank l.length l) s
  let back := (l.filter (fun a => a.2.refilled)).map (fun a => a.2.serial)
  let s := s.updVt v (fun m' => { m' with bivouac := evictOrder back (m.bivouac.map (fun y => y.serial)) m'.bivouac })
  let s := s.saveActs v acts
  let s := s.updVt v (fun m =>
    { m with
      resident := false, slot := 0, savedAct := acts.map (fun a => a.retag m.dbTarget m.ring none),
      saved := { f with shadow := 0, stage := 0, flag := false } })
  let s := s.updFrame (2048 + c) (fun _ => Frame.reset)
  let s := s.updCtx c (fun _ => { Ctx.reset with zeroUntil := s.clk.ticks + 4 })
  ((((s.writeVt v).residentSlot c m.owner none).releaseAllWaits).pumpRefill t).evalAll

/-- VT_EVICT (spec/08 R204, R207). -/
def State.vtEvict (s : State) (a : BitVec 448) : Answer × State :=
  let v := (arg a 0 16).toNat
  let m := s.vtAt v
  if !m.resident then (status 6, s) else if m.running then (status 1, s) else (status 0, s.evict v)

/-- VT_EVICT. -/
def execVtEvict (m : Fin 34) (s : State) : Host.Outcome State Fault Refusal :=
  ok (s.command m.val [0x0042] .ring01 (fun _ => s.mapReady) (fun a s => s.vtEvict a))

/-- VT_DESTROY's steps (spec/08 R207): descriptor and area are zeroed in the background under the BIVOUAC ration of the doorbell target's belay (DESIGN
CHOICE, assumption log 56). -/
def State.destroy (s : State) (v : Nat) : State :=
  let s := if (s.vtAt v).resident then s.evict v else s
  let m := s.vtAt v
  let s := s.settleQuota 3 1 (m.dbTarget.toNat / 2)
  let s := s.updVt v (fun _ => Vt.reset)
  let s := foldList (fun (x : Inst) s => (s.groupNoPending x.group.toNat).ackAll x.serials) m.bivouac s
  let s := foldList (fun (a : Active) s =>
    let s := if a.inst.group != 0 then
        s.updGrp a.inst.group.toNat (fun g => { g with active := false, bound := if g.pending then g.bound else none })
      else s
    (match a.recorded with | some r => s.ack r | none => s).ackAll a.inst.serials) m.savedAct s
  let b := m.dbTarget.toNat / 2
  let s := foldBelow 2 (fun i s => s.memWrite (.zero 3 b) (s.descAddr v + BitVec.ofNat 47 i) 0) s
  (s.releasePages 3 b (field m.area 7 40) (areaPages m.cap) (16 + m.cap.toNat) (some (BitVec.ofNat 16 v))).evalAll

/-- VT_DESTROY (spec/08 R207). -/
def State.vtDestroy (s : State) (a : BitVec 448) : Answer × State :=
  let v := (arg a 0 16).toNat
  let m := s.vtAt v
  if !m.defined then (status 6, s) else if m.running then (status 1, s) else (status 0, s.destroy v)

/-- VT_DESTROY. -/
def execVtDestroy (m : Fin 34) (s : State) : Host.Outcome State Fault Refusal :=
  ok (s.command m.val [0x0043] .ring01 (fun _ => s.mapReady) (fun a s => s.vtDestroy a))

/-- The virtual target that runs on a pair. -/
def State.runningVt (s : State) (k : Nat) : Option Nat := (s.pairAt k).running.map (fun c => (s.ctxAt c.toNat).vt.toNat)

/-- The pair's running slot changes (spec/08 R200, R203): the outgoing target's number, WORK and priority, and the state after. -/
def State.runSlot (s : State) (t n : Nat) (c : Option (BitVec 11)) : BitVec 416 × State :=
  let k := 4 * t + n
  let out := s.runningVt k
  let work := if (s.pairAt k).running.isSome && s.whyNot t n (s.pairAt k).running = 0 then s.topOf t n (s.pairAt k).running else none
  let result := match out with
    | none => resPut 0 (0xFFFF : BitVec 16)
    | some v => resPut 0 (BitVec.ofNat 16 v) ||| (match work with | some x => resPut 2 (1 : BitVec 8) ||| resPut 3 x.prio | none => 0)
  let s := match out with | some v => s.updVt v (fun m => { m with running := false }) | none => s
  let s := match c with | some c => s.updVt (s.ctxAt c.toNat).vt.toNat (fun m => { m with running := true, notified := false }) | none => s
  (result, (s.updPair k (fun p => { p with running := c })).evalAll)

/-- Whether a mailbox may run or stop a virtual target: ring 1, or the owner of one with RING 3 (spec/08 R207). -/
def State.mayRun (s : State) (m : Nat) (v : Option Nat) : Bool :=
  match guestOf m, v with
  | none, _ => m = 1
  | some g, some v => (s.vtAt v).defined && (s.vtAt v).owner.toNat == g && (s.vtAt v).ring == 3
  | some _, none => false

/-- VT_RUN (spec/08 R203, R207). -/
def State.vtRun (s : State) (m : Nat) (a : BitVec 448) : Answer × State :=
  let t := (arg a 0 16).toNat
  let n := (arg a 2 8).toNat
  let stop := bitAt (arg a 3 8) 0
  let v := (arg a 4 16).toNat
  if !s.mayRun m (if stop then s.runningVt (4 * t + n) else some v) then (status 4, s)
  else match lowestBad [(decide (511 < t), 0), (decide (3 < n), 2), (argOver a 3 1 1, 3)] with
    | some d => (badArg d, s)
    | none =>
      if stop then (let x := s.runSlot t n none; (okWith x.1, x.2))
      else if !(s.vtAt v).resident then (status 6, s)
      else
        let c := (s.vtAt v).slot
        let x := s.ctxAt c.toNat
        if x.target.toNat ≠ t || x.ring.toNat ≠ n then (badArg 0, s)
        else (let y := s.runSlot t n (some c); (okWith y.1, y.2))

/-- VT_RUN. -/
def execVtRun (m : Fin 34) (s : State) : Host.Outcome State Fault Refusal :=
  ok (s.command m.val [0x0044] .any (fun _ => s.mapReady) (fun a s => s.vtRun m.val a))

/-- SUSPECT pages of an area: Tamri gives them out no more (spec/13 R355). -/
def State.suspectIn (s : State) (z : Zeroing) : Nat :=
  (s.boot.suspect.filter (fun p => decide (z.page.toNat ≤ p.toNat) && decide (p.toNat < z.page.toNat + z.pages))).length

/-- ZEROING_DONE: the oldest area's zeroing ends and its space becomes available (spec/11 R449). Lines of it that no idle tick has sent by then count as
sent (DESIGN CHOICE, assumption log 56). -/
def execZeroingDone (s : State) : Host.Outcome State Fault Refusal :=
  ok (match s.boot.zeroing with
      | [] => s
      | z :: rest => if s.running then s.modBoot (fun b => { b with tableFree := b.tableFree + (z.pages - s.suspectIn z), zeroing := rest }) else s)

/-- One line of the oldest area zeroed: in ration only where no other line of that activity waits (spec/11 R449). -/
def State.zeroStep (s : State) : State :=
  match s.boot.zeroing with
  | [] => s
  | z :: rest =>
    if z.left = 0 then s
    else
      let o : MemOwner := .zero z.act z.belay
      let s := s.modBoot (fun b => { b with zeroing := { z with next := z.next + 1, left := z.left - 1 } :: rest })
      let busy := (s.mem.waits ++ s.mem.queued).any (fun r => (r.act, r.scope, r.unit, r.input) == s.memUnit o)
      if busy then s.memAbove o z.next 0 else s.memWrite o z.next 0

end Sys2Proof.Machine
end

