-- ==== Sys2Proof/Machine/Clock.lean ====
section
/-! DEFINITION. What one tick of TCLK does while no command waits (spec/15 R388, R390, R391, R395; spec/14 R384; log 3). -/

namespace Sys2Proof.Machine

/-- The time counter runs on TCLK, or on BOSC / 2 once TCLK has failed (spec/15 R390, R393): not in cold reset, and in OFF only on BOSC. -/
def State.timeRuns (s : State) : Bool := s.aon && (!s.pwr.off || s.clk.timeOnBosc)

/-- The counters one tick later: 10 ns, two cycles of BOSC. -/
def State.advance (s : State) : State :=
  s.modClk (fun c =>
    { c with
      ticks := c.ticks + 1, time := if s.timeRuns then c.time + 1 else c.time, bosc := if s.aon then c.bosc + 2 else c.bosc })

/-- The cycles of PCLK in one tick: 8 at its highest rate (spec/03 R57; DESIGN CHOICE, assumption log 50). -/
def State.portCycles (s : State) : State := foldBelow 8 (fun n s => s.updPass n (fun p => p.cycles 8)) s

/-- One tick: the counters advance, the Pass ports return credits they owe, lanes in training or under test send on (spec/10 R255, R271), a pulse test that is over ends, accesses held at the control port are performed where they may be, a test of a unit that is over ends (spec/14 R368), a PARK request whose conditions now hold is completed, Tamri's own REKEY is tried
again, a compaction of the pinned store and a zeroing of released space go one step further (spec/04 R111, spec/11 R449), and records that waited for a
place in the logbook are forwarded where it has one (spec/01 R29). -/
def tick (s : State) : State :=
  let s := s.advance.pulseEnd.portCycles
  let s := if s.linksAlive then s.phyTick else s
  if s.running then s.serveHeld.testStep.tryPark.ownRekey.pinStep.zeroStep.releaseAllWaits else s

end Sys2Proof.Machine
end

