-- ==== Sys2Proof/Machine/Dispatch.lean ====
section
/-! DEFINITION. The dispatch: one arm for each command. -/

namespace Sys2Proof.Machine

def exec (i : Instr) (s : State) : Host.Outcome State Fault Refusal :=
  match i with
  | .wiredLineChange src level => Sys2Proof.Machine.execWiredLineChange src level s
  | .stormWindowExpiry src => Sys2Proof.Machine.execStormWindowExpiry src s
  | .collectorEmit pos => Sys2Proof.Machine.execCollectorEmit pos s
  | .enWordWrite w acc data => Sys2Proof.Machine.execEnWordWrite w acc data s
  | .pendWordWrite w acc data => Sys2Proof.Machine.execPendWordWrite w acc data s
  | .setpend src => Sys2Proof.Machine.execSetpend src s
  | .clrpend src => Sys2Proof.Machine.execClrpend src s
  | .seten src => Sys2Proof.Machine.execSeten src s
  | .clren src => Sys2Proof.Machine.execClren src s
  | .stormClear w acc x => Sys2Proof.Machine.execStormClear w acc x s
  | .sourceConfigWrite r acc data => Sys2Proof.Machine.execSourceConfigWrite r acc data s
  | .sgiSend t n acc data tag => Sys2Proof.Machine.execSgiSend t n acc data tag s
  | .passRecord n data par => Sys2Proof.Machine.execPassRecord n data par s
  | .passReset n pins => Sys2Proof.Machine.execPassReset n pins s
  | .syncComplete n => Sys2Proof.Machine.execSyncComplete n s
  | .syncTimeout n => Sys2Proof.Machine.execSyncTimeout n s
  | .doorbell master acc data tag => Sys2Proof.Machine.execDoorbell master acc data tag s
  | .dbMark master data => Sys2Proof.Machine.execDbMark master data s
  | .couloirGrant pos => Sys2Proof.Machine.execCouloirGrant pos s
  | .walkComplete pos req evt => Sys2Proof.Machine.execWalkComplete pos req evt s
  | .plainTransfer pos ledge aGood bGood equal => Sys2Proof.Machine.execPlainTransfer pos ledge aGood bGood equal s
  | .belayInsert b => Sys2Proof.Machine.execBelayInsert b s
  | .withdrawAtBelay b => Sys2Proof.Machine.execWithdrawAtBelay b s
  | .settleWindowExpiry serial => Sys2Proof.Machine.execSettleWindowExpiry serial s
  | .moveNotice b => Sys2Proof.Machine.execMoveNotice b s
  | .rerankNotice b => Sys2Proof.Machine.execRerankNotice b s
  | .refillComplete t => Sys2Proof.Machine.execRefillComplete t s
  | .groupDeadline g => Sys2Proof.Machine.execGroupDeadline g s
  | .claim f wide => Sys2Proof.Machine.execClaim f wide s
  | .complete f wide data => Sys2Proof.Machine.execComplete f wide data s
  | .unwind f data => Sys2Proof.Machine.execUnwind f data s
  | .tgtPresentChange t level => Sys2Proof.Machine.execTgtPresentChange t level s
  | .targetAbsentTimeout t => Sys2Proof.Machine.execTargetAbsentTimeout t s
  | .tgtEsc t => Sys2Proof.Machine.execTgtEsc t s
  | .rationRound => Sys2Proof.Machine.execRationRound s
  | .arbStarve a input => Sys2Proof.Machine.execArbStarve a input s
  | .lockLimit => Sys2Proof.Machine.execLockLimit s
  | .memResponse id ack err parityGood latency => Sys2Proof.Machine.execMemResponse id ack err parityGood latency s
  | .memTimeout id => Sys2Proof.Machine.execMemTimeout id s
  | .breachWindowEnd => Sys2Proof.Machine.execBreachWindowEnd s
  | .flitReceive k flit => Sys2Proof.Machine.execFlitReceive k flit s
  | .replayTimerExpiry k => Sys2Proof.Machine.execReplayTimerExpiry k s
  | .ackDeadline k => Sys2Proof.Machine.execAckDeadline k s
  | .burstIdleClose k => Sys2Proof.Machine.execBurstIdleClose k s
  | .burstVerify k => Sys2Proof.Machine.execBurstVerify k s
  | .snapReqRetry k => Sys2Proof.Machine.execSnapReqRetry k s
  | .snapLate k => Sys2Proof.Machine.execSnapLate k s
  | .orphanEoiRelease k => Sys2Proof.Machine.execOrphanEoiRelease k s
  | .linkRetry k mark => Sys2Proof.Machine.execLinkRetry k mark s
  | .heartbeatSend => Sys2Proof.Machine.execHeartbeatSend s
  | .partnerLost => Sys2Proof.Machine.execPartnerLost s
  | .creditReturnTimer => Sys2Proof.Machine.execCreditReturnTimer s
  | .capTimer k => Sys2Proof.Machine.execCapTimer k s
  | .laneLock l info inverted skew => Sys2Proof.Machine.execLaneLock l info inverted skew s
  | .lockFreeze k peer => Sys2Proof.Machine.execLockFreeze k peer s
  | .trainingTimeout k => Sys2Proof.Machine.execTrainingTimeout k s
  | .stepFlit k flit => Sys2Proof.Machine.execStepFlit k flit s
  | .rateStep k => Sys2Proof.Machine.execRateStep k s
  | .rateStepTimeout k => Sys2Proof.Machine.execRateStepTimeout k s
  | .idleEntry k => Sys2Proof.Machine.execIdleEntry k s
  | .idleExit k => Sys2Proof.Machine.execIdleExit k s
  | .idleKeepalive k => Sys2Proof.Machine.execIdleKeepalive k s
  | .idleTimeout k => Sys2Proof.Machine.execIdleTimeout k s
  | .los x => Sys2Proof.Machine.execLos x s
  | .lol lanes => Sys2Proof.Machine.execLol lanes s
  | .refLoss q pll => Sys2Proof.Machine.execRefLoss q pll s
  | .quadPowerUpDone q code inRange => Sys2Proof.Machine.execQuadPowerUpDone q code inRange s
  | .injection l => Sys2Proof.Machine.execInjection l s
  | .checkerLockLost l symbols symErrs bitErrs => Sys2Proof.Machine.execCheckerLockLost l symbols symErrs bitErrs s
  | .post m slot => Sys2Proof.Machine.execPost m slot s
  | .doneRelease m mask => Sys2Proof.Machine.execDoneRelease m mask s
  | .hello m => Sys2Proof.Machine.execHello m s
  | .srcRoute m => Sys2Proof.Machine.execSrcRoute m s
  | .srcPrio m => Sys2Proof.Machine.execSrcPrio m s
  | .devMap m => Sys2Proof.Machine.execDevMap m s
  | .evtMap m => Sys2Proof.Machine.execEvtMap m s
  | .evtUnmap m => Sys2Proof.Machine.execEvtUnmap m s
  | .reqPin m => Sys2Proof.Machine.execReqPin m s
  | .reqUnpin m => Sys2Proof.Machine.execReqUnpin m s
  | .invalidate m => Sys2Proof.Machine.execInvalidate m s
  | .rekey m => Sys2Proof.Machine.execRekey m s
  | .sweepDone => Sys2Proof.Machine.execSweepDone s
  | .cgroupSet m => Sys2Proof.Machine.execCgroupSet m s
  | .vtCreate m => Sys2Proof.Machine.execVtCreate m s
  | .vtResident m => Sys2Proof.Machine.execVtResident m s
  | .bivouacRefillDone c => Sys2Proof.Machine.execBivouacRefillDone c s
  | .vtRun m => Sys2Proof.Machine.execVtRun m s
  | .vtEvict m => Sys2Proof.Machine.execVtEvict m s
  | .vtDestroy m => Sys2Proof.Machine.execVtDestroy m s
  | .zeroingDone => Sys2Proof.Machine.execZeroingDone s
  | .rationSet m => Sys2Proof.Machine.execRationSet m s
  | .contractSet m => Sys2Proof.Machine.execContractSet m s
  | .linkConfig m => Sys2Proof.Machine.execLinkConfig m s
  | .linkUp m => Sys2Proof.Machine.execLinkUp m s
  | .linkDown m => Sys2Proof.Machine.execLinkDown m s
  | .linkKey m => Sys2Proof.Machine.execLinkKey m s
  | .partnerRole m => Sys2Proof.Machine.execPartnerRole m s
  | .sliceTest m found => Sys2Proof.Machine.execSliceTest m found s
  | .sliceSwap m => Sys2Proof.Machine.execSliceSwap m s
  | .belayLoad m img => Sys2Proof.Machine.execBelayLoad m img s
  | .belaySwitch m => Sys2Proof.Machine.execBelaySwitch m s
  | .bankSwitch b => Sys2Proof.Machine.execBankSwitch b s
  | .fwStage m img => Sys2Proof.Machine.execFwStage m img s
  | .fwActivate m loads => Sys2Proof.Machine.execFwActivate m loads s
  | .signatureVerifyDone e r s0 x y => Sys2Proof.Machine.execSignatureVerifyDone e r s0 x y s
  | .snapshot m => Sys2Proof.Machine.execSnapshot m s
  | .cairnClear m => Sys2Proof.Machine.execCairnClear m s
  | .accessSlotSet m => Sys2Proof.Machine.execAccessSlotSet m s
  | .ropeMap m => Sys2Proof.Machine.execRopeMap m s
  | .saveNow m => Sys2Proof.Machine.execSaveNow m s
  | .campLockstep b => Sys2Proof.Machine.execCampLockstep b s
  | .campWatchdogExpiry b => Sys2Proof.Machine.execCampWatchdogExpiry b s
  | .ridgeCheck r detail => Sys2Proof.Machine.execRidgeCheck r detail s
  | .ridgeTimeout r => Sys2Proof.Machine.execRidgeTimeout r s
  | .belayCheck b detail => Sys2Proof.Machine.execBelayCheck b detail s
  | .belayStall b address => Sys2Proof.Machine.execBelayStall b address s
  | .scrubRead region index error both => Sys2Proof.Machine.execScrubRead region index error both s
  | .clockFault which => Sys2Proof.Machine.execClockFault which s
  | .cairnRecord => Sys2Proof.Machine.execCairnRecord s
  | .cairnAck index => Sys2Proof.Machine.execCairnAck index s
  | .selfCheckRound => Sys2Proof.Machine.execSelfCheckRound s
  | .hbStop data => Sys2Proof.Machine.execHbStop data s
  | .isolate data => Sys2Proof.Machine.execIsolate data s
  | .ropeInput i0 level => Sys2Proof.Machine.execRopeInput i0 level s
  | .pulse ring data seen => Sys2Proof.Machine.execPulse ring data seen s
  | .timeLoad t => Sys2Proof.Machine.execTimeLoad t s
  | .coldReset => Sys2Proof.Machine.execColdReset s
  | .coldResetRelease senior ropeDefault tapMode fwBase => Sys2Proof.Machine.execColdResetRelease senior ropeDefault tapMode fwBase s
  | .sramZeroed => Sys2Proof.Machine.execSramZeroed s
  | .fastReady => Sys2Proof.Machine.execFastReady s
  | .boot desc img memKHz header lastWords => Sys2Proof.Machine.execBoot desc img memKHz header lastWords s
  | .entropyReady => Sys2Proof.Machine.execEntropyReady s
  | .entropyHealth kind => Sys2Proof.Machine.execEntropyHealth kind s
  | .warmReset => Sys2Proof.Machine.execWarmReset s
  | .warmResetKey ring data => Sys2Proof.Machine.execWarmResetKey ring data s
  | .parkReq ring data => Sys2Proof.Machine.execParkReq ring data s
  | .parkTimeout => Sys2Proof.Machine.execParkTimeout s
  | .parkWake => Sys2Proof.Machine.execParkWake s
  | .powerWarn code => Sys2Proof.Machine.execPowerWarn code s
  | .wakeRecordDone => Sys2Proof.Machine.execWakeRecordDone s
  | .lastWordsSent => Sys2Proof.Machine.execLastWordsSent s
  | .supplyLoss => Sys2Proof.Machine.execSupplyLoss s
  | .wearMeasure ppm => Sys2Proof.Machine.execWearMeasure ppm s
  | .tempBin a b c d => Sys2Proof.Machine.execTempBin a b c d s
  | .registerWrite a => Sys2Proof.Machine.execRegisterWrite a s
  | .unknownCommand m => Sys2Proof.Machine.execUnknownCommand m s
  | .campLoadDone loaded => Sys2Proof.Machine.execCampLoadDone loaded s
  | .powerWarnFall => Sys2Proof.Machine.execPowerWarnFall s
  | .registerRead a => Sys2Proof.Machine.execRegisterRead a s
  | .keepWarmRead => Sys2Proof.Machine.execKeepWarmRead s
  | .checkerLock x => Sys2Proof.Machine.execCheckerLock x s
  | .clockFaultClear which => Sys2Proof.Machine.execClockFaultClear which s
  | .refRecovery q => Sys2Proof.Machine.execRefRecovery q s
  | .idleFrameReceive x => Sys2Proof.Machine.execIdleFrameReceive x s
  | .exitBurstReceive k => Sys2Proof.Machine.execExitBurstReceive k s
  | .tamriRewrite => Sys2Proof.Machine.execTamriRewrite s

end Sys2Proof.Machine
end

