-- ==== Sys2Proof/Safety.lean ====
section
/-! DEFINITION. What a safe step is, and the frames the statements name: how two states may differ. -/

namespace Sys2Proof

/-- A step that neither faults nor turns its command away. -/
def Machine.State.steps (s : Machine.State) : Prop := ∃ t, Machine.step s = .next t

/-- The collector's tables in canonical form. -/
structure Machine.WiredShape (w : Machine.Wired) : Prop where
  src  : Machine.Tbl.wf Machine.Source.reset w.src = true
  bank : Machine.Tbl.wf Machine.BankStorm.reset w.bank = true

/-- Four ridge positions, five ridges (spec/04 R95), the table region's and pinned store's tables in canonical form. -/
structure Machine.XlatShape (x : Machine.Xlat) : Prop where
  pos      : x.pos.length = 4
  ridge    : x.ridge.length = 5
  ridgeMap : x.ridgeMap.length = 4
  dev      : Machine.Tbl.wf Machine.DevEntry.reset x.dev = true
  evt      : Machine.Tbl.wf Machine.EvtEntry.reset x.evt = true
  pinned   : Machine.Tbl.wf Machine.EvtEntry.reset x.pinned = true

/-- The quota and EXHAUSTED tables in canonical form. -/
structure Machine.RationShape (r : Machine.Rations) : Prop where
  quota     : Machine.Tbl.wf Machine.Quota.reset r.quota = true
  exhausted : Machine.Tbl.wf (0 : BitVec 64) r.exhausted = true

/-- The access slots, violation records and snapshots in canonical form. -/
structure Machine.AccessShape (a : Machine.AccessCheck) : Prop where
  slot : Machine.Tbl.wf Machine.Desc.reset a.slot = true
  recs : Machine.Tbl.wf Machine.Violation.reset a.recs = true
  snap : Machine.Tbl.wf (0 : BitVec 32) a.snap = true

/-- Eight wear regions and eight temperature bins (spec/14 R386). -/
structure Machine.WearShape (w : Machine.Wear) : Prop where
  ppm      : w.ppm.length = 8
  measured : w.measured.length = 8
  seconds  : w.seconds.length = 8

/-- The cairn table in canonical form and at most 64 keys in the merging queue (spec/13 R339). -/
structure Machine.CairnShape (c : Machine.Cairns) : Prop where
  recs  : Machine.Tbl.wf Machine.CairnRec.reset c.recs = true
  queue : c.queue.length ≤ 64

/-- The shape of a state: every unit that the spec counts is there, and every sparse table holds its keys rising and no row equal to what an unlisted
key reads as, so that equal contents are equal data; the merging queue holds at most 64 keys (spec/13 R339) and the doorbell at most 16 markers
(spec/03 R77). -/
structure Machine.Shape (s : Machine.State) : Prop where
  wired  : Machine.WiredShape s.wired
  xl     : Machine.XlatShape s.xl
  rat    : Machine.RationShape s.rat
  acc    : Machine.AccessShape s.acc
  wear   : Machine.WearShape s.wear
  rope   : Machine.Tbl.wf Machine.RopeOut.reset s.rope.map = true
  limit  : Machine.Tbl.wf (0 : BitVec 32) s.arb.limit = true
  cairn  : Machine.CairnShape s.cairn
  door   : s.door.markers.length ≤ 16
  pass   : Machine.Tbl.wf Machine.PassPort.reset s.pass = true
  inq    : Machine.Tbl.wf [] s.inq = true
  plain  : Machine.Tbl.wf Machine.PathCopy.reset s.plain = true
  bel    : Machine.Tbl.wf Machine.Belay.reset s.bel = true
  tgt    : Machine.Tbl.wf Machine.Target.reset s.tgt = true
  pair   : Machine.Tbl.wf Machine.Pair.reset s.pair = true
  frame  : Machine.Tbl.wf Machine.Frame.reset s.frame = true
  grp    : Machine.Tbl.wf Machine.Group.reset s.grp = true
  vt     : Machine.Tbl.wf Machine.Vt.reset s.vt = true
  ctx    : Machine.Tbl.wf Machine.Ctx.reset s.ctx = true
  log    : Machine.Tbl.wf Machine.LogEntry.reset s.log = true
  links  : Machine.Tbl.wf Machine.Link.reset s.links = true
  quads  : Machine.Tbl.wf Machine.Quad.reset s.quads = true
  lanes  : Machine.Tbl.wf Machine.Lane.reset s.lanes = true
  mbx    : Machine.Tbl.wf Machine.Mbox.reset s.mbx = true

/-- Nothing of the wired collector but the record of source `n` differs, and nothing outside the collector. -/
def Machine.onlySource (s t : Machine.State) (n : Nat) : Prop :=
  t = { s with wired := { s.wired with src := t.wired.src } } ∧ ∀ k, k ≠ n → t.srcAt k = s.srcAt k

/-- Nothing but couloir input `n`'s queue and the record of wired source `m` differs. -/
def Machine.onlySourceAndInput (s t : Machine.State) (m n : Nat) : Prop :=
  t = { s with wired := { s.wired with src := t.wired.src }, inq := t.inq } ∧ (∀ k, k ≠ m → t.srcAt k = s.srcAt k) ∧
    ∀ k, k ≠ n → t.inqAt k = s.inqAt k

/-- The order in which ready sources of one ridge leave the collector (spec/02 R34): shared before private, then the higher number. -/
def Machine.emitsBefore (m n : Nat) : Prop := (m < 8192 ∧ 8192 ≤ n) ∨ ((m < 8192 ↔ n < 8192) ∧ n < m)

/-- Nothing but Pass port `n`, the merging queue of reports and the recency of the device-table cache differs. -/
def Machine.onlyPort (s t : Machine.State) (n : Nat) : Prop :=
  t = { s with pass := t.pass, cairn := t.cairn, xl := { s.xl with devCache := t.xl.devCache } } ∧ ∀ k, k ≠ n → t.passAt k = s.passAt k

/-- Nothing differs but the entry levels of pairs and their counts of withholding, which follow from the rest (spec/05 R127, spec/06 R155). -/
def Machine.onlyLevels (s t : Machine.State) : Prop :=
  t = { s with pair := t.pair } ∧ ∀ k, t.pairAt k =
    { s.pairAt k with level := (t.pairAt k).level, withheldNow := (t.pairAt k).withheldNow, withheld := (t.pairAt k).withheld }

/-- What a couloir input has lost in its contest: a masked one has lost nothing (spec/12 R326). -/
def Machine.State.couloirLosses (s : Machine.State) (p i : Nat) : Nat :=
  if s.arbMasked (12 * s.ridgeOf p + i) then 0 else (s.arbAt (12 * s.ridgeOf p + i)).losses

/-- Input `i` presents record `r` to a position's couloir and competes: it is not forced absent (spec/12 R327), and the logbook has a place for the record
(spec/01 R29). -/
def Machine.State.contends (s : Machine.State) (p i : Nat) (r : Machine.Rec) : Prop :=
  i < 12 ∧ s.couloirHead p i = some r ∧ (s.arbAt (12 * s.ridgeOf p + i)).forced = false ∧ s.logFullFor r.origin.cls = false

/-- Input `i` beats input `j` in a couloir's contest (spec/12 R325): the higher effective priority, PRIO and losses up to 15, then the higher input. -/
def Machine.State.couloirBeats (s : Machine.State) (p i j : Nat) : Prop :=
  let eff (k : Nat) : Nat := min 15 ((s.arbAt (12 * s.ridgeOf p + k)).prio.toNat + s.couloirLosses p k)
  eff j < eff i ∨ (eff j = eff i ∧ j < i)

/-- A memory request has been made and is not yet answered (spec/12 R321, R329). -/
def Machine.State.asks (s : Machine.State) (r : Machine.MemReq) : Prop := r ∈ s.mem.waits ++ s.mem.queued ++ s.mem.out

/-- Both lines of a wake record's header are asked for by Tamri (spec/15 R408). -/
def Machine.State.headerAsked (s : Machine.State) (h : Machine.NvHeader) : Prop :=
  ∀ i, i < 2 → ∃ r, s.asks r ∧ r.owner = .config ∧ r.write = true ∧ r.addr = s.nvmLine + BitVec.ofNat 47 i ∧
    r.data = Machine.field h.bytes (256 * i) 256

/-- A report enters the merging queue at once: its key does not wait there, the queue has room and its unit's FAULT quota is not exhausted (spec/13
R339). -/
def Machine.canReport (s : Machine.State) (by_ : Machine.Reporter) (cause kind : BitVec 8) (unit : BitVec 16) : Prop :=
  s.cairn.queue.length < 64 ∧ s.faultMasked by_ = false ∧ ∀ q ∈ s.cairn.queue, ¬(q.cause = cause ∧ q.kind = kind ∧ q.unit = unit)

/-- A report as it enters the merging queue (spec/13 R338, R340). -/
def Machine.reportOf (s : Machine.State) (cause kind : BitVec 8) (unit : BitVec 16) (sev : BitVec 2) (detail : BitVec 32) : Machine.Report :=
  { cause := cause, kind := kind, unit := unit, sev := sev, detail := detail, last := detail, first := s.clk.time.setWidth 48,
    latest := s.clk.time.setWidth 48, count := 1 }

/-- A target's store with a free entry and nothing spilled (spec/06 R168). -/
def Machine.roomy (s : Machine.State) (t : Nat) : Prop := (s.tgtAt t).store.length < 512 ∧ ∀ x ∈ (s.tgtAt t).store, x.spilled = false

/-- An instance that a claim of ring `n` of target `t`, under a tag, may take (spec/05 R126, spec/08 R195): in that frame, not held, above RUNPRIO.PRIO,
and no withdraw on its way (spec/02 R41). -/
def Machine.claimable (s : Machine.State) (t n : Nat) (tag : Option (BitVec 11)) (a : Nat × Machine.Inst) : Prop :=
  a ∈ s.storeOf t ∧ a.2.ring.toNat = n ∧ a.2.slot = tag ∧ s.held (s.storeOf t) a = false ∧
    ((s.pairAt (4 * t + n)).prioOf tag).toNat < a.2.prio.toNat ∧ ∀ h, a.2.origin = .handle h → s.withdrawing h = false

/-- No entry of handle `h` is active, on a stack or in a save area. -/
def Machine.notActive (s : Machine.State) (h : Machine.Handle) : Prop :=
  (∀ p ∈ s.pair, ∀ a ∈ p.2.stack, a.inst.origin ≠ .handle h) ∧ ∀ m ∈ s.vt, ∀ a ∈ m.2.savedAct, a.inst.origin ≠ .handle h

/-- No instance of handle `h` is in a bivouac. -/
def Machine.notBivouacked (s : Machine.State) (h : Machine.Handle) : Prop := ∀ m ∈ s.vt, ∀ x ∈ m.2.bivouac, x.origin ≠ .handle h

/-- Nothing differs but link `k`. -/
def Machine.onlyLink (s t : Machine.State) (k : Nat) : Prop := t = { s with links := t.links } ∧ ∀ j, j ≠ k → t.linkAt j = s.linkAt j

/-- Nothing differs but lane `n`. -/
def Machine.onlyLane (s t : Machine.State) (n : Nat) : Prop := t = { s with lanes := t.lanes } ∧ ∀ j, j ≠ n → t.laneAt j = s.laneAt j

/-- Nothing differs but link `k` and what its lanes' transmitters and receivers have moved through (spec/10 R251 to R253). -/
def Machine.onlyLinkPhy (s t : Machine.State) (k : Nat) : Prop :=
  t = { s with links := t.links, lanes := t.lanes } ∧ (∀ j, j ≠ k → t.linkAt j = s.linkAt j) ∧
    (∀ n, n ∉ (s.linkAt k).lanes → t.laneAt n = s.laneAt n) ∧ ∀ n, t.laneAt n = { s.laneAt n with
      pre := (t.laneAt n).pre, scr := (t.laneAt n).scr, inj := (t.laneAt n).inj, out := (t.laneAt n).out, prbs := (t.laneAt n).prbs, signal := (t.laneAt n).signal,
      rxPre := (t.laneAt n).rxPre, rxScr := (t.laneAt n).rxScr }

/-- One flit left link `k`: its bytes went round-robin to the in-use lanes in ascending logical order, each lane's part scrambled and sent (spec/10 R251
to R253). -/
def Machine.flitLeft (s t : Machine.State) (k : Nat) (f : BitVec 256) : Prop :=
  let used := (s.linkAt k).lanes.filter (fun n => (s.laneAt n).inUse)
  (∀ p ∈ Machine.enumFrom 0 used, t.laneAt p.2 = (s.laneAt p.2).sendData (Machine.laneData f used.length p.1)) ∧
    ∀ n, n ∉ used → t.laneAt n = s.laneAt n

/-- An idle link's word with nothing to say: a NOP that carries the acknowledgement and the replay request owed (spec/09 R214, R215, R217). -/
def Machine.nopOf (l : Machine.Link) : BitVec 256 :=
  Machine.flitOf (Machine.flitBody 0 l.tx.reqOwed false l.tx.seq l.rx.released 0)

/-- What a link's loss leaves (spec/09 R228, R231, spec/10 R269), of a valley link that was up: down for the reason, or held, orphaned, its unacknowledged and queued
EOIs on the orphan list, its lanes squelched. -/
def Machine.linkLost (s t : Machine.State) (k : Nat) (reason : BitVec 4) : Prop :=
  (match s.heldFor (s.linkAt k) with
    | none => (t.linkAt k).state = 1 ∧ (t.linkAt k).downReason = reason
    | some r => (t.linkAt k).state = 2 ∧ (t.linkAt k).downReason = r) ∧ (t.linkAt k).orphaned = true ∧ (t.linkAt k).wentDown = true ∧
    (t.linkAt k).tx.replay = [] ∧ (t.linkAt k).tx.queue = [] ∧ (t.linkAt k).rx.hold = [] ∧
    (((s.linkAt k).tx.replay = [] ∧ (s.linkAt k).tx.queue = [] ∧ (s.linkAt k).orphans.length ≤ 1024) → (t.linkAt k).orphans = (s.linkAt k).orphans) ∧
    (∀ j, j ≠ k → t.linkAt j = s.linkAt j) ∧
    (∀ n ∈ (s.linkAt k).lanes, (s.laneAt n).excluded = false →
      (t.laneAt n).squelched = true ∧ (t.laneAt n).inUse = false ∧ (t.laneAt n).locked = false) ∧
    ∀ n, n ∉ (s.linkAt k).lanes → t.laneAt n = s.laneAt n

/-- Nothing differs but ridge position `p`, ridge `r` and the parts that `t` is said to differ in. -/
def Machine.onlyPosRidge (s t : Machine.State) (p r : Nat) : Prop :=
  (∀ k, k ≠ p → t.posAt k = s.posAt k) ∧ ∀ k, k ≠ r → t.ridgeAt k = s.ridgeAt k

/-- The heartbeat stopped for a cause (spec/13 R363, spec/10 R269): armed or running no more, its time kept, every up link down or held (spec/09 R231), every lane squelched;
the collector, the translation, delivery, the logbook and the cairns are as they were, and with no link training or up nothing else differs. -/
def Machine.heartStopped (s t : Machine.State) (cause : BitVec 4) : Prop :=
  t.rope.hbRunning = false ∧ t.rope.hbArmed = false ∧ t.rope.hbCause = cause ∧ t.rope.hbTime = s.clk.bosc.setWidth 48 ∧
    t.cairn = s.cairn ∧ t.wired = s.wired ∧ t.tgt = s.tgt ∧ t.pair = s.pair ∧ t.log = s.log ∧ t.xl = s.xl ∧
    (∀ k, k < 16 → (s.linkAt k).state = 5 → (t.linkAt k).state = if (s.heldFor (s.linkAt k)).isSome then 2 else 1) ∧ (∀ n, n < 16 → (t.laneAt n).squelched = true ∧ (t.laneAt n).inUse = false) ∧
    ((∀ k, k < 16 → (s.linkAt k).state = 0 ∨ (s.linkAt k).state = 1) → t = { s with rope := t.rope, lanes := t.lanes })

/-- Base Camp's next command is the oldest posted one of mailbox `m`, in slot `i` (spec/11 R288): its code is `code`, its header has no fault, the boot
succeeded, Tamri's own REKEY is not due (spec/04 R117), no unit's test runs (spec/14 R368), and it asks for no notification (R287). -/
def Machine.turnOf (s : Machine.State) (m i : Nat) (code : BitVec 16) : Prop :=
  s.running = true ∧ s.camp.executing = true ∧ s.boot.failed = false ∧ s.rekeyDue = false ∧ s.camp.testing = none ∧ s.nextMbox = some m ∧ (∃ rest, (s.mbxAt m).order = i :: rest) ∧
    Machine.reqCode (s.slotAt m i).req = code ∧ Machine.headerBad (s.slotAt m i).req = false ∧
    (Machine.bitAt (s.slotAt m i).req 40 = false ∨ (s.mbxAt m).enable = false)

/-- The ARGS of the command in slot `i` of mailbox `m` (spec/11 R284). -/
def Machine.argsOf (s : Machine.State) (m i : Nat) : BitVec 448 := Machine.reqArgs (s.slotAt m i).req

/-- The mailbox's side of a command of slot `i` that leaves `u` (spec/11 R281, R283 to R288): the command leaves POSTED, EXEC_SEQ counts it, a shadowing standby
pair gets its commit record, the turn passes on, and no other slot and no other mailbox changes; slot `i` is then `x`. -/
def Machine.slotLeft (s u t : Machine.State) (m i : Nat) (x : Machine.Slot) : Prop :=
  t = { u with mbx := t.mbx, camp := { u.camp with execSeq := s.camp.execSeq + 1, rr := m, record := t.camp.record, copySeq := t.camp.copySeq } } ∧
    (if s.camp.standby.toNat ≤ 1 then
      t.camp.record = some { mbox := m, slot := i, req := (s.slotAt m i).req, seq := s.camp.execSeq + 1 } ∧ t.camp.copySeq = s.camp.execSeq + 1
    else t.camp.record = s.camp.record ∧ t.camp.copySeq = s.camp.copySeq) ∧ (∀ k, k ≠ m → t.mbxAt k = s.mbxAt k) ∧
    t.mbxAt m = { s.mbxAt m with order := (s.mbxAt m).order.drop 1, slots := (t.mbxAt m).slots } ∧ (∀ j, j ≠ i → t.slotAt m j = s.slotAt m j) ∧
    t.slotAt m i = x

/-- `t` is `u` with the command of slot `i` answered (spec/11 R285, R287): the response written, RUNNING clear, DONE set. -/
def Machine.answered (s u t : Machine.State) (m i : Nat) (a : Machine.Answer) : Prop :=
  Machine.slotLeft s u t m i { s.slotAt m i with
    posted := false, running := false, done := true, resp := Machine.respWords (s.slotAt m i).req a false (s.camp.execSeq + 1) }

/-- `t` is `u` with the command of slot `i` taken and running: its answer is still owed. -/
def Machine.takenOnly (s u t : Machine.State) (m i : Nat) : Prop :=
  Machine.slotLeft s u t m i { s.slotAt m i with posted := false, running := true }

/-- No memory contract stands or waits, so that admission refuses nothing (spec/12 R316). -/
def Machine.noContract (s : Machine.State) : Prop := s.rat.contract = none ∧ s.rat.nextContract = none

/-- The block held in cold reset (spec/15 R398): every field at its reset value but the ROM, the levels of the input pins, the queue, the draw count and the tick
count (with the tick at which a TGT_PRESENT fell). -/
def Machine.heldAtReset (s : Machine.State) : Prop :=
  s = { Machine.State.reset with
    pending := s.pending, freeCtr := s.freeCtr, rom := s.rom, clk := { Machine.Clocks.reset with ticks := s.clk.ticks },
    wired := { Machine.Wired.reset with src := s.wired.src }, tgt := s.tgt, pass := s.pass,
    quads := s.quads, rope := { Machine.Rope.reset with inputs := s.rope.inputs } } ∧
  (∀ n, s.srcAt n = { Machine.Source.reset with line := (s.srcAt n).line }) ∧
  (∀ n, s.tgtAt n = { Machine.Target.reset with present := (s.tgtAt n).present, absSince := (s.tgtAt n).absSince }) ∧
  (∀ n, s.passAt n = { Machine.PassPort.reset with resetN := (s.passAt n).resetN, pclk := (s.passAt n).pclk }) ∧
  ∀ n, s.quadAt n = { Machine.Quad.reset with ref := (s.quadAt n).ref }

end Sys2Proof
end

