-- ==== Sys2Proof/Certificates/Slice0/Obligations.lean ====
section
/-! DEFINITION. The statements about the model. Each names the rules of spec/ it formalises; OBLIGATIONS.json lists them. -/

open Sys2Proof Sys2Proof.Machine

/-- With a command at the front of its queue, a step is that command's meaning on the block with the rest of the queue. -/
def Obligations.StepRunsFrontCommand : Prop :=
  ∀ (c : Instr) (rest : List Instr) (s : State), s.pending = c :: rest → step s = exec c { s with pending := rest }

/-- The model's choice (log 3): with no command waiting a step is one tick of TCLK. It never stops, counts one tick, and moves the time counter by one
where it runs (spec/15 R388, R390), else not at all; BOSC_TIME moves by two cycles while the always-on domain is up. With the links not alive nothing else
moves but a pulse test that ends and the credits that the Pass ports return (log 50). -/
def Obligations.IdleStepIsOneTick : Prop :=
  ∀ (s : State), s.pending = [] →
    ∃ t, step s = .next t ∧ t.clk.ticks = s.clk.ticks + 1 ∧ t.clk.time = (if s.timeRuns then s.clk.time + 1 else s.clk.time) ∧
      t.clk.bosc = (if s.aon then s.clk.bosc + 2 else s.clk.bosc) ∧ t.pending = [] ∧
      (s.linksAlive = false → t = { s with clk := t.clk, rope := t.rope, pass := t.pass } ∧
        ∀ n, t.passAt n = if n < 8 then (s.passAt n).cycles 8 else s.passAt n)

/-- No command that names something the block has stops it: every meaning answers a next state (spec/13 R336, spec/16 R428: an error is an event
after which the block goes on), and a command that names an SRAM word past its region's end is refused (log 9). -/
def Obligations.EveryCommandAnswers : Prop :=
  ∀ (c : Instr) (s : State), (c.wf = true → ∃ t, exec c s = .next t) ∧ (c.wf = false → exec c s = .refused .illFormed)

/-- Spec/02 R38, R39: what a change of a live wired line does to its source, with no storm guard set. An edge sets PEND, or merges and adds to MERGED of
a shared source; a level source's PEND follows its asserted line while ACT = 0, with a withdraw where the instance was offered, and is left alone
while ACT = 1. EN, STORM and every other source stay. -/
def Obligations.WiredLineChangeFollowsTrigger : Prop :=
  ∀ (src : Src) (level : Bool) (s : State), srcHasLine src = true → s.running = true → s.wired.live = true →
    (s.stormOf (srcNum src)).2 = 0 →
    let n := srcNum src
    let x := s.srcAt n
    let edge : Prop := x.ref ≠ level ∧ (x.trigger = 2 ∨ level ≠ x.polarity)
    let seen : Source := { x with line := level, ref := level }
    (x.trigger ≠ 0 → edge → x.pend = false →
      ∃ t, exec (.wiredLineChange src level) s = .next t ∧ onlySource s t n ∧ t.srcAt n = { seen with pend := true, weight := 1, sender := 0 }) ∧
    (x.trigger ≠ 0 → edge → x.pend = true → x.offered = false →
      ∃ t, exec (.wiredLineChange src level) s = .next t ∧ onlySource s t n ∧
        t.srcAt n = { seen with merged := if n < 8192 then satInc x.merged else x.merged, weight := satInc x.weight }) ∧
    (x.trigger ≠ 0 → ¬edge →
      ∃ t, exec (.wiredLineChange src level) s = .next t ∧ onlySource s t n ∧ t.srcAt n = seen) ∧
    (x.trigger = 0 → x.act = true →
      ∃ t, exec (.wiredLineChange src level) s = .next t ∧ onlySource s t n ∧ t.srcAt n = seen) ∧
    (x.trigger = 0 → x.act = false → level ≠ x.polarity → x.pend = false →
      ∃ t, exec (.wiredLineChange src level) s = .next t ∧ onlySource s t n ∧ t.srcAt n = { seen with pend := true, weight := 1, sender := 0 }) ∧
    (x.trigger = 0 → x.act = false → level = x.polarity → x.pend = true →
      ∃ t, exec (.wiredLineChange src level) s = .next t ∧ onlySource s t n ∧
        t.srcAt n = { seen with
          pend := false, offered := false, wdraw := x.wdraw || x.offered, weight := 0, mergeOwed := if x.offered then 0 else x.mergeOwed })

/-- Spec/02 R46, R38, R39: SETPEND is an occurrence of an edge source and CLRPEND clears its PEND, with a withdraw if the instance was offered; both
are ignored for a level source. SETEN sets EN, CLREN clears it with a withdraw if the instance was offered. No other source is touched. -/
def Obligations.OneSourceRegistersActOnOneSource : Prop :=
  ∀ (src : Src) (s : State), s.running = true → isReserved (srcNum src) = false →
    let n := srcNum src
    let x := s.srcAt n
    (x.isEdge n = true → x.pend = false → (s.stormOf n).2 = 0 →
      ∃ t, exec (.setpend src) s = .next t ∧ onlySource s t n ∧ t.srcAt n = { x with pend := true, weight := 1, sender := 0 }) ∧
    (x.isEdge n = true →
      ∃ t, exec (.clrpend src) s = .next t ∧ onlySource s t n ∧
        t.srcAt n = { x with
          pend := false, offered := false, wdraw := x.wdraw || x.offered, byWrite := x.byWrite || x.offered, weight := 0,
          mergeOwed := if x.offered then 0 else x.mergeOwed }) ∧
    (x.isEdge n = false → exec (.setpend src) s = .next s ∧ exec (.clrpend src) s = .next s) ∧
    (∃ t, exec (.seten src) s = .next t ∧ onlySource s t n ∧ (t.srcAt n).en = true ∧
      ((x.offered = true → x.storm = false ∧ x.prioNow ≠ 0) → t.srcAt n = { x with en := true })) ∧
    (∃ t, exec (.clren src) s = .next t ∧ onlySource s t n ∧
      t.srcAt n = { x with
        en := false, offered := false, wdraw := x.wdraw || x.offered, byWrite := x.byWrite || x.offered,
        mergeOwed := if x.offered then 0 else x.mergeOwed })

/-- Spec/02 R43, R44, R48: a write to a word of 64 sources applies every bit it reaches, the unchanged ones included, and nothing else: EN becomes the
bit written; PEND of an edge source becomes the bit written and a level source ignores it; a written 1 to STORM clears it and restarts the
window count, but where a trip of the guard sets it in the same cycle (R49): the set wins. The reserved private numbers 48 to 63 are skipped. -/
def Obligations.WordWritesApplyEveryBit : Prop :=
  ∀ (w : SrcWord) (acc : Acc) (data : Word) (s : State), s.running = true →
    (∃ t, exec (.enWordWrite w acc data) s = .next t ∧ t = { s with wired := { s.wired with src := t.wired.src } } ∧
      (∀ i, i < 64 → reaches acc i = true → isReserved (srcBase w + i) = false →
        (t.srcAt (srcBase w + i)).en = wrote1 acc data i ∧ (t.srcAt (srcBase w + i)).pend = (s.srcAt (srcBase w + i)).pend) ∧
      ∀ k, (∀ i, i < 64 → reaches acc i = true → isReserved (srcBase w + i) = false → k ≠ srcBase w + i) → t.srcAt k = s.srcAt k) ∧
    (∃ t, exec (.pendWordWrite w acc data) s = .next t ∧
      (∀ i, i < 64 → reaches acc i = true → isReserved (srcBase w + i) = false →
        (t.srcAt (srcBase w + i)).pend =
          (if (s.srcAt (srcBase w + i)).isEdge (srcBase w + i) then wrote1 acc data i else (s.srcAt (srcBase w + i)).pend)) ∧
      ∀ k, (∀ i, i < 64 → reaches acc i = true → isReserved (srcBase w + i) = false → k ≠ srcBase w + i) → t.srcAt k = s.srcAt k) ∧
    (∃ t, exec (.stormClear w acc { data := data, racing := 0 }) s = .next t ∧ t = { s with wired := { s.wired with src := t.wired.src } } ∧
      (∀ i, i < 64 → reaches acc i = true → isReserved (srcBase w + i) = false → wrote1 acc data i = true →
        (t.srcAt (srcBase w + i)).storm = false ∧ ((s.srcAt (srcBase w + i)).storm = true → (t.srcAt (srcBase w + i)).winCount = 0) ∧
        (t.srcAt (srcBase w + i)).en = (s.srcAt (srcBase w + i)).en) ∧
      ∀ k, (∀ i, i < 64 → reaches acc i = true → isReserved (srcBase w + i) = false → wrote1 acc data i = true → k ≠ srcBase w + i) →
        t.srcAt k = s.srcAt k) ∧
    (∀ racing, ∃ t, exec (.stormClear w acc { data := data, racing := racing }) s = .next t ∧
      ∀ i, i < 64 → bitAt racing i = true → isReserved (srcBase w + i) = false → isSgi (srcBase w + i) = false → s.wired.live = true →
        let x := s.srcAt (srcBase w + i)
        x.trigger = 2 → (s.stormOf (srcBase w + i)).2 ≠ 0 → x.winOpen = true → s.windowOver (srcBase w + i) = false → x.ref = x.line →
        x.winCount = (s.stormOf (srcBase w + i)).2 → (t.srcAt (srcBase w + i)).storm = true ∧ (t.srcAt (srcBase w + i)).en = false)

/-- Spec/02 R47: occurrence STORM_LIMIT + 1 within one window sets STORM, clears EN, withdraws an offered instance, keeps the occurrence in PEND and
reports STORM_MASK for the source (cause 0x13, severity 1); a window that has lasted STORM_WINDOW µs closes, and its count restarts. -/
def Obligations.StormGuardTripsPastItsLimit : Prop :=
  (∀ (n : Fin 8192) (s : State), s.running = true →
    let x := s.srcAt n.val
    x.trigger ≠ 0 → x.pend = false → x.stormLimit ≠ 0 → x.winOpen = true → s.windowOver n.val = false →
    x.winCount = x.stormLimit.toNat → s.cairn.queue.length < 64 →
    (∀ q ∈ s.cairn.queue, ¬(q.cause = 0x13 ∧ q.kind = 8 ∧ q.unit = BitVec.ofNat 16 n.val)) →
    ∃ t, exec (.setpend (.shared n)) s = .next t ∧
      t = { s with wired := { s.wired with src := t.wired.src }, cairn := { s.cairn with queue := t.cairn.queue } } ∧
      (∀ k, k ≠ n.val → t.srcAt k = s.srcAt k) ∧
      (t.srcAt n.val).storm = true ∧ (t.srcAt n.val).en = false ∧ (t.srcAt n.val).pend = true ∧ (t.srcAt n.val).offered = false ∧
      (t.srcAt n.val).wdraw = (x.wdraw || x.offered) ∧
      ∃ r, t.cairn.queue = s.cairn.queue ++ [r] ∧ r.cause = 0x13 ∧ r.kind = 8 ∧ r.unit = BitVec.ofNat 16 n.val ∧ r.sev = 1 ∧
        r.first = s.clk.time.setWidth 48 ∧ r.count = 1) ∧
  (∀ (src : Src) (s : State), s.running = true → (s.srcAt (srcNum src)).winOpen = true →
    (s.srcAt (srcNum src)).winStart.toNat + windowTicks (s.stormOf (srcNum src)).1 ≤ s.clk.time.toNat →
    ∃ t, exec (.stormWindowExpiry src) s = .next t ∧ onlySource s t (srcNum src) ∧
      t.srcAt (srcNum src) = { s.srcAt (srcNum src) with winOpen := false, winCount := 0 })

/-- Spec/02 R34, R39, R41; spec/07 R179: among the sources bound for one ridge a waiting withdraw leaves before any other record, each part shared sources
first and the higher number first; an SGI's withdraw waits for its record on input 8, and merge records a source owes leave before its next new one. A
withdraw clears its flag, a new record sets OFFERED, and any is the last record then waiting at couloir input 11. With nothing ready nothing happens.
The collector's table is in its canonical form. -/
def Obligations.CollectorEmitsInOrder : Prop :=
  ∀ (pos : Fin 4) (s : State), s.running = true → s.wired.live = true → Tbl.wf Source.reset s.wired.src = true →
    let bound (m : Nat) : Prop := s.posOf (srcHandle m) = pos.val
    let out (m : Nat) : Prop := (s.srcAt m).wdraw = true ∧ s.onInput8 m = false
    let next (m : Nat) : Prop := (s.srcAt m).mergeOwed ≠ 0 ∨ (s.srcAt m).ready = true
    (∀ n, bound n → out n → (∀ m, m ≠ n → bound m → out m → emitsBefore n m) →
      ∃ t r, exec (.collectorEmit pos) s = .next t ∧ onlySourceAndInput s t n 11 ∧
        t.srcAt n = { s.srcAt n with wdraw := false, byWrite := false } ∧
        t.inqAt 11 = s.inqAt 11 ++ [r] ∧ r.kind = .withdraw ∧ r.origin = .handle (srcHandle n) ∧ r.srcTime = s.clk.time.setWidth 48 ∧
        r.written = (s.srcAt n).byWrite) ∧
    (∀ n, bound n → next n → (∀ m, bound m → ¬out m) → (∀ m, m ≠ n → bound m → next m → emitsBefore n m) →
      ((s.srcAt n).mergeOwed ≠ 0 →
        ∃ t r, exec (.collectorEmit pos) s = .next t ∧ onlySourceAndInput s t n 11 ∧
          t.srcAt n = { s.srcAt n with mergeOwed := (s.srcAt n).mergeOwed - 1 } ∧
          t.inqAt 11 = s.inqAt 11 ++ [r] ∧ r.kind = .merge ∧ r.origin = .handle (srcHandle n) ∧ r.payload = 1) ∧
      ((s.srcAt n).mergeOwed = 0 →
        ∃ t r, exec (.collectorEmit pos) s = .next t ∧ onlySourceAndInput s t n 11 ∧ t.srcAt n = { s.srcAt n with offered := true } ∧
          t.inqAt 11 = s.inqAt 11 ++ [r] ∧ r.kind = (if (s.srcAt n).isEdge n then .event else .levelAssert) ∧
          r.origin = .handle (srcHandle n) ∧ r.payload = (s.srcAt n).payloadOf n)) ∧
    ((∀ m, bound m → ¬out m ∧ ¬next m) → exec (.collectorEmit pos) s = .next s)

/-- Spec/02 R35, R36, R37; spec/13 R349: an 8-byte write of word 0 of a shared source, with no earlier write waiting, gives it the new fields; a
source that becomes an edge source keeps PEND and takes the line's level as its edge reference. Where the write changes the route and the
position has a logged record that has not landed, the write waits and the source is as before. -/
def Obligations.SourceConfigWriteAppliesOrWaits : Prop :=
  ∀ (n : Fin 8192) (data : Word) (s : State), s.running = true → s.wired.waiting = [] →
    let x := s.srcAt n.val
    let y := x.setWord0 data
    (s.cfgMustWait (.word0 n) .full data = false → s.liveHandle (srcHandle n.val) = false → x.offered = false →
      field data 56 2 = x.trigger → bitAt data 8 = x.polarity →
      ∃ t, exec (.sourceConfigWrite (.word0 n) .full data) s = .next t ∧ t = { s with wired := t.wired, pair := t.pair } ∧
        t.srcAt n.val = y ∧ (∀ k, k ≠ n.val → t.srcAt k = s.srcAt k) ∧ ∀ k, (t.pairAt k).stack = (s.pairAt k).stack) ∧
    (s.cfgMustWait (.word0 n) .full data = false → s.liveHandle (srcHandle n.val) = false → x.offered = false → s.wired.live = true →
      x.trigger = 0 → field data 56 2 ≠ 0 →
      ∃ t, exec (.sourceConfigWrite (.word0 n) .full data) s = .next t ∧ t = { s with wired := t.wired, pair := t.pair } ∧
        t.srcAt n.val = { y with ref := x.line } ∧ ∀ k, k ≠ n.val → t.srcAt k = s.srcAt k) ∧
    (s.posBusy (s.posOf (srcHandle n.val)) = true → s.directRoute n.val ≠ (s.updSrc n.val (Source.setWord0 data)).directRoute n.val →
      ∃ t, exec (.sourceConfigWrite (.word0 n) .full data) s = .next t ∧ t = { s with wired := t.wired, pair := t.pair } ∧
        t.wired = { s.wired with waiting := [{ reg := .word0 n, acc := .full, data := data, wid := none }] })

/-- Spec/02 R53, R54, spec/03 R83: an SGI_SEND of MODE 0b00 makes one occurrence of the named SGI of the named target. An SGI that may be emitted at
once forms a class 1 event on couloir input 8 whose PAYLOAD is the sender, and the write's response waits for its grant; one that may not keeps the
occurrence and the sender in PEND, and the response is given. -/
def Obligations.SgiSendMakesOneOccurrence : Prop :=
  ∀ (t0 : Fin 512) (ring : Fin 4) (data : Word) (tag : BitVec 8) (s : State), s.running = true → s.cp.wbuf = [] →
    field data 6 2 = 0 →
    let n := 8192 + 64 * (field data 16 9).toNat + (field data 0 4).toNat
    let x := s.srcAt n
    let sender : BitVec 16 := 0#5 ++ BitVec.ofNat 2 ring.val ++ BitVec.ofNat 9 t0.val
    x.pend = false →
    (x.eff = true → x.act = false → x.offered = false → x.wdraw = false →
      ∃ t r, exec (.sgiSend t0 ring .full data tag) s = .next t ∧
        t = { s with wired := { s.wired with src := t.wired.src }, inq := t.inq, cp := t.cp, door := { s.door with arrival := s.door.arrival + 1 } } ∧
        t.srcAt n = { x with pend := true, weight := 1, sender := sender, offered := true } ∧ (∀ k, k ≠ n → t.srcAt k = s.srcAt k) ∧
        t.inqAt 8 = s.inqAt 8 ++ [r] ∧ (∀ k, k ≠ 8 → t.inqAt k = s.inqAt k) ∧ r.origin = .handle (srcHandle n) ∧ r.kind = .event ∧ r.payload = sender ∧
        r.wid = some s.cp.nextWid ∧ t.cp.responses = s.cp.responses ∧ t.cp.wbuf.map (fun o => (o.wid, o.left)) = [(s.cp.nextWid, 1)]) ∧
    (x.eff = false →
      ∃ t, exec (.sgiSend t0 ring .full data tag) s = .next t ∧
        t = { s with wired := { s.wired with src := t.wired.src }, cp := t.cp } ∧
        t.srcAt n = { x with pend := true, weight := 1, sender := sender } ∧ (∀ k, k ≠ n → t.srcAt k = s.srcAt k) ∧
        t.cp.responses = { rescue := false, tag := tag, err := 0, data := 0 } :: s.cp.responses ∧ t.cp.wbuf = [])

/-- Spec/03 R60, R62, R69, R70, R71: a live port counts every beat, then makes its checks in order; the first that fails names the code. A beat without
a credit is an overrun and costs none; a parity error, a reserved requester and a bad KIND refuse the record, and its credit is owed
again (W + 1), one owed credit returning with the cycle; a record of KIND 1 to 4 of a requester whose entry is cached, valid, open to this port and covers the event enters the buffer; a gap
in SEQ is counted and the record still enters. -/
def Obligations.PassRecordMeetsItsChecksInOrder : Prop :=
  ∀ (n : Fin 8) (d : BitVec 128) (par : BitVec 16) (s : State), s.running = true → (s.passAt n.val).live = true →
    let p := s.passAt n.val
    let q : BitVec 16 := field d 112 16
    let back : Nat := if p.owed = 0 then 0 else 1
    (p.credit = 0 →
      ∃ t, exec (.passRecord n d par) s = .next t ∧ onlyPort s t n.val ∧ (t.passAt n.val).accepted = p.accepted + 1 ∧
        (t.passAt n.val).refused = p.refused + 1 ∧ (t.passAt n.val).lastCode = 2 ∧ (t.passAt n.val).lastErr = d ∧ (t.passAt n.val).credit = back ∧
        (t.passAt n.val).owed = p.owed - back ∧ (t.passAt n.val).buf = p.buf ∧ (t.passAt n.val).seqRef = p.seqRef) ∧
    (p.credit ≠ 0 → parityOk d par 16 = false →
      ∃ t, exec (.passRecord n d par) s = .next t ∧ onlyPort s t n.val ∧ (t.passAt n.val).refused = p.refused + 1 ∧
        (t.passAt n.val).lastCode = 1 ∧ (t.passAt n.val).lastErr = d ∧ (t.passAt n.val).credit = p.credit - 1 + back ∧
        (t.passAt n.val).owed = p.owed - back + 1 ∧ (t.passAt n.val).buf = p.buf ∧
        (t.passAt n.val).seqRef = p.seqRef) ∧
    (p.credit ≠ 0 → parityOk d par 16 = true → field q 4 12 = 0xFF0 →
      ∃ t, exec (.passRecord n d par) s = .next t ∧ onlyPort s t n.val ∧ (t.passAt n.val).lastCode = 3 ∧ (t.passAt n.val).credit = p.credit - 1 + back ∧
        (t.passAt n.val).owed = p.owed - back + 1 ∧
        (t.passAt n.val).buf = p.buf) ∧
    (p.credit ≠ 0 → parityOk d par 16 = true → field q 4 12 ≠ 0xFF0 → field d 108 4 ∉ ([1, 2, 3, 4, 8] : List (BitVec 4)) →
      ∃ t, exec (.passRecord n d par) s = .next t ∧ onlyPort s t n.val ∧ (t.passAt n.val).lastCode = 4 ∧ (t.passAt n.val).credit = p.credit - 1 + back ∧
        (t.passAt n.val).owed = p.owed - back + 1 ∧
        (t.passAt n.val).buf = p.buf) ∧
    (∀ l k, p.credit ≠ 0 → parityOk d par 16 = true → field q 4 12 ≠ 0xFF0 → passKind (field d 108 4) = some k → s.devLine q = some l → l.entry.valid = true →
      bitAt l.entry.ingress n.val = true → (field d 80 20).toNat < 2 ^ l.entry.eventBits.toNat →
      ∃ t r, exec (.passRecord n d par) s = .next t ∧ onlyPort s t n.val ∧ (t.passAt n.val).accepted = p.accepted + 1 ∧
        (t.passAt n.val).refused = p.refused ∧ (t.passAt n.val).arrival = p.arrival + 1 ∧ (t.passAt n.val).credit = p.credit - 1 + back ∧
        (t.passAt n.val).owed = p.owed - back ∧ (t.passAt n.val).buf = p.buf ++ [.record r] ∧ r.origin = .handle { cls := 2, req := q, evt := field d 80 20 } ∧ r.kind = k ∧
        r.arrival = p.arrival ∧
        (bitAt d 107 = true → (t.passAt n.val).seqRef = some (field d 8 8)) ∧
        ((∃ g, p.seqRef = some g ∧ bitAt d 107 = true ∧ field d 8 8 ≠ g + 1) → (t.passAt n.val).seqGaps = satInc p.seqGaps) ∧
        (p.seqRef = none ∨ bitAt d 107 = false → (t.passAt n.val).seqGaps = p.seqGaps))

/-- Spec/03 R60, R63, R64: PASSn_RESET_N low drops LIVE and leaves the buffer; its rise clears the sequence reference and, once the block serves,
raises LIVE owing a credit for each free entry of the 32, none returned yet. PCLK_OK of the port's frame reads 0 once its PCLK has not toggled for 100 TCLK
ticks. -/
def Obligations.PassResetDropsAndRestoresLive : Prop :=
  ∀ (n : Fin 8) (clock : Bool) (s : State),
    let p := s.passAt n.val
    let stands := if clock then none else p.pclk.or (some (s.clk.ticks + 100))
    (∃ t, exec (.passReset n { resetN := false, clock := clock }) s = .next t ∧ t = { s with pass := t.pass } ∧ (∀ k, k ≠ n.val → t.passAt k = s.passAt k) ∧
      t.passAt n.val = { p with resetN := false, live := false, credit := 0, pclk := stands }) ∧
    (p.resetN = false → p.live = false → s.running = true → s.boot.campReady = true → s.pwr.state = 0 →
      ∃ t, exec (.passReset n { resetN := true, clock := clock }) s = .next t ∧ t = { s with pass := t.pass } ∧ (∀ k, k ≠ n.val → t.passAt k = s.passAt k) ∧
        t.passAt n.val = { p with resetN := true, live := true, seqRef := none, credit := 0, owed := 32 - p.buf.length, pclk := stands }) ∧
    (p.live = false → ∀ data par, exec (.passRecord n data par) s = .next s) ∧
    (∀ t, p.resetN = false → exec (.passReset n { resetN := true, clock := clock }) s = .next t → (t.passAt n.val).seqRef = none) ∧
    (∀ t, exec (.passReset n { resetN := false, clock := clock }) s = .next t → (t.passAt n.val).buf = p.buf ∧ ∀ q i, t.couloirHead q i = s.couloirHead q i) ∧
    (∀ (t u : State) (resetN : Bool), exec (.passReset n { resetN := resetN, clock := clock }) s = .next t → u.pass = t.pass → p.pclk = none →
      (u.passWord n.val 0x000).getLsbD 3 = (u.linksAlive && (clock || decide (u.clk.ticks < s.clk.ticks + 100))))

/-- Spec/03 R60, R75, R76, R77: a SYNC whose earlier records are all settled completes with SYNC_DONE and its TAG, without error before its 20 µs (2,000
TCLK ticks) are over: none of them is still buffered or on its way, and with MARK = 1 its marker has come and so has every doorbell record before
that marker. One whose 20 µs are over completes with SYNC_ERR and the code SYNC_TIMEOUT (0xC), whatever waits before it. Either frees its
entry, whose credit is then owed. -/
def Obligations.SyncCompletesOrTimesOut : Prop :=
  ∀ (n : Fin 8) (s : State) (tag q : BitVec 16) (mark : Bool) (acc : Nat) (marker : Option (BitVec 40)) (ahead rest : List PassItem),
    s.running = true → (s.passAt n.val).buf = ahead ++ .sync tag mark q acc marker :: rest → (∀ i ∈ ahead, ∃ r, i = .record r) →
    let p := s.passAt n.val
    (ahead = [] → (mark = true → ∃ a, marker = some a ∧ s.inFlight (fun r => r.fromDoorbell && arrHigher a r.arrival) = false ∧
        ∀ r ∈ s.inqAt 8, r.fromDoorbell = true → arrHigher a r.arrival = false) →
      s.inFlight (fun r => r.input == n.val) = false → s.clk.ticks < acc + 2000 →
      ∃ t, exec (.syncComplete n) s = .next t ∧ t = { s with pass := t.pass } ∧ (∀ k, k ≠ n.val → t.passAt k = s.passAt k) ∧
        t.passAt n.val = { p with buf := ahead ++ rest, syncDone := (tag, false) :: p.syncDone, owed := p.owed + 1 }) ∧
    (acc + 2000 ≤ s.clk.ticks →
      ∃ t, exec (.syncTimeout n) s = .next t ∧ onlyPort s t n.val ∧
        t.passAt n.val =
          { p with buf := ahead ++ rest, syncDone := (tag, true) :: p.syncDone, owed := p.owed + 1, syncTimeouts := satInc p.syncTimeouts,
                   err := setBit p.err 0xC true })

/-- Spec/03 R77, R81 to R83: an 8-byte DOORBELL write of a mapped requester forms an EVENT_PAYLOAD record on couloir input 8 and its response waits for the
grant; one whose MBZ is not 0 is refused with DOORBELL_FORMAT (5) and answered at once. A DB_MARK write that meets no waiting SYNC is stored as the newest of
at most 16 markers; a 17th evicts the oldest with MARKER_DROPPED (0xD). -/
def Obligations.DoorbellFormsOneRecord : Prop :=
  ∀ (master : BitVec 16) (data : Word) (tag : BitVec 8) (s : State), s.running = true → s.cp.wbuf = [] →
    (∀ l, field master 4 12 ≠ 0xFF0 → field data 20 12 = 0 → s.devLine master = some l → l.entry.valid = true → bitAt l.entry.ingress 8 = true →
      (field data 0 20).toNat < 2 ^ l.entry.eventBits.toNat →
      ∃ t r, exec (.doorbell master .full data tag) s = .next t ∧
        t = { s with door := { s.door with accepted := s.door.accepted + 1, arrival := s.door.arrival + 1 }, inq := t.inq, cp := t.cp,
                     xl := { s.xl with devCache := t.xl.devCache } } ∧
        t.inqAt 8 = s.inqAt 8 ++ [r] ∧ (∀ k, k ≠ 8 → t.inqAt k = s.inqAt k) ∧ r.kind = .eventPayload ∧ r.payload = field data 32 16 ∧
        r.origin = .handle { cls := 2, req := master, evt := field data 0 20 } ∧ r.wid = some s.cp.nextWid ∧
        t.cp.responses = s.cp.responses ∧ t.cp.wbuf.map (fun o => (o.wid, o.left)) = [(s.cp.nextWid, 1)]) ∧
    (field master 4 12 ≠ 0xFF0 → field data 20 12 ≠ 0 →
      ∃ t, exec (.doorbell master .full data tag) s = .next t ∧ t = { s with door := t.door, cairn := t.cairn, cp := t.cp } ∧
        t.door.accepted = s.door.accepted + 1 ∧ t.door.refused = s.door.refused + 1 ∧ t.door.lastCode = 5 ∧ t.door.markers = s.door.markers ∧
        t.cp.responses = { rescue := false, tag := tag, err := 0, data := 0 } :: s.cp.responses ∧ t.cp.wbuf = []) ∧
    ((∀ n, n < 8 → ∀ a, PassItem.sync (field data 0 16) true master a none ∉ (s.passAt n).buf) →
      (s.door.markers.length < 16 →
        ∃ t, exec (.dbMark master data) s = .next t ∧
          t = { s with door := { s.door with
                  markers := s.door.markers ++ [{ master := master, tag := field data 0 16, arrival := s.door.arrival }] } }) ∧
      (s.door.markers.length = 16 →
        ∃ t, exec (.dbMark master data) s = .next t ∧ t = { s with door := t.door } ∧ bitAt t.door.err 0xD = true ∧
          t.door.markers = s.door.markers.drop 1 ++ [{ master := master, tag := field data 0 16, arrival := s.door.arrival }]))

/-- Spec/12 R325, R326, R330: of the inputs that present a record to a couloir the one of the highest effective priority is granted, then the higher input:
its record leaves its ingress (a Pass port's entry is owed its credit again, spec/03 R60) and is translated, its grant is counted and its losses
restart; each other contender loses and waits. Spec/01 R28: while inputs 0 to 8 are withheld, inputs 9 to 11 compete alone.
Spec/04 R92, R93, R97, R103, spec/13 R347: what the translation then does. A class 0 or 1 record with a physical route takes the position's next
serial, has a STATE 1 entry written and is queued for its target's ledge; with PRIORITY 0 it is dropped and counted in DISABLED_DROPS, with no
serial and no entry; a class 2 record whose requester misses the device-table cache starts a walk whose device entry is read. -/
def Obligations.CouloirGrantTranslatesByClass : Prop :=
  ∀ (p : Fin 4) (i : Nat) (r : Rec) (s : State), XlatShape s.xl → s.ridgeOf p.val < 5 → s.couloirOpen p.val = true → s.noRoom p.val r = false →
    let rd := s.ridgeOf p.val
    let x := s.ridgeAt rd
    let q := s.posAt p.val
    let held : Prop := q.withhold = true ∧ q.walkFull = true
    let rival (j : Nat) (y : Rec) : Prop := j ≠ i ∧ s.contends p.val j y ∧ (held → 9 ≤ j ∧ s.noRoom p.val y = false)
    s.contends p.val i r → (held → 9 ≤ i) → (∀ j y, rival j y → s.couloirBeats p.val i j) →
    (∃ (t u : State), exec (.couloirGrant p) s = .next t ∧ t = u.translate p.val r false ∧
      u = { s with pass := u.pass, inq := u.inq, arb := u.arb, cp := u.cp, xl := { s.xl with pos := u.xl.pos, ridge := u.xl.ridge } } ∧
      u.posAt p.val = (if q.withhold = true ∧ q.walkFull = false then { q with withhold := false } else q) ∧ (∀ k, k ≠ p.val → u.posAt k = s.posAt k) ∧
      (u.arbAt (12 * rd + i)).grants = (s.arbAt (12 * rd + i)).grants + 1 ∧ (u.arbAt (12 * rd + i)).losses = 0 ∧
      (∀ j y, rival j y → (u.arbAt (12 * rd + j)).losses = s.couloirLosses p.val j + 1 ∧ (u.arbAt (12 * rd + j)).wait = (s.arbAt (12 * rd + j)).wait + 1) ∧
      (i < 8 → (u.passAt i).buf = s.dropRecord p.val (s.passAt i).buf ∧ (u.passAt i).owed = (s.passAt i).owed + 1 ∧ u.inq = s.inq) ∧
      (8 ≤ i → u.inqAt (queueOf r) = dropFirst (fun y => s.recPos y == p.val) (s.inqAt (queueOf r)) ∧ u.pass = s.pass ∧
        ∀ k, k ≠ queueOf r → u.inqAt k = s.inqAt k) ∧
      (r.wid = none → u.cp = s.cp)) ∧
    ∀ h, q.withhold = false → i = 8 ∨ i = 11 → r.input = i → r.origin = .handle h → r.wid = none → q.blocks h = false → s.overflows h.cls = false →
      let route := s.directRoute (handleSrc h)
      let l := ledgeOf (route.target.setWidth 9)
      let taken (t : State) : Prop :=
        t.inqAt i = dropFirst (fun y => s.recPos y == p.val) (s.inqAt i) ∧ (∀ k, k ≠ i → t.inqAt k = s.inqAt k) ∧ onlyPosRidge s t p.val rd
      (h.cls = 0 ∨ h.cls = 1 → route.prio ≠ 0 → route.virt = false → (Tbl.get [] q.egress l).length < 8 →
        ∃ t, exec (.couloirGrant p) s = .next t ∧ taken t ∧
          t = { s with inq := t.inq, arb := t.arb, log := t.log, xl := { s.xl with pos := t.xl.pos, ridge := t.xl.ridge } } ∧
          t.logAt (s.serialOf p.val).toNat = r.entry ∧ (∀ k, k ≠ (s.serialOf p.val).toNat → t.logAt k = s.logAt k) ∧
          t.ridgeAt rd = { x with direct := x.direct + 1, forwarded := x.forwarded + 1 } ∧
          t.posAt p.val =
            { q with
              serial := q.serial + 1,
              egress := Tbl.upd [] q.egress l (fun y => y ++ [.record ⟨r, s.serialOf p.val, route, route.target.setWidth 9, route.ring, none, none⟩]) }) ∧
      (h.cls = 0 ∨ h.cls = 1 → route.prio = 0 → r.kind ≠ .withdraw →
        ∃ t, exec (.couloirGrant p) s = .next t ∧ taken t ∧
          t = { s with inq := t.inq, arb := t.arb, xl := { s.xl with pos := t.xl.pos, ridge := t.xl.ridge } } ∧
          t.ridgeAt rd = { x with disabledDrops := satInc x.disabledDrops } ∧ t.posAt p.val = q) ∧
      (h.cls = 2 → s.devLine h.req = none → (∀ w ∈ q.walks, w.handle ≠ h) →
        ∃ t, exec (.couloirGrant p) s = .next t ∧ taken t ∧
          t = { s with inq := t.inq, arb := t.arb, rat := t.rat, mem := t.mem, xl := { s.xl with pos := t.xl.pos, ridge := t.xl.ridge } } ∧
          t.ridgeAt rd = { x with deviceWalks := x.deviceWalks + 1 } ∧
          t.posAt p.val = { q with walks := q.walks ++ [{ handle := h, queue := [r], readDev := true, gotDev := false, started := s.clk.ticks }] } ∧
          (s.lineHeld (s.devLineAddr h.req) = true → t.mem = { s.mem with done := s.mem.done ++ [(.walkDev (BitVec.ofNat 2 p.val) h, none)] }) ∧
          (s.lineHeld (s.devLineAddr h.req) = false →
            ∃ m, t.asks m ∧ m.owner = .walkDev (BitVec.ofNat 2 p.val) h ∧ m.write = false ∧ m.addr = s.devLineAddr h.req))

/-- Spec/04 R92, R103, R104: when the event entry of a walk has come, its one queued record is handled under R92 (here: mapped, physical, so it takes a
serial, an entry and a place toward its ledge) and the walk leaves; when the walk's device read has failed twice, MEM_READ_ERR is reported for
the ridge's walker, the handle is stored, the queued records are discarded and counted in WALK_FAILED, and Tamri's rewrite is due. -/
def Obligations.WalkCompleteUsesItsReads : Prop :=
  ∀ (p : Fin 4) (req : BitVec 16) (evt : BitVec 20) (w : Walk) (s : State), XlatShape s.xl → s.ridgeOf p.val < 5 → s.running = true →
    (s.posAt p.val).unserved = none → (s.posAt p.val).stopped = false →
    let h : Handle := { cls := 2, req := req, evt := evt }
    (s.posAt p.val).walks.find? (fun y => y.handle == h) = some w →
    let rd := s.ridgeOf p.val
    let x := s.ridgeAt rd
    let q := s.posAt p.val
    let d := s.devEntry req
    let e := s.evtEntry req evt
    let l := ledgeOf (e.route.target.setWidth 9)
    (∀ r rest, w.readDev = false → w.queue = [r] → s.mem.done = (.walkEvt (BitVec.ofNat 2 p.val) h, none) :: rest → q.blocks h = false →
      recCheck r h d = none → d.valid = true → d.pinned = false → evt.toNat < 2 ^ d.eventBits.toNat → e.valid = true → e.gen = d.devGen → r.kind = .event ∨ r.kind = .eventPayload → e.route.level = false → e.route.prio ≠ 0 →
      e.route.virt = false → (Tbl.get [] q.egress l).length < 8 → r.origin = .handle h → s.overflows 2 = false →
      ∃ v t, exec (.walkComplete p req evt) s = .next v ∧ onlyLevels t v ∧ onlyPosRidge s t p.val rd ∧
        t = { s with log := t.log, rat := t.rat, mem := { s.mem with done := rest },
                     xl := { s.xl with pos := t.xl.pos, ridge := t.xl.ridge, cache := t.xl.cache, devCache := t.xl.devCache, evictions := t.xl.evictions } } ∧
        t.cacheHit req evt d.devGen = some { e with pinned := false } ∧
        t.logAt (s.serialOf p.val).toNat = r.entry ∧ (∀ k, k ≠ (s.serialOf p.val).toNat → t.logAt k = s.logAt k) ∧
        (t.ridgeAt rd).forwarded = x.forwarded + 1 ∧
        t.posAt p.val =
          { q with
            serial := q.serial + 1, walks := dropFirst (fun y => y.handle == h) q.walks, withhold := false,
            egress := Tbl.upd [] q.egress l (fun y => y ++ [.record ⟨r, s.serialOf p.val, e.route, e.route.target.setWidth 9, e.route.ring, none, none⟩]) }) ∧
    (∀ k rest, w.readDev = true → s.mem.done = (.walkDev (BitVec.ofNat 2 p.val) h, some k) :: rest →
      canReport s (.ridge p.val) 0x09 14 (BitVec.ofNat 16 (16 + rd)) →
      ∃ v t d, exec (.walkComplete p req evt) s = .next v ∧ onlyLevels t v ∧ onlyPosRidge s t p.val rd ∧
        t = { s with rat := t.rat, mem := { s.mem with done := rest }, cairn := t.cairn,
                     xl := { s.xl with pos := t.xl.pos, ridge := t.xl.ridge, rewrites := s.xl.rewrites ++ [.device req] } } ∧
        t.cairn.queue = s.cairn.queue ++ [reportOf s 0x09 14 (BitVec.ofNat 16 (16 + rd)) 2 d] ∧
        (t.ridgeAt rd).walkFail = true ∧ (t.ridgeAt rd).walkFailed = satAdd x.walkFailed w.queue.length ∧ (t.ridgeAt rd).lastFailH = h.val ∧
        (t.ridgeAt rd).lastFailKind = k ∧ (t.ridgeAt rd).forwarded = x.forwarded ∧
        t.posAt p.val = { q with walks := dropFirst (fun y => y.handle == h) q.walks, withhold := false })

/-- Spec/05 R140, R141: an egress queue's oldest item, with a credit at its serving belay and no retired copy, lands where both copies are good and
equal, or where one is good, with a corrected PLAIN_PARITY report for the other; where both are bad, or good and unequal, it stays in its queue and
the report is uncorrectable. -/
def Obligations.PlainTransferComparesCopies : Prop :=
  ∀ (p : Fin 4) (l : Fin 16) (i : PItem) (rest : List PItem) (a b eq : Bool) (s : State), XlatShape s.xl → s.running = true →
    (s.posAt p.val).unserved = none → Tbl.get [] (s.posAt p.val).egress l.val = i :: rest → (s.posAt p.val).hold = [] →
    (s.posAt p.val).parked = [] → (s.posAt p.val).stuck = [] → s.landingRoom p.val i = true → (s.servingBelay i.target.toNat).isSome = true →
    (s.plainAt (16 * s.ridgeOf p.val + l.val)).retired = none →
    let path := 16 * s.ridgeOf p.val + l.val
    let unit := 16 * p.val + l.val
    let bel := i.target.toNat / 2
    let landed (t : State) : Prop :=
      t.posAt p.val = { s.posAt p.val with egress := Tbl.set [] (s.posAt p.val).egress l.val rest } ∧ (∀ k, k ≠ p.val → t.posAt k = s.posAt k) ∧
      t.belAt bel = { s.belAt bel with landing := (s.belAt bel).landing ++ [{ pos := BitVec.ofNat 2 p.val, item := i }] } ∧
      ∀ k, k ≠ bel → t.belAt k = s.belAt k
    (a = true → b = true → eq = true →
      ∃ t, exec (.plainTransfer p l a b eq) s = .next t ∧ landed t ∧ t = { s with xl := { s.xl with pos := t.xl.pos }, bel := t.bel }) ∧
    (a ≠ b → canReport s (.other (0x30000 + unit)) 0x07 3 (BitVec.ofNat 16 unit) →
      ∃ t, exec (.plainTransfer p l a b eq) s = .next t ∧ landed t ∧
        t = { s with xl := { s.xl with pos := t.xl.pos }, bel := t.bel, plain := t.plain, cairn := { s.cairn with queue := t.cairn.queue } } ∧
        (∀ k, k ≠ path → t.plainAt k = s.plainAt k) ∧
        t.cairn.queue = s.cairn.queue ++ [reportOf s 0x07 3 (BitVec.ofNat 16 unit) 0 (if a then 1 else 0)]) ∧
    (a = b → (a = false ∨ eq = false) → (s.plainAt path).lastUnc = none → canReport s (.other (0x30000 + unit)) 0x07 3 (BitVec.ofNat 16 unit) →
      ∃ t, exec (.plainTransfer p l a b eq) s = .next t ∧ t = { s with plain := t.plain, cairn := t.cairn } ∧
        t.plainAt path = { s.plainAt path with lastUnc := some s.clk.ticks } ∧ (∀ k, k ≠ path → t.plainAt k = s.plainAt k) ∧
        t.cairn.queue = s.cairn.queue ++ [reportOf s 0x07 3 (BitVec.ofNat 16 unit) 2 0x102])

/-- Spec/12 R319, R322 to R324, R334: a good read response counts in READS and gives its data to the owner; a first failure is issued again and counts
in REISSUES; an acknowledgement ends its write; a response that names nothing outstanding is discarded and counts in LATE_RESPONSES. A request
unanswered for 20 µs times out, its identifier waits for the late response, and it too is issued again. -/
def Obligations.MemoryAnswersAndTimeouts : Prop :=
  ∀ (id : BitVec 8) (err : BitVec 2) (par : Bool) (ns : BitVec 32) (r : MemReq) (s : State), s.running = true → s.mem.waits = [] →
    s.mem.queued = [] → s.rat.contract = none →
    (∀ ack p h, r.owner = .walkEvt p h → r.write = false → ack = false → s.mem.out.find? (fun q => q.id == id && q.write == ack) = some r → err = 0 →
      par = true →
      ∃ t u, exec (.memResponse id ack err par ns) s = .next t ∧ onlyLevels u t ∧
        u = { s with rat := u.rat, mem := { s.mem with out := dropFirst (fun q => q == r) s.mem.out, done := s.mem.done ++ [(r.owner, none)] } } ∧
        u.rat = { s.rat with reads := s.rat.reads + 1, maxLatency := u.rat.maxLatency, windowReads := s.rat.windowReads + 1 }) ∧
    (∀ ack, r.write = true → ack = true → s.mem.out.find? (fun q => q.id == id && q.write == ack) = some r → err = 0 →
      ∃ t u, exec (.memResponse id ack err par ns) s = .next t ∧ onlyLevels u t ∧
        u = { s with mem := { s.mem with out := dropFirst (fun q => q == r) s.mem.out } }) ∧
    (∀ ack, s.mem.out.find? (fun q => q.id == id && q.write == ack) = none →
      ∃ t u, exec (.memResponse id ack err par ns) s = .next t ∧ onlyLevels u t ∧
        u = { s with rat := { s.rat with late := satInc s.rat.late }, mem := { s.mem with late := s.mem.late.filter (fun x => x != id) } }) ∧
    (∀ ack, r.owner = .scrub → r.write = ack → r.again = false → s.mem.out.find? (fun q => q.id == id && q.write == ack) = some r → err ≠ 0 →
      ∃ t u, exec (.memResponse id ack err par ns) s = .next t ∧ onlyLevels u t ∧ u = { s with rat := u.rat, mem := u.mem, arb := u.arb } ∧
        u.rat.reissues = satInc s.rat.reissues ∧
        ∃ m, u.asks m ∧ m.owner = r.owner ∧ m.addr = r.addr ∧ m.write = r.write ∧ m.again = true) ∧
    (r.owner = .scrub → r.again = false → r.write = false → s.mem.out.find? (fun q => q.id == id && decide (q.since + 2000 ≤ s.clk.ticks)) = some r →
      ∃ t u, exec (.memTimeout id) s = .next t ∧ onlyLevels u t ∧ u = { s with rat := u.rat, mem := u.mem, arb := u.arb } ∧
        u.rat.timeouts = satInc s.rat.timeouts ∧ u.rat.timeoutSeen = true ∧ u.rat.reissues = satInc s.rat.reissues ∧ r.id ∈ u.mem.late ∧
        ∃ m, u.asks m ∧ m.owner = r.owner ∧ m.addr = r.addr ∧ m.write = r.write ∧ m.again = true)

/-- Spec/12 R305, R309, R318, R320: a round boundary adds one to the round, brings a new contract into force with a fresh window, and lets every
activity's counts start at 0 with no mask once its quota is next looked at. With no report held, no answer waiting and no frame watched nothing
else moves. -/
def Obligations.RoundBoundaryRestartsTheCounts : Prop :=
  ∀ (s : State), s.running = true → s.cairn.held = [] → s.rat.waiters = [] → (∀ f ∈ s.frame, f.2.limit = 0) →
    (∀ a sc u, (s.quotaAt a sc u).round ≤ s.rat.round) →
    ∃ t, exec .rationRound s = .next t ∧
      t = { s with rat := t.rat, pwr := { s.pwr with maskedSave := s.pwr.maskedSave && (s.pwr.warn || s.pwr.save != .none), lwMirror := t.pwr.lwMirror } } ∧
      t.rat.round = s.rat.round + 1 ∧ t.rat.contract = s.rat.nextContract.or s.rat.contract ∧ t.rat.nextContract = none ∧
      (s.rat.nextContract.isSome = true → t.rat.windowReads = 0 ∧ t.rat.windowTails = 0 ∧ t.rat.windowRounds = 0) ∧
      (s.rat.nextContract = none → t.rat.windowRounds = s.rat.windowRounds + 1 ∧ t.rat.windowReads = s.rat.windowReads) ∧
      ∀ a sc u, ((t.settleQuota a sc u).quotaAt a sc u).used = 0 ∧ ((t.settleQuota a sc u).quotaAt a sc u).masked = false ∧
        ((t.settleQuota a sc u).quotaAt a sc u).bytesIn = 0

/-- Spec/12 R319, R320, R327, R330: a breach window of 1,024 rounds ends with its counts at 0, IN_BREACH staying only where it saw a breach; a
requester whose unbroken wait passed STARVE_LIMIT is marked STARVED and reported once; with KEEP_WARM a read of the table region goes out every
5,000 ticks. -/
def Obligations.WindowStarvationAndWarmth : Prop :=
  (∀ (s : State), s.running = true → 1024 ≤ s.rat.windowRounds →
    exec .breachWindowEnd s = .next { s with rat := { s.rat with
      windowRounds := 0, windowReads := 0, windowTails := 0, windowBreach := false, inBreach := s.rat.inBreach && s.rat.windowBreach } }) ∧
  (∀ (a : Fin 22) (i : Fin 32) (k : Nat) (s : State), s.running = true → arbKey a.val i.val = some k → Tbl.get 0 s.arb.limit a.val ≠ 0 →
    (Tbl.get 0 s.arb.limit a.val).toNat < (s.arbAt k).wait → (s.arbAt k).told = false →
    canReport s (.other (0x50000 + 32 * a.val + i.val)) 0x19 15 (BitVec.ofNat 16 (32 * a.val + i.val)) →
    ∃ t, exec (.arbStarve a i) s = .next t ∧ t = { s with arb := { s.arb with req := t.arb.req }, cairn := { s.cairn with queue := t.cairn.queue } } ∧
      t.arbAt k = { s.arbAt k with starved := true, told := true } ∧
      t.cairn.queue = s.cairn.queue ++ [reportOf s 0x19 15 (BitVec.ofNat 16 (32 * a.val + i.val)) 1 (s.arbAt k).longest]) ∧
  (∀ (s : State), s.running = true → s.keepWarm = true → s.rat.warmAt + 5000 ≤ s.clk.ticks →
    ∃ t, exec .keepWarmRead s = .next t ∧ t = { s with rat := t.rat, mem := t.mem, arb := t.arb } ∧
      t.rat.warmAt = s.clk.ticks ∧ ∃ m, t.asks m ∧ m.owner = .keepWarm ∧ m.write = false ∧ m.addr = (s.boot.tableBase >>> 5).setWidth 47)

/-- Spec/06 R173, spec/13 R347, spec/05 R130, spec/02 R41: the oldest landed item of a belay whose targets are served leaves the landing. A record's
logbook entry is then in STATE 2, or retired where nothing of the record stays pending. An event that joins no group makes a pending instance in its
requester sequence, with its serial, priority, vector and landing time, held by the settle window when its class is 2, and INSERTS of the belay
that serves counts it; so does a moved instance, under its own serial, unless the belay holds that serial already. A withdraw removes the handle's
pending instance with all its serials; where none is pending, for it has been claimed, only its own entry retires. -/
def Obligations.LandedRecordsInsertOrWithdraw : Prop :=
  (∀ (b : Fin 256) (pos : BitVec 2) (r : Routed) (rest : List Landed) (s : State), s.running = true → (s.servingBelay (2 * b.val)).isSome = true →
    (s.belAt b.val).landing = { pos := pos, item := .record r } :: rest →
    (r.record.kind ≠ .withdraw → ∃ t, exec (.belayInsert b) s = .next t ∧ (t.belAt b.val).landing = rest ∧ (t.logAt r.serial.toNat).state ≠ 1) ∧
    (r.record.kind = .withdraw → ∃ t, exec (.withdrawAtBelay b) s = .next t ∧ (t.belAt b.val).landing = rest ∧ (t.logAt r.serial.toNat).state ≠ 1)) ∧
  ∀ (b c : Fin 256) (pos : BitVec 2) (i : PItem) (rest : List Landed) (s : State), s.running = true →
    s.servingBelay (2 * b.val) = some c.val → (s.belAt b.val).landing = { pos := pos, item := i } :: rest → i.target.toNat / 2 = b.val →
    s.wired.waiting = [] →
    let T := i.target.toNat
    let bel (t : State) (n : Nat) : Prop := ∀ k, t.belAt k = { s.belAt k with
      landing := if k = b.val then rest else (s.belAt k).landing, inserts := if k = c.val then (s.belAt k).inserts + BitVec.ofNat 64 n else (s.belAt k).inserts }
    let only (t : State) : Prop :=
      t = { s with bel := t.bel, tgt := t.tgt, log := t.log, grp := t.grp, mem := t.mem, rat := t.rat, arb := t.arb } ∧ ∀ k, k ≠ T → t.tgtAt k = s.tgtAt k
    (∀ r h, i = .record r → r.record.origin = .handle h → r.biv = none → r.record.kind = .event ∨ r.record.kind = .eventPayload → r.route.cgroup = 0 →
      r.record.count = 0 → roomy s T →
      ∃ t u x, exec (.belayInsert b) s = .next t ∧ onlyLevels u t ∧ bel u 1 ∧ u = { s with bel := u.bel, tgt := u.tgt, log := u.log } ∧ only u ∧
        u.tgtAt T = { s.tgtAt T with store := placeInst x (s.tgtAt T).store } ∧
        x.origin = .handle h ∧ x.serial = r.serial ∧ x.prio = r.route.prio ∧ x.ring = r.ring ∧ x.target = r.target ∧ x.slot = r.slot ∧
        x.vector = r.route.vector ∧ x.payload = (if h.cls = 1 ∨ h.cls = 2 then r.record.payload else 0) ∧ x.landed = s.clk.time ∧
        x.settle = decide (h.cls = 2) ∧ x.replayed = r.record.replayed ∧ x.counted = false ∧ x.spilled = false ∧
        ((s.logAt r.serial.toNat).state = 1 → u.logAt r.serial.toNat = { s.logAt r.serial.toNat with state := 2 }) ∧
        ∀ k, k ≠ r.serial.toNat → u.logAt k = s.logAt k) ∧
    (∀ x, i = .moved x none → roomy s T →
      ∃ t u, exec (.belayInsert b) s = .next t ∧ onlyLevels u t ∧ u = { s with bel := u.bel, tgt := u.tgt } ∧ only u ∧
        ((∃ y ∈ (s.tgtAt T).store, y.serial = x.serial) → bel u 0 ∧ u.tgtAt T = s.tgtAt T) ∧
        ((∀ y ∈ (s.tgtAt T).store, y.serial ≠ x.serial) →
          bel u 1 ∧ u.tgtAt T = { s.tgtAt T with store := placeInst { x with settle := x.origin.cls == 2 } (s.tgtAt T).store })) ∧
    (∀ r h x, i = .record r → r.record.origin = .handle h → r.record.kind = .withdraw → s.pendingHere r h = some (x, none) →
      ∃ t u, exec (.withdrawAtBelay b) s = .next t ∧ onlyLevels u t ∧ bel u 0 ∧ only u ∧
        u.tgtAt T = { s.tgtAt T with store := dropFirst (fun y => y.serial == x.serial) (s.tgtAt T).store } ∧
        (∀ k, k ∈ r.serial :: x.serials → u.logAt k.toNat = LogEntry.reset) ∧ (∀ k, (∀ y ∈ r.serial :: x.serials, y.toNat ≠ k) → u.logAt k = s.logAt k) ∧
        (x.group = 0 → u.grp = s.grp)) ∧
    (∀ r h, i = .record r → r.record.origin = .handle h → r.record.kind = .withdraw → s.pendingHere r h = none →
      ∃ t u, exec (.withdrawAtBelay b) s = .next t ∧ onlyLevels u t ∧ bel u 0 ∧ only u ∧ u.grp = s.grp ∧ u.tgtAt T = s.tgtAt T ∧
        u.logAt r.serial.toNat = LogEntry.reset ∧ ∀ k, k ≠ r.serial.toNat → u.logAt k = s.logAt k)

/-- Spec/05 R134, R136: the oldest landed notice of a belay whose targets are served leaves the landing: after a move notice its handle has no on-chip
instance at the old target, and a spilled one is marked to be moved when it returns; after a re-rank notice with a priority above 0 every pending
instance there has the new priority or takes it when it returns. A re-rank notice gives every on-chip pending instance of its handle the new priority, and with priority 0 removes the only one
and retires its serial; a move notice takes the handle's on-chip instance from the old store, and its position forwards it under the handle's route,
serial and landing time kept, and the move ends. -/
def Obligations.NoticesMoveAndReRank : Prop :=
  (∀ (b : Fin 256) (pos : BitVec 2) (h : Handle) (T : BitVec 9) (rest : List Landed) (s : State), s.running = true →
    (s.servingBelay (2 * b.val)).isSome = true →
    ((s.belAt b.val).landing = { pos := pos, item := .moveNotice h T } :: rest →
      ∃ t, exec (.moveNotice b) s = .next t ∧ (t.belAt b.val).landing = rest ∧
        ∀ y, y ∈ (t.tgtAt T.toNat).store → y.origin = .handle h → y.spilled = true ∧ y.moving = true) ∧
    (∀ prio, (s.belAt b.val).landing = { pos := pos, item := .rerank h prio T } :: rest →
      ∃ t, exec (.rerankNotice b) s = .next t ∧ (t.belAt b.val).landing = rest ∧
        (prio ≠ 0 → ∀ y, y ∈ (t.tgtAt T.toNat).store → y.origin = .handle h → y.prio = prio ∨ y.newPrio = some prio))) ∧
  ∀ (b : Fin 256) (pos : BitVec 2) (h : Handle) (T : BitVec 9) (rest : List Landed) (s : State), XlatShape s.xl → s.running = true →
    s.servingBelay (2 * b.val) = some b.val → T.toNat / 2 = b.val → roomy s T.toNat → notActive s h → notBivouacked s h →
    let bel (t : State) : Prop := t.belAt b.val = { s.belAt b.val with landing := rest } ∧ ∀ k, k ≠ b.val → t.belAt k = s.belAt k
    (∀ prio, prio ≠ 0 → (s.belAt b.val).landing = { pos := pos, item := .rerank h prio T } :: rest →
      ∃ t u, exec (.rerankNotice b) s = .next t ∧ onlyLevels u t ∧ bel u ∧ u = { s with bel := u.bel, tgt := u.tgt, rat := u.rat } ∧
        u.tgtAt T.toNat =
          { s.tgtAt T.toNat with store := (s.tgtAt T.toNat).store.map (fun x => if x.origin = .handle h then { x with prio := prio } else x) } ∧
        ∀ k, k ≠ T.toNat → u.tgtAt k = s.tgtAt k) ∧
    (∀ x, (s.belAt b.val).landing = { pos := pos, item := .rerank h 0 T } :: rest → (s.tgtAt T.toNat).store.filter (fun y => y.isOf h) = [x] →
      x.group = 0 → x.more = [] →
      ∃ t u, exec (.rerankNotice b) s = .next t ∧ onlyLevels u t ∧ bel u ∧
        u = { s with bel := u.bel, tgt := u.tgt, rat := u.rat, log := u.log, mem := { s.mem with retained := u.mem.retained } } ∧
        u.tgtAt T.toNat = { s.tgtAt T.toNat with store := dropFirst (fun y => y.serial == x.serial) (s.tgtAt T.toNat).store } ∧
        u.logAt x.serial.toNat = LogEntry.reset ∧ ∀ k, k ≠ x.serial.toNat → u.logAt k = s.logAt k) ∧
    (∀ x route, (s.belAt b.val).landing = { pos := pos, item := .moveNotice h T } :: rest →
      (s.tgtAt T.toNat).store.filter (fun y => y.isOf h) = [x] → (∀ k y, y ∈ (s.tgtAt k).store → y.origin = .handle h → k = T.toNat) →
      Tbl.wf Target.reset s.tgt = true → s.routeOf h = some route → route.prio ≠ 0 → route.virt = false → (s.posAt (s.posOf h)).waits = [] → (s.posAt (s.posOf h)).stuck = [] →
      (s.posAt (s.posOf h)).moves = [{ handle := h, target := T, done := false }] →
      (Tbl.get [] (s.posAt (s.posOf h)).egress (ledgeOf (route.target.setWidth 9))).length < 8 →
      ∃ t u, exec (.moveNotice b) s = .next t ∧ onlyLevels u t ∧ bel u ∧ u = { s with bel := u.bel, tgt := u.tgt, rat := u.rat, xl := { s.xl with pos := u.xl.pos } } ∧
        u.tgtAt T.toNat = { s.tgtAt T.toNat with store := (s.tgtAt T.toNat).store.filter (fun y => !y.isOf h) } ∧
        (∀ k, k ≠ s.posOf h → u.posAt k = s.posAt k) ∧
        u.posAt (s.posOf h) =
          { s.posAt (s.posOf h) with
            moves := [],
            egress := Tbl.upd [] (s.posAt (s.posOf h)).egress (ledgeOf (route.target.setWidth 9)) (fun l => l ++
              [.moved { x with target := route.target.setWidth 9, ring := route.ring, slot := none, prio := route.prio, moving := false } none]) })

/-- Spec/05 R130, spec/06 R169, spec/07 R180, spec/08 R202: what lifts a hold. A settle window's end, a group's deadline (TIME + 1 ticks after its P
landed), the end of a slot's bivouac refill, and the return of a spilled instance each change the one mark that held the instance, and the levels
follow. -/
def Obligations.HoldsLift : Prop :=
  (∀ (serial : BitVec 32) (T : Nat) (s : State), s.running = true → s.settling serial = some T →
    ∃ t u, exec (.settleWindowExpiry serial) s = .next t ∧ onlyLevels u t ∧ u = { s with tgt := u.tgt } ∧
      u.tgtAt T = { s.tgtAt T with store := (s.tgtAt T).store.map (fun x => if x.serial = serial then { x with settle := false } else x) } ∧
      ∀ k, k ≠ T → u.tgtAt k = s.tgtAt k) ∧
  (∀ (g : BitVec 16) (T : Nat) (x : Inst) (s : State), s.running = true → s.pendingOfGroup g.toNat = some (T, x) → x.spilled = false → x.due = false →
    x.landed.toNat + (s.grpAt g.toNat).time.toNat + 1 ≤ s.clk.time.toNat →
    ∃ t u, exec (.groupDeadline g) s = .next t ∧ onlyLevels u t ∧ u = { s with tgt := u.tgt, grp := u.grp } ∧
      u.tgtAt T = { s.tgtAt T with store := (s.tgtAt T).store.map (fun y => if y.serial = x.serial then { y with due := true } else y) } ∧
      (∀ k, k ≠ T → u.tgtAt k = s.tgtAt k) ∧ u.grpAt g.toNat = { s.grpAt g.toNat with due := true } ∧ ∀ k, k ≠ g.toNat → u.grpAt k = s.grpAt k) ∧
  (∀ (c : Fin 2048) (s : State), s.running = true → (s.ctxAt c.val).used = true → (s.ctxAt c.val).refilling = true →
    (s.vtAt (s.ctxAt c.val).vt.toNat).bivouac = [] →
    ∃ t u, exec (.bivouacRefillDone c) s = .next t ∧ onlyLevels u t ∧ u = { s with ctx := u.ctx } ∧
      u.ctxAt c.val = { s.ctxAt c.val with refilling := false } ∧ ∀ k, k ≠ c.val → u.ctxAt k = s.ctxAt k) ∧
  (∀ (T : Fin 512) (serial : BitVec 32) (x : Inst) (rest : List (MemOwner × Option (BitVec 2))) (s : State), s.running = true →
    s.servingBelay T.val = some (T.val / 2) → s.mem.done = (.refill (BitVec.ofNat 9 T.val) serial, none) :: rest →
    (s.tgtAt T.val).store.find? (fun y => y.serial == serial) = some x → x.spilled = true → s.onChip T.val < 512 → x.group = 0 →
    x.moving = false → x.newPrio = none →
    (∀ y ∈ (s.tgtAt T.val).store, y.spilled = true → y.serial = serial) →
    ∃ t u, exec (.refillComplete T) s = .next t ∧ onlyLevels u t ∧
      u = { s with tgt := u.tgt, bel := u.bel, mem := u.mem, rat := u.rat, arb := u.arb } ∧ u.mem.done = rest ∧
      (∃ m, u.asks m ∧ m.owner = .zero 2 (T.val / 2) ∧ m.write = true ∧ m.addr = x.line ∧ m.data = 0) ∧
      (u.belAt (T.val / 2)) = { s.belAt (T.val / 2) with refills := (s.belAt (T.val / 2)).refills + 1 } ∧
      u.tgtAt T.val = { s.tgtAt T.val with store := (s.tgtAt T.val).store.map (fun y =>
        if y.serial = serial then { x with spilled := false, openEntry := false, settle := false } else y) } ∧
      ∀ k, k ≠ T.val → u.tgtAt k = s.tgtAt k)

/-- Spec/06 R153: the claim word of an instance carries each field at its place.
Spec/05 R126, spec/06 R154, R155, R157, spec/08 R195: a CLAIM of a physical frame, or of a resident slot's, takes the highest-ranked instance of that frame
that is not held and above RUNPRIO.PRIO: the response is its claim word, or the low half of it, the instance goes to the top of the stack, the
shadow takes the high half, a wired source is ACT with PEND clear, a group is ACT. With none, the response and the shadow are 0; at depth 16 the
claim is refused and counted. -/
def Obligations.ClaimsTakeTheHighestRanked : Prop :=
  (∀ (x : Inst), let w := x.word
      bitAt w 63 = true ∧ bitAt w 62 = x.replayed ∧ bitAt w 61 = (x.counted && decide (2 ≤ x.count.toNat)) ∧ field w 59 2 = x.origin.cls ∧
        field w 56 3 = (0 : BitVec 3) ∧ field w 48 8 = x.prio ∧
        field w 32 16 = (if x.counted && decide (2 ≤ x.count.toNat) then x.count else x.payload) ∧ field w 0 24 = x.vector) ∧
  (∀ (f : FrameId) (wide : Bool) (T n : Nat) (tag : Option (BitVec 11)) (c : Nat) (s : State), s.running = true → s.frameOf f = some (T, n, tag) →
      s.servingBelay T = some c → s.readWaits (frameNumber f) 0 = false →
      let key := 4 * T + n
      let p := s.pairAt key
      let k := frameKey T n tag
      let answer (w : Word) : Response := { rescue := false, tag := 0, err := 0, data := if wide then w else w &&& 0xFFFFFFFF }
      (∀ i x, p.stack.length < 16 → claimable s T n tag (i, x) → (∀ a, claimable s T n tag a → a ≠ (i, x) → rankAbove (i, x) a = true) →
        ∃ (t u : State) (notices : Bool), exec (.claim f wide) s = .next t ∧ onlyLevels { u with cp := t.cp } t ∧
          t.cp = { s.cp with responses := answer x.word :: s.cp.responses } ∧
          u.tgtAt T = { s.tgtAt T with store := dropFirst (fun y => y.serial == x.serial) (s.tgtAt T).store } ∧
          u.pairAt key = { p with stack :=
            { inst := x, word := x.word, asserted := x.level && x.origin.cls == 2, recorded := none, marked := false, notices := notices } :: p.stack } ∧
          (∀ j, j ≠ key → u.pairAt j = s.pairAt j) ∧ (u.frameAt k).shadow = field x.word 32 32 ∧ (∀ j, j ≠ k → u.frameAt j = s.frameAt j) ∧
          u.belAt c = { s.belAt c with claims := (s.belAt c).claims + 1 } ∧
          (∀ h, x.origin = .handle h → h.cls = 0 ∨ h.cls = 1 →
            u.srcAt (handleSrc h) = { s.srcAt (handleSrc h) with pend := false, offered := false, act := true, weight := 0 } ∧
            ∀ j, j ≠ handleSrc h → u.srcAt j = s.srcAt j) ∧
          (x.group ≠ 0 → (u.grpAt x.group.toNat).active = true ∧ (u.grpAt x.group.toNat).pending = false) ∧
          (x.group = 0 → u.grp = s.grp) ∧
          (x.origin.cls ≠ 3 → roomy s T → notices = false ∧
            u = { s with wired := { s.wired with src := u.wired.src }, bel := u.bel, tgt := u.tgt, pair := u.pair, frame := u.frame, grp := u.grp })) ∧
      ((16 ≤ p.stack.length ∨ ∀ a, ¬claimable s T n tag a) →
        ∃ t, exec (.claim f wide) s = .next t ∧ t = { s with pair := t.pair, frame := t.frame, cp := t.cp } ∧
          t.cp = { s.cp with responses := answer 0 :: s.cp.responses } ∧
          t.frameAt k = { s.frameAt k with shadow := 0 } ∧ (∀ j, j ≠ k → t.frameAt j = s.frameAt j) ∧ (∀ j, j ≠ key → t.pairAt j = s.pairAt j) ∧
          t.pairAt key = { p with claimRefused := if 16 ≤ p.stack.length then satInc p.claimRefused else p.claimRefused }))

/-- Spec/06 R161 to R164, R167: a COMPLETE of a physical frame, by 8 bytes or by the low half with the stage, completes the first entry from the top whose
CLASS, LINK and VECTOR agree: here an edge message instance, whose serial is retired. One that matches nothing is stray: counted, and kept in
STRAY_LAST.
Spec/06 R167: UNWIND with TGT_PRESENT low completes the whole stack of a physical frame, here of edge message instances, and retires their serials;
with TGT_PRESENT high it is one stray, and STRAY_LAST keeps its value. -/
def Obligations.CompletionsRetireOrAreStray : Prop :=
  (∀ (T : Fin 512) (n : Fin 4) (wide : Bool) (data : Word) (s : State), s.running = true → s.servingBelay T.val = some (T.val / 2) →
      let key := 4 * T.val + n.val
      let p := s.pairAt key
      let f := s.frameAt key
      let w : Word := if wide then data else f.stage ++ field data 0 32
      let named (a : Active) : Bool := a.inst.slot == none && field a.word 59 2 == field w 59 2 && field a.word 0 32 == field w 0 32
      (∀ a h, p.stack.find? named = some a → a.inst.origin = .handle h → h.cls = 2 → a.inst.level = false → a.inst.group = 0 → a.inst.more = [] →
        roomy s T.val →
        ∃ t u, exec (.complete (.phys T n) wide data) s = .next t ∧ onlyLevels u t ∧
          u = { s with bel := u.bel, pair := u.pair, log := u.log, mem := { s.mem with retained := u.mem.retained } } ∧
          u.pairAt key = { p with stack := dropFirst named p.stack } ∧ (∀ k, k ≠ key → u.pairAt k = s.pairAt k) ∧
          u.belAt (T.val / 2) = { s.belAt (T.val / 2) with completes := (s.belAt (T.val / 2)).completes + 1 } ∧
          u.logAt a.inst.serial.toNat = LogEntry.reset ∧ ∀ k, k ≠ a.inst.serial.toNat → u.logAt k = s.logAt k) ∧
      ((∀ a ∈ p.stack, named a = false) → f.strayCount + 1 ≠ f.strayLimit.setWidth 32 → f.strayCount ≠ 0xFFFFFFFF →
        ∃ t, exec (.complete (.phys T n) wide data) s = .next t ∧ t = { s with frame := t.frame } ∧
          t.frameAt key = { f with strayCount := f.strayCount + 1, strayLast := w } ∧ ∀ k, k ≠ key → t.frameAt k = s.frameAt k)) ∧
  (∀ (T : Fin 512) (n : Fin 4) (data : Word) (s : State), s.running = true → s.servingBelay T.val = some (T.val / 2) → bitAt data 0 = true →
      let key := 4 * T.val + n.val
      let p := s.pairAt key
      let f := s.frameAt key
      ((s.tgtAt T.val).present = false → roomy s T.val →
        (∀ a ∈ p.stack, a.inst.slot = none ∧ a.inst.origin.cls = 2 ∧ a.inst.level = false ∧ a.inst.group = 0) →
        ∃ t u, exec (.unwind (.phys T n) data) s = .next t ∧ onlyLevels u t ∧
          u = { s with bel := u.bel, pair := u.pair, log := u.log, mem := { s.mem with retained := u.mem.retained } } ∧
          u.pairAt key = { p with stack := [] } ∧ (∀ k, k ≠ key → u.pairAt k = s.pairAt k) ∧
          (∀ a ∈ p.stack, ∀ x ∈ a.inst.serials, u.logAt x.toNat = LogEntry.reset) ∧
          ∀ k, (∀ a ∈ p.stack, ∀ x ∈ a.inst.serials, x.toNat ≠ k) → u.logAt k = s.logAt k) ∧
      ((s.tgtAt T.val).present = true → f.strayCount + 1 ≠ f.strayLimit.setWidth 32 → f.strayCount ≠ 0xFFFFFFFF →
        ∃ t, exec (.unwind (.phys T n) data) s = .next t ∧ t = { s with frame := t.frame } ∧
          t.frameAt key = { f with strayCount := f.strayCount + 1 } ∧ ∀ k, k ≠ key → t.frameAt k = s.frameAt k))

/-- Spec/05 R125, R127, spec/06 R149 to R151: a change of TGT_PRESENT is kept, and every level is the one its top instance asks for then: 0 for a target
that is not present. An absence of 10,000 ticks with an instance pending is reported once. A TGT_ESC pulse is counted with its time. -/
def Obligations.TargetPinsAreSeen : Prop :=
  (∀ (T : Fin 512) (level : Bool) (s : State), s.running = true → Tbl.wf Target.reset s.tgt = true → Tbl.wf Pair.reset s.pair = true →
    ∃ t u, exec (.tgtPresentChange T level) s = .next t ∧ onlyLevels u t ∧ u = { s with tgt := u.tgt } ∧
      (∀ k, k ≠ T.val → u.tgtAt k = s.tgtAt k) ∧ (u.tgtAt T.val).present = level ∧ (u.tgtAt T.val).store = (s.tgtAt T.val).store ∧
      ((s.tgtAt T.val).present = true → level = false → (u.tgtAt T.val).absSince = s.clk.ticks) ∧
      (∀ k n, n < 4 → (t.pairAt (4 * k + n)).level = t.levelOf k n) ∧
      (level = false → ∀ n, n < 4 → (t.pairAt (4 * T.val + n)).level = 0)) ∧
  (∀ (T : Fin 512) (s : State), s.running = true → (s.servingBelay T.val).isSome = true → (s.tgtAt T.val).present = false →
    (s.tgtAt T.val).absTold = false → (s.tgtAt T.val).store ≠ [] → (s.tgtAt T.val).absSince + 10000 ≤ s.clk.ticks →
    canReport s (.belay (T.val / 2)) 0x12 10 (BitVec.ofNat 16 T.val) →
    ∃ t, exec (.targetAbsentTimeout T) s = .next t ∧ t = { s with tgt := t.tgt, rat := t.rat, cairn := { s.cairn with queue := t.cairn.queue } } ∧
      t.tgtAt T.val = { s.tgtAt T.val with absTold := true } ∧ (∀ k, k ≠ T.val → t.tgtAt k = s.tgtAt k) ∧
      t.cairn.queue = s.cairn.queue ++ [reportOf s 0x12 10 (BitVec.ofNat 16 T.val) 1 1]) ∧
  (∀ (T : Fin 512) (s : State), s.running = true →
    ∃ t, exec (.tgtEsc T) s = .next t ∧ t = { s with tgt := t.tgt } ∧ (∀ k, k ≠ T.val → t.tgtAt k = s.tgtAt k) ∧
      t.tgtAt T.val = { s.tgtAt T.val with esc := true, escCount := satInc (s.tgtAt T.val).escCount, escTime := s.clk.time.setWidth 48 })

/-- Spec/09 R213, R216, R217, R222, R226: on an up link without authentication, a flit whose CRC fails is discarded and counted; a sequenced flit of the
expected SEQ is accepted, released and owed an acknowledgement, here with one EVENT of a known source and a NOP, whose record waits at couloir
input 10; an earlier SEQ is a duplicate, a later one is out of order and asks for a replay; an acknowledgement of the oldest flit frees it. -/
def Obligations.FlitReceiveFollowsItsSequence : Prop :=
  ∀ (k : Fin 16) (f : BitVec 256) (c : LinkCfg) (s : State), s.running = true → (s.linkAt k.val).state = 5 → (s.linkAt k.val).rxIdle = false →
    (s.linkAt k.val).cfg = some c → c.auth = false → c.col = false → c.paired = false →
    let l := s.linkAt k.val
    let crc : Prop := crc32 f 28 = field f 224 32
    let ahead := (field f 8 12 - l.rx.expect).toNat
    (¬crc → l.rx.settleEnd ≤ s.clk.ticks → l.rx.crcRun < 7 →
      ∃ t, exec (.flitReceive k f) s = .next t ∧ onlyLinkPhy s t k.val ∧
        t.linkAt k.val = { l with crcErrors := satInc l.crcErrors, rx := { l.rx with crcRun := l.rx.crcRun + 1 } }) ∧
    (crc → field f 0 4 = (4 : BitVec 4) → bitAt f 4 = false → l.tx.replay = [] → ahead = 0 → field f 32 4 = (1 : BitVec 4) →
      field f 128 96 = (0 : BitVec 96) → (field f 36 12).toNat < c.sources → s.queueFull k.val = false →
      ∃ t r, exec (.flitReceive k f) s = .next t ∧ onlyLinkPhy s { t with inq := s.inq } k.val ∧
        t.linkAt k.val =
          { l with
            flitsRx := l.flitsRx + 1, records := l.records + 1, tx := { l.tx with ackOwed := true },
            rx := { l.rx with crcRun := 0, expect := l.rx.expect + 1, xseq := l.rx.xseq + 1, asked := none, released := field f 8 12 } } ∧
        t.inqAt (linkQueue k.val) = s.inqAt (linkQueue k.val) ++ [r] ∧ (∀ j, j ≠ linkQueue k.val → t.inqAt j = s.inqAt j) ∧ r.kind = .event ∧
        r.input = 10 ∧ r.origin = .handle (remoteHandle k.val (field f 36 12).toNat) ∧
        r.srcTime = (if field f 48 48 = (0 : BitVec 48) then s.clk.time.setWidth 48 else field f 48 48)) ∧
    (crc → field f 0 4 = (4 : BitVec 4) → bitAt f 4 = false → l.tx.replay = [] → 2048 ≤ ahead →
      ∃ t, exec (.flitReceive k f) s = .next t ∧ onlyLinkPhy s t k.val ∧
        t.linkAt k.val = { l with dupDiscards := satInc l.dupDiscards, tx := { l.tx with ackOwed := true }, rx := { l.rx with crcRun := 0 } }) ∧
    (crc → field f 0 4 = (4 : BitVec 4) → bitAt f 4 = false → l.tx.replay = [] → 0 < ahead → ahead < 2048 → l.rx.asked ≠ some l.rx.expect →
      ∃ t, exec (.flitReceive k f) s = .next t ∧ onlyLinkPhy s t k.val ∧
        t.linkAt k.val =
          { l with
            oooDiscards := satInc l.oooDiscards, tx := { l.tx with reqOwed := true },
            rx := { l.rx with crcRun := 0, asked := some l.rx.expect } }) ∧
    (∀ x, crc → field f 0 4 = (0 : BitVec 4) → bitAt f 4 = false → l.tx.replay = [x] → field f 20 12 = l.tx.seq - 1 → l.tx.queue = [] →
      ∃ t, exec (.flitReceive k f) s = .next t ∧ onlyLinkPhy s t k.val ∧
        t.linkAt k.val =
          { l with
            lastActive := s.clk.ticks, tx := { l.tx with replay := [], timer := s.clk.ticks, expiries := 0 },
            rx := { l.rx with crcRun := 0, ackUsed := field f 20 12 } })

/-- Spec/09 R217, R219, R227, R228, R236: the timers of a link. 2 µs without an advance of the acknowledged point sends every unacknowledged flit again
as first sent, and the eighth expiry in a row takes an unpaired valley link down with REPLAY_EXHAUST and its cairn; an acknowledgement owed leaves in
a NOP; a FULL snapshot is asked for again after 20 µs and SNAP_LATE marks one that has not come for 4 SNAP_PERIODs; CAP is sent again every µs. -/
def Obligations.LinkTimersAct : Prop :=
  ∀ (k : Fin 16) (c : LinkCfg) (s : State), s.running = true → (s.linkAt k.val).cfg = some c → c.col = false → c.paired = false →
    let l := s.linkAt k.val
    (l.state = 5 → l.tx.replay ≠ [] → l.tx.timer + 200 ≤ s.clk.ticks → l.tx.expiries < 7 →
      ∃ t, exec (.replayTimerExpiry k) s = .next t ∧ onlyLinkPhy s t k.val ∧
        t.linkAt k.val =
          { l with
            flitsTx := l.flitsTx + BitVec.ofNat 64 l.tx.replay.length, replays := satInc l.replays,
            tx := { l.tx with
              expiries := l.tx.expiries + 1, timer := s.clk.ticks, sent := l.tx.replay.reverse ++ l.tx.sent,
              replayEnd := s.clk.ticks + l.flitTicks l.tx.replay.length } }) ∧
    (l.state = 5 → l.tx.replay ≠ [] → l.tx.timer + 200 ≤ s.clk.ticks → 7 ≤ l.tx.expiries →
      canReport s (.other (0x90000 + k.val)) 0x0D 5 (BitVec.ofNat 16 k.val) →
      ∃ t, exec (.replayTimerExpiry k) s = .next t ∧ linkLost s t k.val 3 ∧
        t = { s with links := t.links, lanes := t.lanes, cairn := { s.cairn with queue := t.cairn.queue } } ∧
        t.cairn.queue = s.cairn.queue ++ [reportOf s 0x0D 5 (BitVec.ofNat 16 k.val) 1 0]) ∧
    (l.state = 5 → l.txIdle = false → l.tx.ackOwed = true ∨ l.tx.reqOwed = true →
      ∃ t, exec (.ackDeadline k) s = .next t ∧ onlyLinkPhy s t k.val ∧ flitLeft s t k.val (nopOf l) ∧
        t.linkAt k.val =
          { l with
            flitsTx := l.flitsTx + 1, lastActive := if l.tx.ackOwed then s.clk.ticks else l.lastActive,
            tx := { l.tx with ackOwed := false, reqOwed := false, sent := nopOf l :: l.tx.sent } }) ∧
    (l.state = 5 → l.snapWait = true → l.snapAsked + 2000 ≤ s.clk.ticks → l.txIdle = true →
      ∃ t e, exec (.snapReqRetry k) s = .next t ∧ onlyLink s t k.val ∧ field e 0 4 = (8 : BitVec 4) ∧ field e 16 16 = l.snapId + 1 ∧
        t.linkAt k.val = { l with snapId := l.snapId + 1, snapAsked := s.clk.ticks, tx := { l.tx with queue := l.tx.queue ++ [e] } }) ∧
    (l.state = 5 → l.snapAt + 400 * c.snapPeriod ≤ s.clk.ticks →
      ∃ t, exec (.snapLate k) s = .next t ∧ onlyLink s t k.val ∧ t.linkAt k.val = { l with snapLate := true }) ∧
    (l.state = 4 → l.rx.capSeen = false → l.rx.capSentAt + 100 ≤ s.clk.ticks →
      ∃ t f, exec (.capTimer k) s = .next t ∧ onlyLinkPhy s t k.val ∧ flitLeft s t k.val f ∧ field f 0 4 = (2 : BitVec 4) ∧ field f 32 8 = (1 : BitVec 8) ∧
        field f 48 16 = BitVec.ofNat 16 c.sources ∧ (t.linkAt k.val).tx.sent = f :: l.tx.sent ∧ (t.linkAt k.val).flitsTx = l.flitsTx + 1 ∧
        (t.linkAt k.val).rx.capSentAt = s.clk.ticks)

/-- Spec/09 R230, R232, R234: an open burst that has been idle for 64 FCLK cycles is closed with a TAG flit; the oldest complete burst received is released
when its tag verifies, and is discarded, with LINK_AUTH_FAIL, and asked for again when it does not; the held EOIs of an orphaned link are sent in
order once the snapshot is in, and ORPHANED clears. -/
def Obligations.BurstsAndOrphansLeave : Prop :=
  ∀ (k : Fin 16) (c : LinkCfg) (s : State), s.running = true → (s.linkAt k.val).state = 5 → (s.linkAt k.val).cfg = some c → c.col = false →
    c.paired = false → let l := s.linkAt k.val
    (l.tx.xseq + 2 < 2 ^ 55 → l.tx.burst ≠ [] → l.tx.burstAt + 4 ≤ s.clk.ticks → l.tx.replay.length < 256 → l.tx.queue = [] → l.tx.crcFlips = 0 →
      ∃ t f, exec (.burstIdleClose k) s = .next t ∧ onlyLinkPhy s t k.val ∧ flitLeft s t k.val f ∧ field f 0 4 = (5 : BitVec 4) ∧
        (t.linkAt k.val).tx.burst = [] ∧ (t.linkAt k.val).tx.seq = l.tx.seq + 1 ∧ (t.linkAt k.val).tx.replay = l.tx.replay ++ [f] ∧
        (t.linkAt k.val).tx.sent = f :: l.tx.sent ∧ (t.linkAt k.val).flitsTx = l.flitsTx + 1 ∧ (t.linkAt k.val).state = 5) ∧
    (∀ flits tag rest, c.auth = true → takeBurst l.rx.hold = some (flits, tag, rest) → s.burstGood k.val (flits.map (fun f => f.1)) tag rest.length = true →
      (∀ f ∈ flits, field f.1 32 192 = (0 : BitVec 192)) →
      ∃ t, exec (.burstVerify k) s = .next t ∧ onlyLink s t k.val ∧
        t.linkAt k.val = { l with rx := { l.rx with hold := rest, released := field tag 8 12 }, tx := { l.tx with ackOwed := true } }) ∧
    (∀ flits tag rest, c.auth = true → takeBurst l.rx.hold = some (flits, tag, rest) → s.burstGood k.val (flits.map (fun f => f.1)) tag rest.length = false →
      l.rx.authTimes = [] → canReport s (.other (0x90000 + k.val)) 0x0E 5 (BitVec.ofNat 16 k.val) →
      ∃ t, exec (.burstVerify k) s = .next t ∧ t = { s with links := t.links, cairn := { s.cairn with queue := t.cairn.queue } } ∧
        (∀ j, j ≠ k.val → t.linkAt j = s.linkAt j) ∧
        t.linkAt k.val =
          { l with
            authFails := satInc l.authFails, authFail := true, tx := { l.tx with reqOwed := true },
            rx := { l.rx with
              hold := [], xseq := l.rx.xseq - l.rx.hold.length, expect := l.rx.released + 1, asked := none, authTimes := [s.clk.ticks] } } ∧
        t.cairn.queue = s.cairn.queue ++ [reportOf s 0x0E 5 (BitVec.ofNat 16 k.val) 1 (satInc l.authFails)]) ∧
    (l.orphaned = true → l.releasing = true → s.snapQueued k.val = false → l.txIdle = true →
      ∃ t, exec (.orphanEoiRelease k) s = .next t ∧ onlyLink s t k.val ∧
        t.linkAt k.val = { l with orphaned := false, releasing := false, orphans := [], tx := { l.tx with queue := l.tx.queue ++ l.orphans } }) ∧
    (∀ e, l.orphaned = true → l.releasing = true → s.snapQueued k.val = false → l.txIdle = false → c.auth = false → l.orphans = [e] →
      l.tx.queue = [] → l.tx.burst = [] → l.tx.replay.length < 256 → l.tx.xseq + 2 < 2 ^ 55 →
      ∃ t, exec (.orphanEoiRelease k) s = .next t ∧ onlyLinkPhy s t k.val ∧ (t.linkAt k.val).orphaned = false ∧ (t.linkAt k.val).orphans = [] ∧
        (t.linkAt k.val).tx.queue = [] ∧
        (t.linkAt k.val).tx.replay =
          l.tx.replay ++ [flitOf (flitBody 4 l.tx.reqOwed false l.tx.seq l.rx.released ((0 : BitVec 96) ++ e))])

/-- Spec/09 R238, R242, R245: on the col link a HEARTBEAT with the block's ACTIVE mask and time leaves every 20 µs while the self-check passes; 60 µs
without one make the partner lost, with its cairn; shared credits owed for 1 µs return in one CREDIT entry. -/
def Obligations.ColLinkTimersAct : Prop :=
  ∀ (k : Nat) (s : State), s.running = true → s.colLink = some k → let l := s.linkAt k
    (l.state = 5 → l.txIdle = false → s.rope.hbRunning = true → s.partner.hbSentAt + 2000 ≤ s.clk.ticks →
      ∃ t f, exec .heartbeatSend s = .next t ∧ onlyLinkPhy s { t with partner := s.partner } k ∧ flitLeft s t k f ∧
        t.partner = { s.partner with hbSentAt := s.clk.ticks } ∧ (t.linkAt k).tx.sent = f :: l.tx.sent ∧ (t.linkAt k).flitsTx = l.flitsTx + 1 ∧
        field f 0 4 = (1 : BitVec 4) ∧ field f 32 48 = s.clk.time.setWidth 48 ∧ field f 80 16 = s.partner.active ∧ bitAt f 96 = s.straps.senior) ∧
    (s.partner.everUp = true → s.partner.lost = false → s.partner.lastHb + 6000 ≤ s.clk.ticks → (∀ j, j < 16 → (s.linkAt j).peerUp ≠ some false) →
      canReport s (.other (0x90000 + k)) 0x0F 5 (BitVec.ofNat 16 k) →
      ∃ t, exec .partnerLost s = .next t ∧
        t = { s with links := t.links, cairn := t.cairn, partner := { s.partner with lost := true, hbOk := false, notices := [] } } ∧
        (∀ j, j ≠ k → t.linkAt j = s.linkAt j) ∧ t.linkAt k = { l with partnerLost := true } ∧
        t.cairn.queue = s.cairn.queue ++ [reportOf s 0x0F 5 (BitVec.ofNat 16 k) 2 (s.partner.peerMask.setWidth 32)]) ∧
    (l.state = 5 → 0 < l.owedShared → l.owedAt + 100 ≤ s.clk.ticks → l.txIdle = true →
      ∃ t e, exec .creditReturnTimer s = .next t ∧ onlyLink s t k ∧ field e 0 4 = (0xF : BitVec 4) ∧ field e 4 7 = BitVec.ofNat 7 l.owedShared ∧
        t.linkAt k = { l with owedShared := 0, tx := { l.tx with queue := l.tx.queue ++ [e] } })

/-- Spec/10 R255 to R259, R262, R269: a wanted link that is down begins an attempt at MARK or when its time has come, unless it is held (spec/09 R231): every
lane that is not excluded sends a training frame with its INFO; a lane that locks with a fresh INFO.LANE of the right WIDTH and a skew of at most 64
is marked. With every lane locked, or 100 µs over, the mask is frozen and READY is sent; with READY from the peer on every locked lane the two
masks choose the lanes in use, and data begins on them, STEP flits on a link of width 4 that has not stepped and CAP flits else, or the attempt fails
where they share none. An attempt without data for 400 µs fails, its lanes squelched. -/
def Obligations.TrainingLocksAndFreezes : Prop :=
  ∀ (k : Fin 16) (c : LinkCfg) (s : State), s.running = true → (s.linkAt k.val).cfg = some c →
    let l := s.linkAt k.val
    let lanes := s.trains l
    let others (t : State) : Prop :=
      t = { s with links := t.links, lanes := t.lanes, freeCtr := t.freeCtr } ∧ (∀ j, j ≠ k.val → t.linkAt j = s.linkAt j) ∧
        ∀ n, n ∉ l.lanes → t.laneAt n = s.laneAt n
    let failed (t : State) : Prop :=
      others t ∧ (t.linkAt k.val).state = (if (s.heldFor l).isSome then 2 else 1) ∧ (t.linkAt k.val).train.stage = .rest ∧
        ∀ q ∈ lanes, (t.laneAt q.2).squelched = true ∧ (t.laneAt q.2).inUse = false ∧ (t.laneAt q.2).rxUse = false
    (∀ mark, l.state = 1 → l.wantUp = true → s.heldFor l = none → s.rope.hbRunning = true → (s.quadAt c.quad.toNat).ready = true →
      (∀ q ∈ lanes, (s.laneAt q.2).test = 0) → lanes ≠ [] → mark = true ∨ l.train.lossAt + (l.train.tries + 1) * c.retry * 100 ≤ s.clk.ticks →
      ∃ t, exec (.linkRetry k mark) s = .next t ∧ others t ∧ (t.linkAt k.val).state = 3 ∧ (t.linkAt k.val).train.stage = .locking ∧
        (t.linkAt k.val).train.start = s.clk.ticks ∧ (t.linkAt k.val).train.rateNow = (if c.width = 4 then 0 else c.rate) ∧
        (t.linkAt k.val).train.locked = 0 ∧ (t.linkAt k.val).train.tries = l.train.tries + 1 ∧
        ∀ q ∈ lanes, (t.laneAt q.2).squelched = false ∧ (t.laneAt q.2).locked = false ∧ (t.laneAt q.2).attempts = satInc (s.laneAt q.2).attempts ∧
          (t.laneAt q.2).rateNow = (if c.width = 4 then 0 else c.rate) ∧
          (t.laneAt q.2).out = (trainingFrame (infoWord q.1 (widthCode c.width) 0 false false 0 false) (patternSeed 1)).map levelOf ::
            (s.laneAt q.2).out) ∧
    (∀ (n : Fin 16) info inv skew, s.laneLink n.val = some k.val → l.train.stage = .locking → l.train.switchAt ≤ s.clk.ticks →
      (s.laneAt n.val).excluded = false → (s.laneAt n.val).locked = false → (field info 0 2).toNat < c.width → field info 2 2 = widthCode c.width →
      skew ≤ 64 → (∀ q ∈ lanes, (s.laneAt q.2).locked = true → field (s.laneAt q.2).info 0 2 ≠ (field info 0 2 : BitVec 2)) →
      ∃ t, exec (.laneLock n info inv skew) s = .next t ∧ t = { s with links := t.links, lanes := t.lanes } ∧
        (∀ j, j ≠ k.val → t.linkAt j = s.linkAt j) ∧ (∀ j, j ≠ n.val → t.laneAt j = s.laneAt j) ∧
        t.linkAt k.val = { l with train := { l.train with locked := setBit l.train.locked (field info 0 2).toNat true } } ∧
        t.laneAt n.val =
          { s.laneAt n.val with
            signal := true, locked := true, polInv := inv, info := info, skew := skew, lockTicks := BitVec.ofNat 32 (s.clk.ticks - l.train.start) }) ∧
    (∀ peer, l.state = 3 →
      l.train.stage = .frozen ∨ (l.train.stage = .locking ∧ (((∀ q ∈ lanes, (s.laneAt q.2).locked = true) ∧ lanes.length = c.width) ∨
        max l.train.start l.train.switchAt + 10000 ≤ s.clk.ticks)) →
      let ready : Prop := ∀ i, i < 4 → bitAt l.train.locked i = true → bitAt (peerInfo peer i) 8 = true
      let use := useLanes c.width l.train.locked (peerMask l.train.locked peer)
      (¬ready →
        ∃ t, exec (.lockFreeze k peer) s = .next t ∧ onlyLinkPhy s t k.val ∧ t.linkAt k.val = { l with train := { l.train with stage := .frozen } }) ∧
      (ready → use = 0 → l.train.stepped = false → ∃ t, exec (.lockFreeze k peer) s = .next t ∧ failed t) ∧
      (ready → use ≠ 0 →
        ∃ t f, exec (.lockFreeze k peer) s = .next t ∧ others t ∧ (t.linkAt k.val).train.use = use ∧ (t.linkAt k.val).tx.sent = f :: l.tx.sent ∧
          (c.width = 4 → l.train.stepped = false → (t.linkAt k.val).state = 3 ∧ (t.linkAt k.val).train.stage = .stepping ∧
            (t.linkAt k.val).train.chosen = 0xFF ∧ field f 0 32 = (0xE : BitVec 32) ∧ field f 32 8 = (1 : BitVec 8)) ∧
          (c.width ≠ 4 ∨ l.train.stepped = true → (t.linkAt k.val).state = 4 ∧ (t.linkAt k.val).train.stage = .rest ∧ field f 0 4 = (2 : BitVec 4)) ∧
          ∀ q ∈ lanes, ((t.laneAt q.2).inUse = (bitAt use q.1 || (s.laneAt q.2).inUse)) ∧
            ((t.laneAt q.2).squelched = !bitAt use q.1) ∧ (t.laneAt q.2).narrow = decide (useCount use < c.width) ∧
            (t.laneAt q.2).rxUse = (((s.laneAt q.2).locked && bitAt use (field (s.laneAt q.2).info 0 2).toNat) || (s.laneAt q.2).rxUse))) ∧
    (l.state = 3 → l.train.stage = .locking ∨ l.train.stage = .frozen → l.train.stepped = false → l.train.start + 40000 ≤ s.clk.ticks →
      ∃ t, exec (.trainingTimeout k) s = .next t ∧ failed t)

/-- Spec/10 R260, R261: in stepped start a STEP flit of the peer gives CHOSEN, the highest shared rate code, and AGREED once the two CHOSEN are equal, and a
STEP flit answers it; with AGREED both ways at code 0 CAP is exchanged, and for a rate above code 0 the lanes squelch for 10 µs and train at it after
16 more STEP flits; 500 µs without data falls back to the next lower shared code, and at code 0 the attempt fails. -/
def Obligations.SteppedStartAgreesAndFallsBack : Prop :=
  ∀ (k : Fin 16) (c : LinkCfg) (s : State), s.running = true → (s.linkAt k.val).cfg = some c → (s.linkAt k.val).state = 3 →
    let l := s.linkAt k.val
    let lanes := s.trains l
    let others (t : State) : Prop :=
      t = { s with links := t.links, lanes := t.lanes } ∧ (∀ j, j ≠ k.val → t.linkAt j = s.linkAt j) ∧ ∀ n, n ∉ l.lanes → t.laneAt n = s.laneAt n
    let switched (t : State) (rate : BitVec 2) : Prop :=
      others t ∧ (t.linkAt k.val).train.stage = .locking ∧ (t.linkAt k.val).train.rateNow = rate ∧
        (t.linkAt k.val).train.switchAt = s.clk.ticks + 1000 ∧ (t.linkAt k.val).train.stepped = true ∧ (t.linkAt k.val).train.locked = 0 ∧
        ∀ q ∈ lanes, (t.laneAt q.2).rateNow = rate ∧ (t.laneAt q.2).locked = false
    (∀ (f : BitVec 256) r, l.train.stage = .stepping → l.rxIdle = false → crc32 f 28 = field f 224 32 → field f 0 32 = (0xE : BitVec 32) →
      field f 32 8 = (1 : BitVec 8) → highestRate (ratesOf c.rate &&& field f 40 8) 4 = some r →
      let sent := l.train.agreedTx || field f 48 8 == BitVec.ofNat 8 r
      let seen := l.train.agreedRx || bitAt f 56
      (r ≠ 0 ∨ sent = false ∨ seen = false →
        ∃ t x, exec (.stepFlit k f) s = .next t ∧ onlyLinkPhy s t k.val ∧ (t.linkAt k.val).train.chosen = BitVec.ofNat 8 r ∧
          (t.linkAt k.val).train.peerRates = field f 40 8 ∧ (t.linkAt k.val).train.agreedTx = sent ∧ (t.linkAt k.val).train.agreedRx = seen ∧
          (t.linkAt k.val).tx.sent = x :: l.tx.sent ∧ field x 0 4 = (0xE : BitVec 4) ∧ field x 48 8 = BitVec.ofNat 8 r ∧ bitAt x 56 = sent) ∧
      (r = 0 → sent = true → seen = true → c.auth = false →
        ∃ t, exec (.stepFlit k f) s = .next t ∧ onlyLinkPhy s t k.val ∧ (t.linkAt k.val).state = 4 ∧ (t.linkAt k.val).train.stage = .rest ∧
          (t.linkAt k.val).tx.sent.length = l.tx.sent.length + 2)) ∧
    (l.train.stage = .stepping → l.train.agreedTx = true → l.train.agreedRx = true → l.train.chosen ≠ 0 →
      ∃ t, exec (.rateStep k) s = .next t ∧ switched t (l.train.chosen.setWidth 2) ∧ (t.linkAt k.val).tx.sent.length = l.tx.sent.length + 16) ∧
    (l.train.stage = .locking ∨ l.train.stage = .frozen → l.train.stepped = true → l.train.switchAt + 50000 ≤ s.clk.ticks →
      (∀ r, highestRate (ratesOf c.rate &&& l.train.peerRates) l.train.rateNow.toNat = some r →
        ∃ t, exec (.rateStepTimeout k) s = .next t ∧ switched t (BitVec.ofNat 2 r)) ∧
      (l.train.rateNow = 0 →
        ∃ t, exec (.rateStepTimeout k) s = .next t ∧ others t ∧ (t.linkAt k.val).state = (if (s.heldFor l).isSome then 2 else 1) ∧
          (t.linkAt k.val).train.stage = .rest ∧ ∀ q ∈ lanes, (t.laneAt q.2).squelched = true))

/-- Spec/10 R263 to R265: an up link with nothing unacknowledged, owed or queued for IDLE_AFTER goes idle; an acknowledgement owed, or 900 µs of idle,
wakes it with nine NOPs a lane in use and one more; an idle frame received sets RX_IDLE, an exit burst clears it and CRC failures do not count while
it settles; 1 ms without an exit is loss of signal with IDLE_TIMEOUT on each lane in use. -/
def Obligations.IdleLinksWakeAndTimeOut : Prop :=
  ∀ (k : Fin 16) (c : LinkCfg) (s : State), s.running = true → (s.linkAt k.val).cfg = some c → (s.linkAt k.val).state = 5 →
    let l := s.linkAt k.val
    (c.idleAfter ≠ 0 → l.txIdle = false → l.tx.replay = [] → l.tx.ackOwed = false → l.tx.queue = [] → l.lastActive + 100 * c.idleAfter ≤ s.clk.ticks →
      ∃ t, exec (.idleEntry k) s = .next t ∧ onlyLinkPhy s t k.val ∧ t.linkAt k.val = { l with txIdle := true, txIdleAt := s.clk.ticks }) ∧
    (l.txIdle = true → l.tx.queue = [] → l.tx.ackOwed = true →
      ∃ t, exec (.idleExit k) s = .next t ∧ onlyLinkPhy s t k.val ∧ (t.linkAt k.val).txIdle = false ∧ (t.linkAt k.val).tx.ackOwed = false ∧
        (t.linkAt k.val).flitsTx = l.flitsTx + BitVec.ofNat 64 (9 * useCount l.train.use + 1) ∧ (t.linkAt k.val).tx.replay = l.tx.replay) ∧
    (l.txIdle = true → l.tx.queue = [] → l.txIdleAt + 90000 ≤ s.clk.ticks →
      ∃ t, exec (.idleKeepalive k) s = .next t ∧ onlyLinkPhy s t k.val ∧ (t.linkAt k.val).txIdle = false ∧
        (t.linkAt k.val).flitsTx = l.flitsTx + BitVec.ofNat 64 (9 * useCount l.train.use + 1) ∧ (t.linkAt k.val).tx.replay = l.tx.replay) ∧
    (∀ info, l.rxIdle = false → bitAt info 14 = true → bitAt info 8 = true → bitAt info 9 = false → field info 10 4 = (0 : BitVec 4) →
      ∃ t, exec (.idleFrameReceive { link := k, info := info }) s = .next t ∧ onlyLink s t k.val ∧ t.linkAt k.val = { l with rxIdle := true, rxIdleAt := s.clk.ticks }) ∧
    (l.rxIdle = true →
      ∃ t, exec (.exitBurstReceive k) s = .next t ∧ onlyLinkPhy s t k.val ∧ (∀ n ∈ s.usedLanes k.val, (t.laneAt n).rxPre = 0) ∧
        t.linkAt k.val = { l with rxIdle := false, rx := { l.rx with crcRun := 0, settleEnd := s.clk.ticks + lwTicks l.train.rateNow 36 } }) ∧
    (l.rxIdle = true → l.rxIdleAt + 100000 ≤ s.clk.ticks → c.col = false → c.paired = false →
      canReport s (.other (0x90000 + k.val)) 0x0B 5 (BitVec.ofNat 16 k.val) →
      ∃ t d, exec (.idleTimeout k) s = .next t ∧ linkLost s t k.val 1 ∧
        t = { s with links := t.links, lanes := t.lanes, cairn := { s.cairn with queue := t.cairn.queue } } ∧
        t.cairn.queue = s.cairn.queue ++ [reportOf s 0x0B 5 (BitVec.ofNat 16 k.val) 1 d] ∧
        ∀ n ∈ l.lanes, (s.laneAt n).rxUse = true → (t.laneAt n).idleTo = true ∧ (t.laneAt n).losCount = satInc (s.laneAt n).losCount)

/-- Spec/10 R252, R253: the receiver of a lane recovers from the symbols that a transmitter in the same scrambler and precoder state sends the data bits that it
sent; each symbol carries two.
Spec/10 R249, R266 to R270, R275: loss of signal or of lock on lanes in use is counted with its time on each and takes their up link down once, for LOS where
one of them lost signal and for LOL else, with one cairn that names them; a quad whose reference stops, or whose PLL loses lock, counts it,
reports a CLOCK_FAULT and takes its links down; its recovery and the end of its power-up set the lock bits, and power-up keeps the calibration code,
or CAL_FAIL where it is out of range.
Spec/10 R271 to R273: a checker that locks begins to count, and one that counts more than 256 errors in 1,024 symbols drops lock with CHK_LOST; a due
injection is counted, rearmed where it is periodic, and moves the next symbols that the lane sends, or inverts a bit of its link's next flit. -/
def Obligations.LanesAndQuadsAreWatched : Prop :=
  ((∀ (d : List Bool) (scr : BitVec 31) (p : Sym), d.length % 2 = 0 →
      recoverBits scr p (encodeBits scr p d) = d ∧ 2 * (encodeBits scr p d).length = d.length) ∧
    (∀ (low lol : BitVec 16) (k : Fin 16) (c : LinkCfg) (s : State), s.running = true → (s.linkAt k.val).cfg = some c → c.col = false →
      c.paired = false → (s.linkAt k.val).state = 5 →
      (∀ n, n < 16 → bitAt (low ||| lol) n = true →
        s.laneLink n = some k.val ∧ (s.laneAt n).rxUse = true ∧ (s.quadAt (n / 4)).powered = true) →
      let down (t : State) (reason : BitVec 4) (cause : BitVec 8) : Prop :=
        linkLost s t k.val reason ∧ t = { s with links := t.links, lanes := t.lanes, cairn := { s.cairn with queue := t.cairn.queue } } ∧
          t.cairn.queue = s.cairn.queue ++ [reportOf s cause 5 (BitVec.ofNat 16 k.val) 1 ((low ||| lol).setWidth 32)] ∧
          (∀ n, n < 16 → bitAt low n = true → (t.laneAt n).losSeen = true ∧ (t.laneAt n).losCount = satInc (s.laneAt n).losCount ∧
            (t.laneAt n).losTime = s.clk.time.setWidth 48 ∧ (t.laneAt n).signal = false) ∧
          ∀ n, n < 16 → bitAt lol n = true → (t.laneAt n).lolSeen = true ∧ (t.laneAt n).lolCount = satInc (s.laneAt n).lolCount ∧
            (t.laneAt n).lolTime = s.clk.time.setWidth 48
      (low ≠ 0 → (s.linkAt k.val).rxIdle = false → (s.linkAt k.val).train.switchAt ≤ s.clk.ticks →
        canReport s (.other (0x90000 + k.val)) 0x0B 5 (BitVec.ofNat 16 k.val) → ∃ t, exec (.los { low := low, lol := lol, high := 0 }) s = .next t ∧ down t 1 0x0B) ∧
      (low = 0 → lol ≠ 0 → canReport s (.other (0x90000 + k.val)) 0x0C 5 (BitVec.ofNat 16 k.val) →
        ∃ t, exec (.lol lol) s = .next t ∧ down t 2 0x0C)) ∧
    (∀ (q : Fin 4) (pll : Option Bool) (s : State), s.running = true →
      let x := s.quadAt q.val
      let only (t : State) : Prop := ∀ j, j ≠ q.val → t.quadAt j = s.quadAt j
      (pll = none ∨ x.powered = true → canReport s (.other (0x90020 + q.val)) 0x14 6 (BitVec.ofNat 16 q.val) →
        ∃ t, exec (.refLoss q pll) s = .next t ∧ only t ∧
          reportOf s 0x14 6 (BitVec.ofNat 16 q.val) 2 (if pll = none then 5 else 6) ∈ t.cairn.queue ∧
          (pll = none → t.quadAt q.val = { x with ref := false, refOk := false, pllA := false, pllB := false, refLost := true, refLosses := satInc x.refLosses }) ∧
          (pll = some true → t.quadAt q.val = { x with pllB := false, pllLost := true, pllLosses := satInc x.pllLosses }) ∧
          (pll = some false → t.quadAt q.val = { x with pllA := false, pllLost := true, pllLosses := satInc x.pllLosses }) ∧
          (∀ k, k < 16 → (∃ n ∈ (s.linkAt k).lanes, n / 4 = q.val) → (s.linkAt k).state = 3 ∨ (s.linkAt k).state = 4 ∨ (s.linkAt k).state = 5 →
            (t.linkAt k).state = 1 ∨ (t.linkAt k).state = 2) ∧
          ((∀ k, k < 16 → ∀ n ∈ (s.linkAt k).lanes, n / 4 ≠ q.val) → t = { s with quads := t.quads, cairn := { s.cairn with queue := t.cairn.queue } })) ∧
      (∃ t, exec (.refRecovery q) s = .next t ∧ only t ∧ t = { s with quads := t.quads } ∧
        t.quadAt q.val = { x with ref := true, refOk := true, pllA := x.powered, pllB := x.powered })) ∧
    (∀ (q : Fin 4) (code : BitVec 6) (inRange : Bool) (s : State), s.running = true → s.quadNeeded q.val = true → (s.quadAt q.val).powered = false →
      (s.quadAt q.val).ref = true →
      ∃ t, exec (.quadPowerUpDone q code inRange) s = .next t ∧ (∀ j, j ≠ q.val → t.quadAt j = s.quadAt j) ∧
        t.quadAt q.val =
          { s.quadAt q.val with
            refOk := true, pllA := inRange, pllB := inRange, calDone := true, powered := inRange, calFail := (s.quadAt q.val).calFail || !inRange,
            calCode := code, calTime := s.clk.time.setWidth 48, waiters := [] } ∧
        ((s.quadAt q.val).waiters = [] → t = { s with quads := t.quads }))) ∧
  (∀ (n : Fin 16) (s : State), s.running = true →
      let x := s.laneAt n.val
      (∀ fill, x.test = 2 ∨ x.test = 3 ∨ x.test = 4 → x.chkLocked = false →
        ∃ t, exec (.checkerLock { lane := n, fill := fill }) s = .next t ∧ onlyLane s t n.val ∧
          t.laneAt n.val = { x with chkLocked := true, signal := x.signal || x.test != 4, chk := if x.test = 4 then x.gen else fill }) ∧
      (∀ symbols symErrs bitErrs, x.test = 2 ∨ x.test = 3 ∨ x.test = 4 → x.chkLocked = true →
        let lost := decide (256 < symErrs.toNat)
        ∃ t, exec (.checkerLockLost n symbols symErrs bitErrs) s = .next t ∧ onlyLane s t n.val ∧
          t.laneAt n.val =
            { x with
              chkSymbols := if lost then x.chkSymbols + symbols.setWidth 64 else x.chkSymbols, chkSymErr := x.chkSymErr + symErrs.setWidth 64,
              chkBitErr := x.chkBitErr + bitErrs.setWidth 64, chkErr := x.chkErr || symErrs != 0,
              chkLocked := !lost, chkLost := x.chkLost || lost, chkLosses := if lost then satInc x.chkLosses else x.chkLosses }) ∧
      (x.armed = true → x.injectAt ≤ s.clk.ticks → s.injects n.val = true →
        let told : Lane := { x with injections := satInc x.injections, armed := x.period != 0, injectAt := s.clk.ticks + 100 * x.period.toNat }
        (x.inject = 1 ∨ x.inject = 2 →
          ∃ t, exec (.injection n) s = .next t ∧ onlyLane s t n.val ∧
            t.laneAt n.val = { told with inj := max x.inj (if x.inject = 1 then 1 else x.burstLen.toNat) } ∧
            ∀ y, (t.laneAt n.val).squelched = false →
              ((t.laneAt n.val).send y).out = (moveSyms (t.laneAt n.val).inj y).map levelOf :: (t.laneAt n.val).out) ∧
        (∀ k, x.inject = 3 → s.laneLink n.val = some k →
          ∃ t, exec (.injection n) s = .next t ∧ t = { s with lanes := t.lanes, links := t.links } ∧ (∀ j, j ≠ n.val → t.laneAt j = s.laneAt j) ∧
            t.laneAt n.val = told ∧ (∀ j, j ≠ k → t.linkAt j = s.linkAt j) ∧
            t.linkAt k = { s.linkAt k with tx := { (s.linkAt k).tx with crcFlips := (s.linkAt k).tx.crcFlips + 1 } })))

/-- Spec/11 R280, R281, R288; spec/12 R327; spec/13 R353; spec/11 R297: a lockstep disagreement, an expired watchdog or a lock held too long stops the
active pair with its cairn, and the standby takes the active role with STANDBY_STATE 3 and a NO_STANDBY cairn; with no usable standby the mailboxes
close. A pair that has loaded shadows again, or restarts Base Camp where none executed; a failed load leaves STANDBY_STATE 3. -/
def Obligations.CampPairsTakeOver : Prop :=
  (∀ (s : State), s.running = true → s.camp.execOf s.camp.active = true → s.camp.standby = 0 ∨ s.camp.standby = 1 →
    (∀ u, s.camp.testing = some u → u.kind ≠ 3) →
    let b := s.camp.active
    let takenOver (t : State) : Prop :=
      t.camp.active = (!b) ∧ t.camp.standby = 3 ∧ t.camp.execOf b = false ∧ t.camp.execOf (!b) = s.camp.execOf (!b) ∧ t.camp.execSeq = s.camp.copySeq ∧
        t.camp.takeovers = satInc s.camp.takeovers ∧ t.xl.jobs = []
    (∃ t, exec (.campLockstep b) s = .next t ∧ takenOver t) ∧ (∃ t, exec (.campWatchdogExpiry b) s = .next t ∧ takenOver t) ∧
      ∃ t, exec .lockLimit s = .next t ∧ takenOver t ∧ t.arb.lock = none) ∧
  ∀ (s : State), s.running = true → s.mem.queued = [] → s.mem.waits = [] → s.xl.jobs = [] → s.xl.moving = none → s.camp.testing = none →
    s.cairn.queue.length < 63 → s.secondFault = false → (∀ q ∈ s.cairn.queue, q.kind ≠ 13) →
    let b := s.camp.active
    let fault (x : Bool) (d : BitVec 32) : Report := reportOf s 0x15 13 ((bit x).setWidth 16) 2 d
    let alone (x : Bool) : Report := reportOf s 0x1B 13 ((bit x).setWidth 16) 3 6
    let taken (t : State) (d : BitVec 32) : Prop :=
      t = { s with camp := t.camp, boot := t.boot, arb := t.arb, rat := { s.rat with waiters := t.rat.waiters }, quads := t.quads, links := t.links,
                   pwr := { s.pwr with save := t.pwr.save }, cairn := t.cairn } ∧
        t.camp = { (s.camp.setExec b false).setOk b false with
          active := !b, standby := 3, staged := none, forced := false, takeovers := satInc s.camp.takeovers, execSeq := s.camp.copySeq } ∧
        t.arb = { s.arb with lock := if d = 2 then none else s.arb.lock } ∧
        (s.camp.staged = none → t.boot = s.boot) ∧ (∀ x, s.camp.staged = some x → t.boot.fwVersion = x.version ∧ t.boot.secVersion = x.secVer) ∧
        t.cairn.queue = s.cairn.queue ++ [fault b d, alone (!b)]
    (s.camp.execOf b = true → s.camp.standby = 0 ∨ s.camp.standby = 1 →
      (∃ t, exec (.campLockstep b) s = .next t ∧ taken t 0) ∧ (∃ t, exec (.campWatchdogExpiry b) s = .next t ∧ taken t 1) ∧
        ∃ t, exec .lockLimit s = .next t ∧ taken t 2) ∧
    (s.camp.execOf b = true → s.camp.standby = 3 →
      ∃ t, exec (.campLockstep b) s = .next t ∧ t = { s with camp := t.camp, mbx := t.mbx, rope := t.rope, cairn := t.cairn } ∧
        t.camp = { (s.camp.setExec b false).setOk b false with forced := false } ∧ (∀ m, m < 34 → (t.mbxAt m).isOpen = false) ∧
        t.rope = { s.rope with noCampAt := some (s.rope.noCampAt.getD s.clk.ticks) } ∧ t.cairn.queue = s.cairn.queue ++ [fault b 0]) ∧
    (s.camp.execOf (!b) = true →
      ∃ t, exec (.campWatchdogExpiry (!b)) s = .next t ∧ t = { s with camp := t.camp, cairn := t.cairn } ∧
        t.camp = { (s.camp.setExec (!b) false).setOk (!b) false with standby := 3, staged := none } ∧
        t.cairn.queue = s.cairn.queue ++ [fault (!b) 1, alone b]) ∧
    (s.camp.standby = 2 → s.camp.execOf b = true →
      (∃ t, exec (.campLoadDone true) s = .next t ∧ t = { s with camp := { (s.camp.setExec (!b) true).setOk (!b) true with standby := 0, copySeq := s.camp.execSeq } }) ∧
        ∃ t, exec (.campLoadDone false) s = .next t ∧ t = { s with camp := { s.camp.setOk (!b) false with standby := 3 }, cairn := t.cairn } ∧
          t.cairn.queue = s.cairn.queue ++ [alone b]) ∧
    (s.camp.standby = 2 → s.camp.execOf b = false →
      ∃ t, exec (.campLoadDone true) s = .next t ∧ t = { s with camp := t.camp, mbx := t.mbx, rope := { s.rope with noCampAt := none } } ∧
        t.camp = { (s.camp.setExec b true).setOk b true with standby := 3 } ∧ ∀ m, m < 34 → (t.mbxAt m).isOpen = true)

/-- Spec/13 R336, R337, R351; spec/14 R371: a ridge that fails a check or makes no progress reports, is isolated (ROLE 3) and its position moves to the
spare, which takes its serial counter and its queued items; with no spare the position stays unserved from then on. ISOLATE does the same without a
report. The details are of items whose logbook entries are intact, with no walk outstanding and no record waiting. -/
def Obligations.RidgeFaultsMoveThePosition : Prop :=
  (∀ (r : Fin 5) (s : State), s.running = true → XlatShape s.xl → (s.ridgeAt r.val).role = 0 ∨ (s.ridgeAt r.val).role = 1 →
    let p := (s.ridgeAt r.val).position.toNat
    let out (t : State) : Prop :=
      (t.ridgeAt r.val).role = 3 ∧ (t.ridgeAt r.val).passedTest = false ∧
        ((s.ridgeAt r.val).role = 0 → s.camp.testing = none →
          (∀ k, s.spare = some k → t.ridgeOf p = k ∧ (t.ridgeAt k).role = 0 ∧ (t.posAt p).unserved = none) ∧
          (s.spare = none → (t.posAt p).unserved = some ((s.posAt p).unserved.getD s.clk.ticks)))
    (∀ d, ∃ t, exec (.ridgeCheck r d) s = .next t ∧ out t) ∧ (∃ t, exec (.ridgeTimeout r) s = .next t ∧ out t) ∧
      ∀ (data : Word), bitAt data 31 = true → bitAt data 0 = false → (field data 16 8 : BitVec 8).toNat = r.val →
        ∃ t, exec (.isolate data) s = .next t ∧ out t) ∧
  ∀ (r : Fin 5) (s : State), s.running = true → XlatShape s.xl → (s.ridgeAt r.val).role = 0 → s.secondFault = false →
    let p := (s.ridgeAt r.val).position.toNat
    s.camp.testing = none → (s.posAt p).walks = [] → (s.posAt p).waits = [] → (s.posAt p).unserved = none → (∀ i ∈ (s.posAt p).items, s.itemIntact i = true) →
    let others (t : State) : Prop :=
      t = { s with xl := t.xl, arb := t.arb, cairn := t.cairn, rat := t.rat, pair := t.pair } ∧ ∀ q, q ≠ p → t.posAt q = s.posAt q
    let moved (t : State) (k : Nat) : Prop :=
      others t ∧ (∀ j, j ≠ r.val → j ≠ k → t.ridgeAt j = s.ridgeAt j) ∧
        t.ridgeAt r.val = { s.ridgeAt r.val with role := 3, passedTest := false } ∧
        t.ridgeAt k = { s.ridgeAt k with role := 0, position := BitVec.ofNat 2 p } ∧ t.ridgeOf p = k ∧ (t.posAt p).serial = (s.posAt p).serial ∧
        (t.posAt p).items = (s.posAt p).items.map s.restoreItem ∧ (t.posAt p).moves = (s.posAt p).moves ∧ (t.posAt p).unserved = none
    let unserved (t : State) : Prop :=
      others t ∧ (∀ j, j ≠ r.val → t.ridgeAt j = s.ridgeAt j) ∧ t.ridgeAt r.val = { s.ridgeAt r.val with role := 3, passedTest := false } ∧
        t.posAt p = { s.posAt p with unserved := some s.clk.ticks }
    let seen (t : State) (cause : BitVec 8) (d : BitVec 32) : Prop :=
      ∃ l, t.cairn.queue = s.cairn.queue ++ reportOf s cause 1 (BitVec.ofNat 16 r.val) 2 d :: l
    (∀ k d, s.spare = some k → canReport s (.ridge p) 0x03 1 (BitVec.ofNat 16 r.val) →
      ∃ t, exec (.ridgeCheck r d) s = .next t ∧ moved t k ∧ seen t 0x03 d) ∧
    (∀ k, s.spare = some k → canReport s (.ridge p) 0x04 1 (BitVec.ofNat 16 r.val) →
      ∃ t, exec (.ridgeTimeout r) s = .next t ∧ moved t k ∧ seen t 0x04 (BitVec.ofNat 2 p ++ (s.posAt p).serial)) ∧
    (∀ d, s.spare = none → canReport s (.ridge p) 0x03 1 (BitVec.ofNat 16 r.val) →
      ∃ t, exec (.ridgeCheck r d) s = .next t ∧ unserved t ∧ seen t 0x03 d) ∧
    (∀ k (data : Word), s.spare = some k → bitAt data 31 = true → bitAt data 0 = false → (field data 16 8 : BitVec 8).toNat = r.val →
      ∃ t, exec (.isolate data) s = .next t ∧ moved t k ∧ t.cairn = s.cairn)

/-- Spec/13 R336, R337, R352; spec/14 R371: a belay that fails a check or stalls reports, is isolated, and its partner begins to cover it; where the
partner cannot, it is isolated without cover. The operation it was applying is executed again from its landing entry, marked where that entry is not intact
(spec/13 R352, R358). A unit named by ISOLATE is isolated without a report, and ISOLATE without bit 31 does nothing. -/
def Obligations.BelayFaultsStartCover : Prop :=
  (∀ (b : Fin 256) (s : State), s.running = true → (s.belAt b.val).role = 0 ∨ (s.belAt b.val).role = 1 →
    let mate := (s.belAt (b.val ^^^ 1)).role
    let out (t : State) : Prop :=
      if ((s.belAt b.val).role = 0 ∧ mate = 0) ∨ ((s.belAt b.val).role = 1 ∧ mate = 3) then
        (t.belAt b.val).role = 2 ∧ (t.belAt b.val).passedTest = false ∧ (t.belAt (b.val ^^^ 1)).role = 1 ∧
          (t.belAt (b.val ^^^ 1)).coverSince = s.clk.time.setWidth 48
      else (t.belAt b.val).role = 4 ∧ (t.belAt b.val).isolated = true ∧ (t.belAt b.val).uncovered = true ∧ (t.belAt b.val).passedTest = false
    (∀ d, ∃ t, exec (.belayCheck b d) s = .next t ∧ out t) ∧ (∀ a, ∃ t, exec (.belayStall b a) s = .next t ∧ out t) ∧
      ∀ (data : Word), bitAt data 31 = true → bitAt data 0 = true → (field data 16 8 : BitVec 8).toNat = b.val →
        ∃ t, exec (.isolate data) s = .next t ∧ out t) ∧
  ∀ (b : Fin 256) (s : State), s.running = true → s.secondFault = false →
    let others (t : State) : Prop :=
      t = { s with bel := t.bel, arb := t.arb, cairn := t.cairn, rat := t.rat, pair := t.pair } ∧ (∀ j, j ≠ 100 + b.val → t.arbAt j = s.arbAt j) ∧
        (t.arbAt (100 + b.val)).losses = 0 ∧ (∀ j, j ≠ b.val → j ≠ b.val ^^^ 1 → t.belAt j = s.belAt j) ∧
        ∀ k, (t.pairAt k).stack = (s.pairAt k).stack
    let covered (t : State) : Prop :=
      others t ∧
        t.belAt b.val =
          { s.belAt b.val with
            role := 2, coverSince := s.clk.time.setWidth 48, passedTest := false,
            landing := match (s.belAt b.val).landing with
              | [] => []
              | l :: rest => { l with item := (s.restoreItem l.item).replay (!s.itemIntact l.item) } :: rest } ∧
        t.belAt (b.val ^^^ 1) = { s.belAt (b.val ^^^ 1) with role := 1, coverSince := s.clk.time.setWidth 48 }
    let bare (t : State) : Prop :=
      others t ∧ t.belAt b.val = { s.belAt b.val with role := 4, isolated := true, uncovered := true, passedTest := false } ∧
        t.belAt (b.val ^^^ 1) = s.belAt (b.val ^^^ 1)
    let seen (t : State) (cause : BitVec 8) (d : BitVec 32) : Prop :=
      ∃ l, t.cairn.queue = s.cairn.queue ++ reportOf s cause 2 (BitVec.ofNat 16 b.val) 2 d :: l
    (∀ d, (s.belAt b.val).role = 0 → (s.belAt (b.val ^^^ 1)).role = 0 → canReport s (.belay b.val) 0x05 2 (BitVec.ofNat 16 b.val) →
      ∃ t, exec (.belayCheck b d) s = .next t ∧ covered t ∧ seen t 0x05 d) ∧
    (∀ a, (s.belAt b.val).role = 0 → (s.belAt (b.val ^^^ 1)).role = 0 → canReport s (.belay b.val) 0x06 2 (BitVec.ofNat 16 b.val) →
      ∃ t, exec (.belayStall b a) s = .next t ∧ covered t ∧ seen t 0x06 a) ∧
    (∀ d, (s.belAt b.val).role = 0 → (s.belAt (b.val ^^^ 1)).role = 4 → canReport s (.belay b.val) 0x05 2 (BitVec.ofNat 16 b.val) →
      ∃ t, exec (.belayCheck b d) s = .next t ∧ bare t ∧ seen t 0x05 d) ∧
    (∀ (data : Word), (s.belAt b.val).role = 0 → (s.belAt (b.val ^^^ 1)).role = 0 → bitAt data 31 = true → bitAt data 0 = true →
      (field data 16 8 : BitVec 8).toNat = b.val → ∃ t, exec (.isolate data) s = .next t ∧ covered t ∧ t.cairn = s.cairn) ∧
    (∀ (data : Word), bitAt data 31 = false → exec (.isolate data) s = .next s)

/-- Spec/14 R380; spec/13 R336, R342, R354: a scrub read of a good word changes nothing but the place of the scan and the belay's ration; a corrected word is
reported with severity 0 and its index, bit 31 set where it corrected in the pass before too; an uncorrectable one with severity 2. A source whose
two configuration copies have failed is disabled; a logbook entry that fails is no longer intact. Where a word of a region lies is the model's (log 9).
Spec/13 R338, R340, R343: the oldest report of the merging queue merges into the valid record of its CAUSE, UNIT_KIND and UNIT, adding to COUNT and
raising SEVERITY; else it makes a record in the slot R340 gives, or is lost where none may be taken. CAIRN_ACK clears NEW. -/
def Obligations.ScrubsAndReportsReachTheCairns : Prop :=
  (∀ (region : Fin 13) (index : Nat) (s : State), s.running = true → index < sramWords region →
      let unit : BitVec 16 := BitVec.ofNat 16 region.val
      let word : Nat × Nat := (region.val, index)
      let above : Prop := s.xl.scrubAt.1 < region.val ∨ (s.xl.scrubAt.1 = region.val ∧ s.xl.scrubAt.2 < index)
      let last := if above then s.xl.scrubLast else s.xl.scrubNow
      let before := if above then s.xl.scrubNow else []
      let read (t : State) : Prop := t.xl = { s.xl with scrubAt := word, scrubLast := last, scrubNow := t.xl.scrubNow }
      let good := reportOf s 0x01 4 unit 0 (BitVec.ofNat 32 index ||| (if word ∈ last then 0x80000000 else 0))
      let bad := reportOf s 0x02 4 unit 2 (BitVec.ofNat 32 index)
      (∀ both, ∃ t, exec (.scrubRead region index none both) s = .next t ∧ t = { s with rat := t.rat, xl := t.xl } ∧ read t ∧ t.xl.scrubNow = before ∧
        (region ≠ 5 → region ≠ 8 → t.rat = s.rat)) ∧
      (∀ both, canReport s (.other (0xA0000 + region.val)) 0x01 4 unit →
        ∃ t, exec (.scrubRead region index (some false) both) s = .next t ∧ good ∈ t.cairn.queue ∧ word ∈ t.xl.scrubNow ∧
          (∀ w, w ≠ word → (w ∈ t.xl.scrubNow ↔ w ∈ before)) ∧
          (region ≠ 2 → t = { s with rat := t.rat, xl := t.xl, cairn := { s.cairn with queue := t.cairn.queue } } ∧ read t ∧
            t.cairn.queue = s.cairn.queue ++ [good])) ∧
      (∀ both, canReport s (.other (0xA0000 + region.val)) 0x02 4 unit →
        ∃ t, exec (.scrubRead region index (some true) both) s = .next t ∧ bad ∈ t.cairn.queue ∧ t.xl.scrubAt = word) ∧
      (region = 0 → canReport s (.other 0xA0000) 0x02 4 0 → s.sameFault (faultKey 0x02 4 0) = false →
        ∃ t, exec (.scrubRead region index (some true) false) s = .next t ∧ t = { s with xl := t.xl, cairn := t.cairn } ∧ read t ∧
          (∃ l, t.cairn.queue = s.cairn.queue ++ bad :: l) ∧ t.cairn.faultTime = s.clk.time.setWidth 48 ∧ t.cairn.faultAt = s.clk.ticks) ∧
      (region = 0 →
        ∃ t, exec (.scrubRead region index (some true) true) s = .next t ∧
          t = { s with xl := t.xl, cairn := t.cairn, rope := t.rope, wired := { s.wired with src := t.wired.src } } ∧ read t ∧
          bitAt t.rope.roundSeen 5 = true ∧ (t.srcAt (index % 16384 / 2)).cfgBad = true ∧ (t.srcAt (index % 16384 / 2)).offered = false ∧
          (t.srcAt (index % 16384 / 2)).ready = false ∧ ∀ n, n ≠ index % 16384 / 2 → t.srcAt n = s.srcAt n) ∧
      (∀ e, region = 10 → (s.log.filter (fun e => !e.2.overflow))[index / 2]? = some e →
        ∃ t, exec (.scrubRead region index (some true) false) s = .next t ∧ t = { s with xl := t.xl, cairn := t.cairn, log := t.log } ∧ read t ∧
          t.logAt e.1 = { s.logAt e.1 with intact := false } ∧ ∀ k, k ≠ e.1 → t.logAt k = s.logAt k)) ∧
  ((∀ (r : Report) (rest : List Report) (s : State), s.running = true → s.cairn.queue = r :: rest →
      let only (t : State) (i : Nat) : Prop :=
        (s.cairn.notify0.enable = false → s.cairn.notify1.enable = false → t = { s with cairn := t.cairn }) ∧
          (s.cairn.held = [] → t.cairn.queue = rest ∧ t.cairn.held = []) ∧ ∀ j, j ≠ i → t.cairnAt j = s.cairnAt j
      let merges (t : State) (n : BitVec 64) : Prop := s.cairn.held = [] → t.cairn.merged = n
      (∀ i, s.recordOf r = none → s.cairnSlot = some i →
        ∃ t, exec .cairnRecord s = .next t ∧ only t i ∧
          t.cairnAt i =
            { cause := r.cause, sev := r.sev.setWidth 8, valid := true, new := true, kind := r.kind, unit := r.unit, count := r.count,
              firstDetail := r.detail, firstTime := r.first, lastTime := r.latest, lastDetail := r.last } ∧
          t.cairn.created = true ∧ t.cairn.lastNew = BitVec.ofNat 9 i ∧ t.cairn.reports = s.cairn.reports + r.count.setWidth 64 ∧
          merges t s.cairn.merged) ∧
      (∀ i, s.recordOf r = some i →
        ∃ t, exec .cairnRecord s = .next t ∧ only t i ∧
          t.cairnAt i =
            { s.cairnAt i with
              count := satAdd (s.cairnAt i).count r.count.toNat, lastTime := r.latest, lastDetail := r.last,
              sev := if (s.cairnAt i).sev.ult (r.sev.setWidth 8) then r.sev.setWidth 8 else (s.cairnAt i).sev } ∧
          merges t (s.cairn.merged + 1) ∧ t.cairn.reports = s.cairn.reports + r.count.setWidth 64) ∧
      (s.recordOf r = none → s.cairnSlot = none → s.cairn.held = [] →
        ∃ t, exec .cairnRecord s = .next t ∧
          t = { s with cairn := { s.cairn with queue := rest, lost := s.cairn.lost + 1, lostCause := r.cause, overflowed := true } })) ∧
    (∀ (i : BitVec 9) (s : State), s.running = true → i.toNat < 384 → (s.cairnAt i.toNat).valid = true →
      ∃ t, exec (.cairnAck i) s = .next t ∧ t = { s with cairn := { s.cairn with recs := t.cairn.recs } } ∧
        t.cairnAt i.toNat = { s.cairnAt i.toNat with new := false } ∧ ∀ j, j ≠ i.toNat → t.cairnAt j = s.cairnAt j))

/-- Spec/13 R361 to R363: a self-check round that passes toggles the heartbeat and starts one that is armed; a clock check that fails stops it, as
HB_STOP does: HB_STOP_CAUSE and BOSC_TIME are kept, every up link goes down with SQUELCH and every lane is squelched.
Spec/01 R27; spec/14 R383, R384: a Rope output is the OR of the inputs mapped to it; a pulse test of a mapped input that is 0, as is its output, runs
for 10 BOSC cycles, an unmapped input gives RESULT 5 and one that is busy RESULT 4.
Spec/13 R336, R362; spec/15 R390, R391: a clock check that fails is kept for the self-check round and reported, TCLK's moving the time counter to
BOSC; it clears when the check passes again. A time load sets the counter, but after FAST_READY not backwards. -/
def Obligations.HeartbeatRopeAndClocksAct : Prop :=
  (∀ (s : State), s.aon = true → s.rope.hbRunning = true ∨ s.rope.hbArmed = true →
      (s.roundCause = none →
        ∃ t, exec .selfCheckRound s = .next t ∧
          t = { s with rope := { s.rope with roundSeen := 0, hbRunning := true, hbArmed := false, hbOut := !s.rope.hbOut } }) ∧
      (s.clk.fail ≠ 0 → ∃ t, exec .selfCheckRound s = .next t ∧ heartStopped s t 1 ∧ t.rope.roundSeen = 0) ∧
      (∀ (data : Word), bitAt data 0 = true → ∃ t, exec (.hbStop data) s = .next t ∧ heartStopped s t 7 ∧ t.rope.roundSeen = s.rope.roundSeen)) ∧
  ((∀ (i : Fin 64) (level : Bool) (s : State),
      ∃ t, exec (.ropeInput i level) s = .next t ∧ t = { s with rope := t.rope } ∧
        (∀ j, j < 64 → bitAt t.rope.inputs j = if j = i.val then level else bitAt s.rope.inputs j) ∧ t.rope.map = s.rope.map ∧
        (s.rope.serving = true → s.rope.pulseUntil = none →
          ∀ o, o < 16 → (bitAt t.ropeOutputs o = true ↔
            ∃ j, j < 64 ∧ bitAt t.rope.inputs j = true ∧ (s.ropeOf j).mapped = true ∧ (s.ropeOf j).output.toNat = o))) ∧
    (∀ (data : Word) (seen : Bool) (s : State), s.aon = true → s.rope.serving = true → s.rope.pulseUntil = none → bitAt data 31 = true →
      let i := (field data 0 6 : BitVec 6).toNat
      ((s.ropeOf i).mapped = false →
        ∃ t, exec (.pulse 0 data seen) s = .next t ∧
          t = { s with rope := { s.rope with pulseInput := field data 0 6, pulseOutput := 0, pulseResult := 5 } }) ∧
      ((s.ropeOf i).mapped = true → bitAt s.rope.inputs i = true →
        ∃ t, exec (.pulse 0 data seen) s = .next t ∧
          t = { s with rope := { s.rope with pulseInput := field data 0 6, pulseOutput := (s.ropeOf i).output, pulseResult := 4 } }) ∧
      ((s.ropeOf i).mapped = true → bitAt s.rope.inputs i = false → bitAt s.ropeOutputs (s.ropeOf i).output.toNat = false →
        ∃ t, exec (.pulse 0 data seen) s = .next t ∧
          t = { s with rope := { s.rope with
            pulseInput := field data 0 6, pulseOutput := (s.ropeOf i).output, pulseResult := 1, pulseUntil := some (s.clk.bosc + 10),
            pulseSeen := seen, pulseDist := false, pulseTests := satInc s.rope.pulseTests } }) ∧
      ∀ ring : BitVec 2, ring ≠ 0 → exec (.pulse ring data seen) s = .next s)) ∧
  ((∀ (w : Fin 5) (s : State), s.aon = true → s.clk.checked = true → bitAt s.clk.fail w.val = false → canReport s (.other 0xB0000) 0x14 0 0 →
      ∃ t, exec (.clockFault w) s = .next t ∧
        t = { s with clk := { s.clk with fail := setBit s.clk.fail w.val true, faultSeen := true, timeOnBosc := s.clk.timeOnBosc || w.val == 4 },
                     rope := { s.rope with roundSeen := setBit s.rope.roundSeen 1 true }, cairn := { s.cairn with queue := t.cairn.queue } } ∧
        t.cairn.queue = s.cairn.queue ++ [reportOf s 0x14 0 0 2 (BitVec.ofNat 32 w.val)]) ∧
    (∀ (w : Fin 5) (s : State), s.aon = true → bitAt s.clk.fail w.val = true → s.pwr.warmHeld = false →
      ∃ t, exec (.clockFaultClear w) s = .next t ∧
        t = { s with clk := { s.clk with fail := setBit s.clk.fail w.val false, timeOnBosc := s.clk.timeOnBosc && w.val != 4 } } ∧
        bitAt t.clk.fail w.val = false) ∧
    (∀ (v : Word) (s : State), s.pwr.coldHeld = false → s.pwr.off = false →
      (s.boot.fastReady = false ∨ s.clk.time.toNat ≤ v.toNat →
        ∃ t, exec (.timeLoad v) s = .next t ∧ t = { s with clk := { s.clk with time := v, timeLoads := satInc s.clk.timeLoads } }) ∧
      (s.boot.fastReady = true → v.toNat < s.clk.time.toNat →
        ∃ t, exec (.timeLoad v) s = .next t ∧
          t = { s with clk := { s.clk with timeRefused := satInc s.clk.timeRefused, timeBack := true } })))

/-- Spec/15 R398, R399: a cold reset returns every field to its reset value; only the ROM and the levels of the input pins (and the model's own queue and draw
count) stay. At its release the straps are sampled, the Rope serves on the strapped map, but in production mode, and the heartbeat is armed; SRAM_ZEROED follows, then
FAST_READY: POLUIF_AVAIL rises, but in production mode (spec/14 R385), Camp A runs and reads the platform descriptor at FW_IMAGE_BASE (spec/11 R294), the
wired path samples its lines, an asserted level source becoming pending. -/
def Obligations.ColdResetAndStartUp : Prop :=
  (∀ (s : State), Tbl.wf Source.reset s.wired.src = true → Tbl.wf Target.reset s.tgt = true → Tbl.wf PassPort.reset s.pass = true →
    Tbl.wf Quad.reset s.quads = true →
    ∃ t, exec .coldReset s = .next t ∧
      t = { State.reset with
        pending := s.pending, freeCtr := s.freeCtr, rom := s.rom, wired := { Wired.reset with src := t.wired.src }, tgt := t.tgt, pass := t.pass,
        quads := t.quads,
        rope := { Rope.reset with inputs := s.rope.inputs } } ∧
      (∀ n, t.srcAt n = { Source.reset with line := (s.srcAt n).line }) ∧ (∀ n, t.tgtAt n = { Target.reset with present := (s.tgtAt n).present }) ∧
      (∀ n, t.passAt n = { PassPort.reset with resetN := (s.passAt n).resetN, pclk := (s.passAt n).pclk.map (fun _ => 0) }) ∧ ∀ n, t.quadAt n = { Quad.reset with ref := (s.quadAt n).ref }) ∧
  (∀ (senior ropeDefault tapMode : Bool) (fwBase : BitVec 40) (s : State), s.pwr.coldHeld = true →
    ∃ t, exec (.coldResetRelease senior ropeDefault tapMode fwBase) s = .next t ∧
      t = { s with
        pwr := { s.pwr with coldHeld := false }, straps := { senior := senior, ropeDefault := ropeDefault, tapMode := tapMode, fwBase := fwBase },
        rope := { s.rope with serving := !tapMode, map := t.rope.map, seen := s.rope.inputs, hbArmed := true },
        boot := { s.boot with aonUp := true }, clk := { s.clk with checked := true } } ∧
      ∀ i, i < 64 → (t.ropeOf i).mapped = ropeDefault ∧ (ropeDefault = true → (t.ropeOf i).output.toNat = i / 4)) ∧
  (∀ (s : State), s.aon = true → s.pwr.off = false →
    ∃ t, exec .sramZeroed s = .next t ∧ t = { s with boot := { s.boot with sramZeroed := true } }) ∧
  (∀ (s : State), s.aon = true → s.pwr.off = false → s.boot.sramZeroed = true → s.boot.fastReady = false →
    ∃ t, exec .fastReady s = .next t ∧
      t = { s with
        boot := { s.boot with fastReady := true }, pwr := { s.pwr with avail := !s.straps.tapMode },
        camp := { s.camp with execA := true, aOk := true }, wired := { s.wired with src := t.wired.src, live := true }, pair := t.pair, cairn := t.cairn,
        mem := t.mem, rat := t.rat, arb := t.arb } ∧
      (∀ i, i < 2 → ∃ r, t.asks r ∧ r.owner = .boot ∧ r.write = false ∧ r.above = true ∧
        r.addr = s.straps.fwBase ++ (BitVec.ofNat 7 i)) ∧
      ∀ n, isReserved n = false → (s.stormOf n).2 = 0 → (t.srcAt n).line = (s.srcAt n).line ∧ (t.srcAt n).ref = (s.srcAt n).line ∧
        (t.srcAt n).en = (s.srcAt n).en ∧
        ((s.srcAt n).isEdge n = false → (s.srcAt n).act = false →
          (t.srcAt n).pend = (if (s.srcAt n).line ≠ (s.srcAt n).polarity then true else false)))

/-- Spec/11 R292 to R294, R299: the boot ROM checks the platform descriptor, the image and its signature; a failed check leaves a CAMP_BOOT cairn whose
DETAIL is the step and the boot ROM serving every mailbox. A boot that succeeds takes the fields of descriptor and image, starts Camp B, opens the
mailboxes, lets the Pass ports go live and writes the wake record's header, armed. Spec/15 R411: an armed header found is reported as SAVE_SKIPPED.
Spec/11 R301; spec/04 R117: ENTROPY_READY rises, and where Camp is ready Tamri changes the keys once (KEY0 0, EPOCH and REKEYS one more); a health
test that fails drops it, holds the authenticated links that are down, is counted and reported; the first four start-up failures are silent. -/
def Obligations.BootAndEntropyAct : Prop :=
  (∀ (d : BitVec 512) (i : Image) (k : BitVec 32) (h w : BitVec 512) (s : State), s.running = true → s.camp.execA = true → s.boot.campReady = false →
      s.boot.failed = false →
      let others (l : List MemReq) : List MemReq := l.filter (fun r => r.owner != .boot)
      let mem : Mem := { s.mem with waits := others s.mem.waits, queued := others s.mem.queued, out := others s.mem.out }
      let lines := (imgCodeLength i).toNat / 32
      let read (n : Nat) : Rations := { s.rat with reads := s.rat.reads + BitVec.ofNat 64 n }
      let fails (t : State) (step : BitVec 32) : Prop :=
        t = { s with boot := { s.boot with failed := true }, mbx := t.mbx, cairn := t.cairn, camp := t.camp, mem := mem,
                     rat := read (if step = 1 then 2 else if step = 2 then 6 else 6 + lines) } ∧
          t.cairn.queue = s.cairn.queue ++ [reportOf s 0x16 13 0 2 step] ∧ ∀ m, m < 34 → t.mbxAt m = { s.mbxAt m with isOpen := true }
      (canReport s (.other 0x80000) 0x16 13 0 →
        (descOk d = false → ∃ t, exec (.boot d i k h w) s = .next t ∧ fails t 1 ∧ t.camp = s.camp) ∧
        (descOk d = true → bootImageOk i = false → ∃ t, exec (.boot d i k h w) s = .next t ∧ fails t 2 ∧ t.camp = s.camp) ∧
        (descOk d = true → bootImageOk i = true → imgSigned s.rom i = false →
          ∃ t, exec (.boot d i k h w) s = .next t ∧ fails t 3 ∧
            t.camp = { s.camp with verifyRuns := s.camp.verifyRuns + 1, verifyBad := s.camp.verifyBad + 1, lastVerify := false })) ∧
      (descOk d = true → bootImageOk i = true → imgSigned s.rom i = true → s.boot.entropy = false →
        ∃ t, exec (.boot d i k h w) s = .next t ∧
          t = { s with boot := t.boot, camp := t.camp, mem := t.mem, arb := t.arb,
                       rat := { read (10 + lines) with
                         ready := true, since := s.rat.round, memKHz := k, quota := t.rat.quota, exhausted := t.rat.exhausted,
                         exhaustSeen := t.rat.exhaustSeen },
                       clk := { s.clk with memclkOk := true }, mbx := t.mbx, pass := t.pass, pwr := t.pwr, cairn := t.cairn, freeCtr := t.freeCtr } ∧
          t.camp = { s.camp with execB := true, bOk := true, standby := 0, copySeq := s.camp.execSeq, verifyRuns := s.camp.verifyRuns + 1, lastVerify := true } ∧
          t.boot.campReady = true ∧ t.boot.failed = false ∧ t.boot.level = imgLevel i ∧ t.boot.fwVersion = imgVersion i ∧
          t.boot.secVersion = imgSecVersion i ∧ t.boot.tableBase = field d 64 64 ∧ t.boot.tableSize = field d 128 64 ∧
          t.boot.nvmWindow = field d 192 64 ∧ t.boot.nvmSize = field d 256 32 ∧ t.boot.spillOpen = descSpillOpen d ∧ t.boot.tableFree = 0 ∧
          (t.boot.zeroing.map (fun z => z.pages)).sum = ((field d 128 64 : BitVec 64).toNat - fixedBytes (descSpillOpen d)) / 4096 ∧ (∀ m, m < 34 → t.mbxAt m = { s.mbxAt m with isOpen := true }) ∧
          (s.pwr.state = 0 → ∀ n, n < 8 → (s.passAt n).resetN = true → (s.passAt n).live = false →
            t.passAt n = { s.passAt n with live := true, credit := 0, owed := 32 - (s.passAt n).buf.length }) ∧
          t.pwr.armed = true ∧ t.pwr.saveSeq = (if headerGood h then field h 64 32 else 0) + 1 ∧
          t.headerAsked { NvHeader.reset with state := 1, saveSeq := t.pwr.saveSeq } ∧ (∀ r, t.asks r → r.owner ≠ .boot) ∧
          (headerGood h = false ∨ field h 32 8 = (2 : BitVec 8) → t.cairn = s.cairn) ∧
          (headerGood h = true → field h 32 8 = (1 : BitVec 8) → slotGood h w = true → canReport s (.other 0) 0x17 0 0 →
            t.cairn.queue = s.cairn.queue ++ [reportOf s 0x17 0 0 1 ((field w 128 8 : BitVec 8).setWidth 32)]) ∧
          (headerGood h = true → field h 32 8 = (1 : BitVec 8) → slotGood h w = false → canReport s (.other 0) 0x17 0 0 →
            t.cairn.queue = s.cairn.queue ++ [reportOf s 0x17 0 0 1 0x100]))) ∧
  ((∀ (s : State), s.pwr.off = false → s.aon = true → s.boot.entropy = false →
      ∃ t, exec .entropyReady s = .next t ∧ t.boot = { s.boot with entropy := true } ∧ t.camp.healthFailed = 0 ∧
        (s.running = true → s.boot.campReady = true → s.camp.rekeyed = false → s.served = true → s.xl.sweep = false → (∀ q ∈ s.xl.pos, q.moves = []) →
          t.camp.rekeyed = true ∧ t.xl.key0 = false ∧ t.xl.sweep = true ∧ t.xl.epoch = s.xl.epoch + 1 ∧ t.xl.rekeys = s.xl.rekeys + 1 ∧
            t.xl.dev = s.xl.dev ∧ t.xl.evt = s.xl.evt)) ∧
    (∀ (s : State), s.running = true → s.aon = true → s.boot.entropy = false → (∀ k, k < 16 → (s.linkAt k).state ≠ 2) →
      (s.boot.campReady = false ∨ s.camp.rekeyed = true →
        ∃ t, exec .entropyReady s = .next t ∧ t = { s with boot := { s.boot with entropy := true }, camp := { s.camp with healthFailed := 0 } }) ∧
      (s.boot.campReady = true → s.camp.rekeyed = false → s.served = true → s.xl.sweep = false →
        (∀ q ∈ s.xl.pos, q.moves = [] ∧ q.walks = [] ∧ q.waits = [] ∧ q.items = []) →
        ∃ t, exec .entropyReady s = .next t ∧
          t = { s with boot := { s.boot with entropy := true }, camp := { s.camp with healthFailed := 0, rekeyed := true },
                       xl := { s.xl with dkey := t.xl.dkey, ckey := t.xl.ckey, key0 := false, sweep := true, epoch := s.xl.epoch + 1,
                                         rekeys := s.xl.rekeys + 1, pos := t.xl.pos },
                       pair := t.pair, freeCtr := s.freeCtr + 1 })) ∧
    (∀ (kind : Fin 3) (s : State), s.aon = true → s.pwr.off = false →
      (kind = 0 → s.boot.entropy = false → s.camp.startFails < 4 →
        ∃ t, exec (.entropyHealth kind) s = .next t ∧ t = { s with camp := { s.camp with startFails := s.camp.startFails + 1 } }) ∧
      (canReport s (.other 0) 0x18 0 0 →
        (kind = 0 → s.boot.entropy = false → 4 ≤ s.camp.startFails →
          ∃ t, exec (.entropyHealth kind) s = .next t ∧
            t = { s with camp := { s.camp with healthFailed := 1 }, cairn := { s.cairn with queue := s.cairn.queue ++ [reportOf s 0x18 0 0 1 0] } }) ∧
        (kind ≠ 0 → s.boot.entropy = true →
          ∃ t, exec (.entropyHealth kind) s = .next t ∧
            (∀ k, k < 16 →
              if (s.linkAt k).isAuth = true ∧ ((s.linkAt k).state = 1 ∨ (s.linkAt k).state = 2) then (t.linkAt k).state = 2 ∧ (t.linkAt k).downReason = 7
              else (s.linkAt k).state ≠ 2 → t.linkAt k = s.linkAt k) ∧
            t = { s with
              boot := { s.boot with entropy := false }, links := t.links,
              camp := { s.camp with
                healthFailed := 1, startFails := 4, rctFails := if kind = 1 then satInc s.camp.rctFails else s.camp.rctFails,
                aptFails := if kind = 2 then satInc s.camp.aptFails else s.camp.aptFails },
              cairn := { s.cairn with queue := s.cairn.queue ++ [reportOf s 0x18 0 0 1 (BitVec.ofNat 32 kind.val)] } }))))

/-- Spec/15 R401, R402: a warm reset counts, squelches the lanes and takes the links down, zeroes the mailbox slots, empties the Pass ports, drops the
traverse's lock, restarts the rounds and arms the heartbeat, and a Camp pair that had stopped with no other to serve runs again; the tables, the Rope map, the wear frame, the clocks and each source's PRIORITY, ACT
and line stay. With a clock check failing it waits in step 3, POLUIF_AVAIL at 0. A KEY write needs ring 0 and 0x5752. -/
def Obligations.WarmResetKeepsWhatItMust : Prop :=
  ∀ (s : State), s.linksAlive = true → s.pwr.warmHeld = false →
    let kept (t : State) : Prop :=
      t.rope.map = s.rope.map ∧ t.rope.locked = s.rope.locked ∧ t.wear = s.wear ∧ t.clk = s.clk ∧ t.xl.dev = s.xl.dev ∧ t.xl.evt = s.xl.evt ∧
        t.xl.pinned = s.xl.pinned ∧ t.acc.slot = s.acc.slot ∧ t.boot.entropy = s.boot.entropy ∧ t.pending = s.pending ∧
        (∀ n, (t.srcAt n).prio = (s.srcAt n).prio ∧ (t.srcAt n).act = (s.srcAt n).act ∧ (t.srcAt n).line = (s.srcAt n).line) ∧
        ∀ k, (t.linkAt k).cfg = (s.linkAt k).cfg
    let cleared (t : State) : Prop :=
      (∀ m, m < 34 → (t.mbxAt m).order = [] ∧ ∀ i, t.slotAt m i = Slot.reset) ∧ (s.rope.hbRunning = true → ∀ k, k < 16 → (s.linkAt k).state = 5 →
          (t.linkAt k).state = if (s.heldFor (s.linkAt k)).isSome then 2 else 1) ∧
        (∀ n, n < 16 → (t.laneAt n).squelched = true ∧ (t.laneAt n).inUse = false ∧ (t.laneAt n).test = 0) ∧ t.arb.lock = none ∧
        (∀ n, n < 8 → (t.passAt n).buf = []) ∧ t.rope.hbRunning = false ∧ t.pwr.warmResets = satInc s.pwr.warmResets ∧
        t.pwr.parking = false ∧ t.pwr.state = 0
    let done (t : State) (cause : BitVec 2) : Prop :=
      kept t ∧ cleared t ∧ t.pwr.resetCause = cause ∧ t.pwr.avail = true ∧ t.pwr.warmHeld = false ∧ t.rope.hbArmed = true ∧ t.rat.round = 0 ∧
        t.wired.live = true ∧ (s.camp.standby = 3 → s.camp.testing = none → t.camp.execOf s.camp.active = true)
    (s.clk.fail = 0 → ∃ t, exec .warmReset s = .next t ∧ done t 1) ∧
    (∀ data : Word, s.clk.fail = 0 → field data 0 16 = (0x5752 : BitVec 16) → ∃ t, exec (.warmResetKey 0 data) s = .next t ∧ done t 2) ∧
    (s.clk.fail ≠ 0 → ∃ t, exec .warmReset s = .next t ∧ kept t ∧ cleared t ∧ t.pwr.resetCause = 3 ∧ t.pwr.avail = false ∧ t.pwr.warmHeld = true ∧
      t.cp.wbuf = [] ∧ t.cp.held = [] ∧ ∀ n, n < 8 → (t.passAt n).resetDropped.toNat = min 63 (s.passAt n).buf.length) ∧
    (∀ (ring : BitVec 2) (data : Word), ring ≠ 0 ∨ field data 0 16 ≠ (0x5752 : BitVec 16) → exec (.warmResetKey ring data) s = .next s)

/-- Spec/15 R395, R396: PARK.REQ from ring 0 makes the Pass ports not live; with nothing outstanding and no group gathering the block parks at once, else
it waits, and after 10,000 ticks gives up with PARK_FAILED and FAIL_CAUSE and the ports go live again. A wake returns it to ON, a latched edge
becoming an occurrence. Other rings are ignored. -/
def Obligations.ParkEntersAbandonsAndWakes : Prop :=
  (∀ (data : Word) (s : State), s.running = true → s.pwr.state = 0 → bitAt data 0 = true →
    let ports (t : State) : Prop := ∀ n, n < 8 → t.passAt n = { s.passAt n with live := false, credit := 0 }
    (s.parkQuiet = true → s.noGathering = true →
      ∃ t, exec (.parkReq 0 data) s = .next t ∧ t = { s with pwr := t.pwr, pass := t.pass, links := t.links } ∧ ports t ∧
        t.pwr = { s.pwr with parking := false, parkAt := s.clk.ticks, state := 3, parks := satInc s.pwr.parks } ∧
        ∀ k, k < 16 → t.linkAt k = { s.linkAt k with txIdle := (t.linkAt k).txIdle, txIdleAt := (t.linkAt k).txIdleAt }) ∧
    (s.parkQuiet = false ∨ s.noGathering = false →
      ∃ t, exec (.parkReq 0 data) s = .next t ∧ t = { s with pwr := t.pwr, pass := t.pass } ∧ ports t ∧
        t.pwr = { s.pwr with parking := true, parkAt := s.clk.ticks, state := 2 }) ∧
    (∀ ring : BitVec 2, ring ≠ 0 → exec (.parkReq ring data) s = .next s)) ∧
  (∀ (s : State), s.running = true → s.pwr.parking = true → s.pwr.parkAt + 10000 ≤ s.clk.ticks →
    ∃ t, exec .parkTimeout s = .next t ∧ t = { s with pwr := t.pwr, pass := t.pass } ∧
      t.pwr = { s.pwr with parking := false, state := 0, parkFailed := true, failCause := if s.parkQuiet then 2 else 1 } ∧
      ∀ n, n < 8 → s.boot.campReady = true → (s.passAt n).resetN = true → (t.passAt n).live = true ∧ (t.passAt n).buf = (s.passAt n).buf) ∧
  (∀ (s : State), s.linksAlive = true → s.pwr.state = 3 →
    ∃ t, exec .parkWake s = .next t ∧ t = { s with pwr := t.pwr, wired := t.wired, pass := t.pass, pair := t.pair, cairn := t.cairn } ∧
      t.pwr = { s.pwr with state := 0, latches := [], lastExit := s.clk.time.setWidth 32 } ∧
      (∀ n ∈ s.pwr.latches, (s.srcAt n).isEdge n = true → (s.stormOf n).2 = 0 → (t.srcAt n).pend = true) ∧
      ∀ n, n ∉ s.pwr.latches → (s.srcAt n).isEdge n = true → t.srcAt n = s.srcAt n)

/-- Spec/15 R405 to R407: when POWER_WARN qualifies the block, armed, ready and with energy enough, writes the wake record: its header's fields are taken
and its body lines requested; with too little energy it sends the last-words record, of the always-on mirrors, with REASON 1 (2 where it is not armed), or
writes nothing and the save ends. Once the save has ended and POWER_WARN has fallen Tamri writes the header, armed with the next SAVE_SEQ (R408). Losing a core supply makes the block
unavailable with its heartbeat stopped (R397). -/
def Obligations.PowerFailureSaves : Prop :=
  let armedAgain (p : Power) : Power :=
    { p with armed := true, saveSeq := p.saveSeq + 1, header := { NvHeader.reset with state := 1, saveSeq := p.saveSeq + 1 } }
  let ended (s t : State) (p : Power) (again : Bool) : Prop :=
    (again = false → t = { s with pwr := p }) ∧
    (again = true → t = { s with pwr := armedAgain p, mem := t.mem, rat := t.rat, arb := t.arb } ∧ t.headerAsked (armedAgain p).header)
  (∀ (code : BitVec 8) (s : State), s.running = true → s.aon = true → s.pwr.warn = false → s.pwr.state = 0 → s.pwr.warmHeld = false → s.pwr.save = .none →
    let e := energy code
    let able : Prop := s.boot.campReady = true ∧ s.pwr.armed = true ∧ 0x41000 ≤ s.boot.nvmSize.toNat
    ∃ t, exec (.powerWarn code) s = .next t ∧ t.pwr.warn = true ∧ t.pwr.warnSeen = true ∧ t.pwr.holdup = code ∧ t.pwr.maskedSave = true ∧
      t.pwr.lastHoldup = code ∧ t.pwr.parking = false ∧ (s.pwr.parking = true → t.pwr.parkFailed = true ∧ t.pwr.failCause = 4) ∧
      (e < 2 → t.pwr.save = .none ∧ t.pwr.lastSave = 3) ∧ (¬able → 2 ≤ e → t.pwr.save = .words) ∧
      (able → 1520 ≤ 8 * e → ∃ h, t.pwr.save = .wake h ∧ h.saveSeq = s.pwr.saveSeq ∧ h.holdup = code)) ∧
  (∀ (code : BitVec 8) (s : State), s.running = true → s.aon = true → s.pwr.warn = false → s.pwr.state = 0 → s.pwr.warmHeld = false →
    s.pwr.parking = false → s.pwr.save = .none → s.clk.fail ≠ 0 ∨ (∀ p, p < 4 → s.couloirOpen p = false) →
    let size := 0x3140 + 16 * min s.log.length 15596
    let e := energy code
    let warned (x : Power) : Power := { s.pwr with
      warn := true, warnSeen := true, holdup := code, maskedSave := true, lastHoldup := code, save := x.save, lastSave := x.lastSave, lwFrame := x.lwFrame }
    let roomFor : Prop := s.boot.campReady = true ∧ s.pwr.armed = true ∧ 0x41000 ≤ s.boot.nvmSize.toNat ∧ 240 + 5 * ((size + 1023) / 1024) ≤ 8 * e
    (roomFor → (∀ r, s.asks r → r.owner ≠ .save) →
      ∃ t h, exec (.powerWarn code) s = .next t ∧ t = { s with pwr := t.pwr, mem := t.mem, rat := t.rat, arb := t.arb } ∧
        t.pwr = { warned t.pwr with lastSave := s.pwr.lastSave, lwFrame := s.pwr.lwFrame, saveHead := false } ∧ t.pwr.save = .wake h ∧ h.state = 2 ∧ h.source = 1 ∧
        h.holdup = code ∧ h.saveSeq = s.pwr.saveSeq ∧ h.length = BitVec.ofNat 32 size ∧ h.time = s.clk.time ∧
        ((t.mem.waits ++ t.mem.queued ++ t.mem.out).filter (fun r => r.owner == .save && r.write)).length = (size + 31) / 32 - 2) ∧
    (¬roomFor → 2 ≤ e →
      ∃ t, exec (.powerWarn code) s = .next t ∧ t = { s with pwr := t.pwr } ∧ t.pwr = { warned t.pwr with lastSave := s.pwr.lastSave } ∧
        t.pwr.save = .words ∧ field t.pwr.lwFrame 0 32 = (0x5453414C : BitVec 32) ∧
        (field t.pwr.lwFrame 32 32 : BitVec 32) = field s.pwr.lwMirror 32 32 ∧ (field t.pwr.lwFrame 144 336 : BitVec 336) = field s.pwr.lwMirror 144 336 ∧
        field t.pwr.lwFrame 64 64 = s.clk.time ∧
        field t.pwr.lwFrame 128 8 = code ∧ field t.pwr.lwFrame 136 8 = (if s.pwr.armed then 1 else 2 : BitVec 8)) ∧
    (¬roomFor → e < 2 →
      ∃ t, exec (.powerWarn code) s = .next t ∧ t = { s with pwr := t.pwr } ∧
        t.pwr = { warned t.pwr with lastSave := 3, lwFrame := s.pwr.lwFrame, save := .none })) ∧
  (∀ (h : NvHeader) (s : State), s.running = true → s.pwr.save = .wake h → s.pwr.saveHead = true → (∀ r, s.asks r → r.owner ≠ .save) →
    let p : Power := { s.pwr with save := .none, lastSave := 1, header := h, armed := false }
    ∃ t, exec .wakeRecordDone s = .next t ∧ ended s t p (s.boot.campReady && !s.pwr.warn)) ∧
  (∀ (s : State), s.running = true → s.pwr.save = .words →
    let p : Power := { s.pwr with save := .none, lastSave := 2 }
    ∃ t, exec .lastWordsSent s = .next t ∧ ended s t p (s.boot.campReady && !s.pwr.warn)) ∧
  (∀ (s : State), s.running = true → s.aon = true → s.pwr.warn = true →
    let p : Power := { s.pwr with warn := false }
    ∃ t, exec .powerWarnFall s = .next t ∧ ended s t p (s.boot.campReady && s.pwr.save == .none)) ∧
  (∀ (s : State), s.aon = true → s.pwr.off = false →
    ∃ t, exec .supplyLoss s = .next t ∧ t.pwr = { s.pwr with off := true, avail := false } ∧ (∀ n, n < 8 → t.passAt n = { s.passAt n with live := false, credit := 0 }) ∧
      t.rope.hbRunning = false ∧ t.rope.map = s.rope.map ∧ t.rope.serving = s.rope.serving ∧
      t.cp = { s.cp with wbuf := [], held := [] } ∧
      (s.rope.hbRunning = true → heartStopped s { t with pwr := s.pwr, pass := s.pass, cp := s.cp } 9))

/-- Spec/14 R386: every 10 s one region's slowdown is stored and counted, the regions in turn, WEAR_WARN set from 30,000 ppm and WEAR_LIMIT from 40,000; every
second the highest of four readings (°C + 64) adds to its bin, sets TEMP_NOW and TEMP_MAX, and OVER_TEMP above 150 °C. -/
def Obligations.WearIsMeasured : Prop :=
  (∀ (ppm : BitVec 32) (s : State), s.aon = true → WearShape s.wear → s.wear.next < 8 → s.wear.measuredAt + 1000000000 ≤ s.clk.ticks →
    ∃ t, exec (.wearMeasure ppm) s = .next t ∧ t = { s with wear := { t.wear with seconds := s.wear.seconds, tempNow := s.wear.tempNow } } ∧
      (∀ i, i < 8 → t.wear.ppm.getD i 0 = (if i = s.wear.next then ppm else s.wear.ppm.getD i 0) ∧
        t.wear.measured.getD i 0 = (if i = s.wear.next then satInc (s.wear.measured.getD i 0) else s.wear.measured.getD i 0)) ∧
      t.wear.next = (s.wear.next + 1) % 8 ∧ t.wear.measuredAt = s.clk.ticks ∧ t.wear.tempMax = s.wear.tempMax ∧ t.wear.hot = s.wear.hot ∧
      (t.wear.warn = true ↔ s.wear.warn = true ∨ 30000 ≤ ppm.toNat) ∧ (t.wear.limit = true ↔ s.wear.limit = true ∨ 40000 ≤ ppm.toNat)) ∧
  (∀ (a b c d : BitVec 8) (s : State), s.aon = true → WearShape s.wear → s.wear.binnedAt + 100000000 ≤ s.clk.ticks →
    let top := max (max a.toNat b.toNat) (max c.toNat d.toNat)
    ∃ t, exec (.tempBin a b c d) s = .next t ∧
      t = { s with wear := { s.wear with seconds := t.wear.seconds, binnedAt := s.clk.ticks, tempNow := BitVec.ofNat 8 top, tempMax := t.wear.tempMax,
                                         hot := t.wear.hot } } ∧
      t.wear.tempMax.toNat = max s.wear.tempMax.toNat top ∧ (t.wear.hot = true ↔ s.wear.hot = true ∨ 214 < top) ∧
      ∀ j, j < 8 →
        let low := ([0, 44, 104, 149, 169, 189, 204, 215] : List Nat).getD j 0
        let high := ([44, 104, 149, 169, 189, 204, 215, 256] : List Nat).getD j 0
        t.wear.seconds.getD j 0 = (if low ≤ top ∧ top < high then s.wear.seconds.getD j 0 + 1 else s.wear.seconds.getD j 0))

/-- Spec/16 R417 to R421, R428, R431: a read that is admitted and need not wait returns the word (a 4-byte read its half), an 8-byte or low read of an all-RO
word keeping the upper half in the frame's snapshot register, which the read of the upper half returns; one that must wait, or comes behind one that
waits, is held, and with 8 held none is accepted; an access refused is counted, reported and answered, a write after the writes before it, its
register untouched; a write of 1 to a W1C bit clears it; with 16 entries taken a write is not accepted. -/
def Obligations.RegistersAreReadAndWritten : Prop :=
  ∀ (a : Access) (s : State), s.running = true → s.clocksFail = false → a.rescue = false → rescueFrame (accFrame a) = false →
    let f := accFrame a
    let o := accOff a
    let w := s.readWord f o
    let answer (err : BitVec 2) (d : Word) : Response := { rescue := false, tag := a.tag, err := err, data := d }
    (s.refusal a false = none → frameIdOf f = none → s.readWaits f o = false → s.readsHeld = [] →
      ∃ t, exec (.registerRead a) s = .next t ∧ t = { s with cp := { s.cp with responses := t.cp.responses }, acc := { s.acc with snap := t.acc.snap } } ∧
        (allRO f o = false → t.acc = s.acc ∧ t.cp.responses = answer 0 (partOf (accPart a) w) :: s.cp.responses) ∧
        (allRO f o = true → accPart a ≠ .hi → t.snapAt f = field w 32 32 ∧ t.cp.responses = answer 0 (partOf (accPart a) w) :: s.cp.responses) ∧
        (allRO f o = true → accPart a = .hi → t.acc = s.acc ∧ t.cp.responses = answer 0 ((s.snapAt f).setWidth 64) :: s.cp.responses)) ∧
    (s.refusal a false = none → s.readWaits f o = true ∨ s.readsHeld ≠ [] → s.readsHeld.length < 8 →
      ∃ t, exec (.registerRead a) s = .next t ∧
        t = { s with cp := { s.cp with held := s.cp.held ++ [{ acc := a, write := false, wid := s.cp.nextWid }] } }) ∧
    (8 ≤ s.readsHeld.length → exec (.registerRead a) s = .next s) ∧
    (∀ write c, s.refusal a write = some c → (if write then s.bufferFull = false else s.readsHeld.length < 8) →
      let slot := if c < 4 then (s.governing a.addr.toNat).getD f else f
      let err : BitVec 2 := if c < 4 then 1 else 2
      canReport s (.other 0x70020) 0x10 16 (BitVec.ofNat 16 slot) →
      ∃ t, exec (if write then .registerWrite a else .registerRead a) s = .next t ∧
        t = { s with cp := t.cp, acc := t.acc, cairn := { s.cairn with queue := t.cairn.queue } } ∧
        (write = false → t.cp = { s.cp with responses := answer err 0 :: s.cp.responses }) ∧
        (write = true → s.cp.wbuf = [] → t.cp = { s.cp with responses := answer err 0 :: s.cp.responses, nextWid := s.cp.nextWid + 1 }) ∧
        (∀ w rest, write = true → s.cp.wbuf = w :: rest → w.left ≠ 0 →
          t.cp = { s.cp with wbuf := s.cp.wbuf ++ [{ wid := s.cp.nextWid, tag := a.tag, frame := 0, left := 0, err := err }],
                             nextWid := s.cp.nextWid + 1 }) ∧
        t.acc = { s.acc with violations := s.acc.violations + 1, seen := true, held := true, next := s.acc.next + 1, wrapped := t.acc.wrapped,
                             recs := t.acc.recs, first := t.acc.first } ∧
        t.cairn.queue.length = s.cairn.queue.length + 1 ∧ (s.acc.held = true → t.acc.first = s.acc.first)) ∧
    (s.refusal a true = none → f = 4 → o = 0x008 → s.cp.wbuf = [] → s.cp.held = [] →
      ∃ t, exec (.registerWrite a) s = .next t ∧
        t = { s with
          cp := { s.cp with responses := answer 0 0 :: s.cp.responses, nextWid := s.cp.nextWid + 1 },
          cairn := { s.cairn with
            created := s.cairn.created && !(wrote1 (accPart a) a.data 0), overflowed := s.cairn.overflowed && !(wrote1 (accPart a) a.data 1),
            lostSeen := s.cairn.lostSeen && !(wrote1 (accPart a) a.data 2) } }) ∧
    (s.bufferFull = true → exec (.registerWrite a) s = .next s)

/-- Spec/11 R283, R286 to R289, R291, R294: a POST of a free slot queues it, of another it is counted and ignored, as it is while the mailbox is closed; a
written 1 to DONE releases its slot. A header fault gives BAD_ARG with DETAIL 0xFFFF, a wrong issuer DENIED, an unknown code, or any but HELLO after a
failed boot, UNSUPPORTED; HELLO answers the levels. A notification asked for is an SGI with PAYLOAD 0xFFFF. -/
def Obligations.MailboxSlotsMove : Prop :=
  (∀ (m : Fin 34) (i : Fin 8) (s : State), s.running = true →
    let x := s.slotAt m.val i.val
    let only (t : State) : Prop := t = { s with mbx := t.mbx } ∧ ∀ k, k ≠ m.val → t.mbxAt k = s.mbxAt k
    ((s.mbxAt m.val).isOpen = true → x.posted = false → x.running = false → x.done = false →
      ∃ t, exec (.post m i) s = .next t ∧ only t ∧ t.slotAt m.val i.val = { x with posted := true } ∧
        (∀ j, j ≠ i.val → t.slotAt m.val j = s.slotAt m.val j) ∧ (t.mbxAt m.val).order = (s.mbxAt m.val).order ++ [i.val] ∧
        (t.mbxAt m.val).posts = satInc (s.mbxAt m.val).posts) ∧
    ((s.mbxAt m.val).isOpen = false ∨ x.posted = true ∨ x.running = true ∨ x.done = true →
      ∃ t, exec (.post m i) s = .next t ∧ only t ∧ t.mbxAt m.val = { s.mbxAt m.val with ignored := satInc (s.mbxAt m.val).ignored }) ∧
    (∀ mask : BitVec 8, ∃ t, exec (.doneRelease m mask) s = .next t ∧ only t ∧ (t.mbxAt m.val).order = (s.mbxAt m.val).order ∧
      ∀ j, j < 8 → t.slotAt m.val j = (if bitAt mask j && (s.slotAt m.val j).done then Slot.reset else s.slotAt m.val j))) ∧
  (∀ (m : Fin 34) (i : Nat) (code : BitVec 16) (s : State), turnOf s m.val i code →
    (code ∉ knownCodes → ∃ t, exec (.unknownCommand m) s = .next t ∧ answered s s t m.val i (8, 0, 0)) ∧
    (code = 0x0001 → ∃ t r, exec (.hello m) s = .next t ∧ answered s s t m.val i (0, 0, r) ∧ field r 0 16 = s.boot.level ∧
      field r 16 8 = BitVec.ofNat 8 m.val ∧ field r 24 8 = (if s.camp.active then 1 else 0 : BitVec 8) ∧ field r 32 32 = s.boot.fwVersion ∧
      field r 64 32 = s.boot.secVersion ∧ field r 96 8 = (0x42 : BitVec 8) ∧
      field r 104 8 = (if s.camp.standby = 0 ∨ s.camp.standby = 1 then 1 else 0 : BitVec 8) ∧
      field r 112 8 = (if s.boot.entropy then 1 else 0 : BitVec 8)) ∧
    (code = 0x00A1 → m ≠ 0 → ∃ t, exec (.ropeMap m) s = .next t ∧ answered s s t m.val i (4, 0, 0))) ∧
  (∀ (m : Fin 34) (i : Nat) (rest : List Nat) (s : State), s.running = true → s.camp.executing = true → s.rekeyDue = false → s.camp.testing = none →
    s.nextMbox = some m.val → (s.mbxAt m.val).order = i :: rest → (s.mbxAt m.val).enable = false → s.boot.failed = true →
    reqCode (s.slotAt m.val i).req = 0x0001 →
      ∃ t r, exec (.hello m) s = .next t ∧ answered s s t m.val i (0, 0, r) ∧ field r 16 8 = BitVec.ofNat 8 m.val ∧ field r 96 8 = (0x42 : BitVec 8) ∧
        field r 0 16 = (0 : BitVec 16) ∧ field r 32 64 = (0 : BitVec 64)) ∧
  (∀ (m : Fin 34) (i : Nat) (rest : List Nat) (s : State), s.running = true → s.camp.executing = true → s.rekeyDue = false → s.camp.testing = none →
    s.nextMbox = some m.val → (s.mbxAt m.val).order = i :: rest → reqCode (s.slotAt m.val i).req = 0x0090 →
    (headerBad (s.slotAt m.val i).req = true → s.boot.failed = false → (s.mbxAt m.val).enable = false →
      ∃ t, exec (.snapshot m) s = .next t ∧ answered s s t m.val i (5, 0xFFFF, 0)) ∧
    (s.boot.failed = true → (s.mbxAt m.val).enable = false →
      ∃ t, exec (.snapshot m) s = .next t ∧ answered s s t m.val i (8, 0, 0)) ∧
    (s.boot.failed = true → (s.mbxAt m.val).enable = true → bitAt (s.slotAt m.val i).req 40 = true →
      let n := 8192 + 64 * (s.mbxAt m.val).target.toNat + (s.mbxAt m.val).sgi.toNat
      (s.srcAt n).pend = false → (s.stormOf n).2 = 0 →
      ∃ t u, exec (.snapshot m) s = .next t ∧ answered s u t m.val i (8, 0, 0) ∧ onlySource s u n ∧
        u.srcAt n = { s.srcAt n with pend := true, weight := 1, sender := 0xFFFF }))

/-- Spec/04 R102, R105, R113: DEV_MAP of a requester that was not mapped gives it a zeroed event table, DEV_GEN one higher, and RESULT DEV_GEN and
EVT_BASE; it changes OWNER and INGRESS of a mapped one. EVT_MAP maps an event of it with DEV_GEN, EVT_UNMAP unmaps it; DENIED for a guest that does
not own the requester, NOT_FOUND where it is not mapped. The entry's line is written to memory; in a SUSPECT page the answer is SUSPECT (spec/13 R355). -/
def Obligations.DevicesAndEventsAreMapped : Prop :=
  (∀ (m : Fin 34) (i : Nat) (s : State), turnOf s m.val i 0x0020 → m.val ≤ 1 → s.allQuiet = true → (∀ p ∈ s.xl.pos, p.walks = []) →
    let a := argsOf s m.val i
    let q : BitVec 16 := arg a 0 16
    let old := s.devEntry q
    let status (q : BitVec 16) : BitVec 8 := if s.tableSuspect (.device q) then 7 else 0
    let written (u : State) (q : BitVec 16) : Prop :=
      ∃ r, u.asks r ∧ r.owner = .table (.device q) ∧ r.write = true ∧ r.data = (u.tableLine (.device q)).2 ∧ r.addr = (u.tableLine (.device q)).1
    reservedRequester q = false → (arg a 2 8 : BitVec 8) = 1 → (arg a 3 8 : BitVec 8).toNat ≤ 20 → (arg a 5 8 : BitVec 8).toNat ≤ 1 →
    ownerOk (arg a 6 8) = true → old.pinned = false →
    (old.valid = false → old.devGen ≠ 0xFFFFFFFF → tablePages (arg a 3 5) ≤ s.boot.tableFree →
      ∃ t u e r, exec (.devMap m) s = .next t ∧ answered s u t m.val i (status q, 0, r) ∧ written u q ∧
        u = { s with xl := u.xl, mem := u.mem, rat := u.rat, arb := u.arb, freeCtr := u.freeCtr,
                     boot := { s.boot with tableFree := u.boot.tableFree, zeroing := u.boot.zeroing } } ∧
        u.devEntry q = e ∧ (∀ p : BitVec 16, p ≠ q → u.devEntry p = s.devEntry p) ∧ e.valid = true ∧ e.eventBits = arg a 3 5 ∧
        e.ingress = arg a 4 9 ∧ e.owner = arg a 6 6 ∧ e.devGen = old.devGen + 1 ∧ field r 0 32 = e.devGen ∧
        field r 32 64 = e.evtBase.setWidth 64 <<< 12 ∧ u.boot.tableFree = s.boot.tableFree - tablePages (arg a 3 5) ∧
        (∀ v, u.evtEntry q v = EvtEntry.reset) ∧ ∀ (p : BitVec 16) v, p ≠ q → u.evtEntry p v = s.evtEntry p v) ∧
    (old.valid = true → old.eventBits = arg a 3 5 →
      ∃ t u r, exec (.devMap m) s = .next t ∧ answered s u t m.val i (status q, 0, r) ∧ written u q ∧
        u = { s with xl := u.xl, mem := u.mem, rat := u.rat, arb := u.arb } ∧ u.devEntry q = { old with ingress := arg a 4 9, owner := arg a 6 6 } ∧ (∀ p : BitVec 16, p ≠ q → u.devEntry p = s.devEntry p) ∧
        u.xl.evt = s.xl.evt ∧ field r 0 32 = old.devGen)) ∧
  (∀ (m : Fin 34) (i : Nat) (s : State), (∀ p ∈ s.xl.pos, p.walks = []) →
    let a := argsOf s m.val i
    let q : BitVec 16 := arg a 0 16
    let v : BitVec 20 := arg a 4 20
    let d := s.devEntry q
    let others (u : State) : Prop :=
      u = { s with xl := u.xl, mem := u.mem, rat := u.rat, arb := u.arb } ∧ u.xl.dev = s.xl.dev ∧ u.xl.pinned = s.xl.pinned ∧
        (∃ r, u.asks r ∧ r.owner = .table (.event q v) ∧ r.write = true ∧ r.data = (u.tableLine (.event q v)).2 ∧ r.addr = (u.tableLine (.event q v)).1) ∧
        ∀ (p : BitVec 16) (w : BitVec 20), p ≠ q ∨ w ≠ v → u.evtEntry p w = s.evtEntry p w
    let status : BitVec 8 := if s.tableSuspect (.event q v) then 7 else 0
    s.posQuiet (s.posOf (msgHandle q v)) = true → d.valid = true → d.pinned = false → s.blockMoves q = false →
    (turnOf s m.val i 0x0021 → (guestOf m.val = none) → lowestBad (routeBad a 8) = none → (arg a 4 32 : BitVec 32).toNat < 2 ^ d.eventBits.toNat →
      (s.evtEntry q v).valid = false →
      ∃ t u w r, exec (.evtMap m) s = .next t ∧ answered s w t m.val i (status, 0, r) ∧ onlyLevels u w ∧ others u ∧
        u.evtEntry q v = { valid := true, pinned := false, route := routeBlock a 8, gen := d.devGen, suspect := false } ∧ field r 0 32 = d.devGen) ∧
    (turnOf s m.val i 0x0022 → (guestOf m.val = none) → (arg a 4 32 : BitVec 32).toNat < 2 ^ d.eventBits.toNat →
      ∃ t u, exec (.evtUnmap m) s = .next t ∧ answered s u t m.val i (status, 0, 0) ∧ others u ∧ u.evtEntry q v = EvtEntry.reset) ∧
    (∀ g, turnOf s m.val i 0x0022 → guestOf m.val = some g → d.owner.toNat ≠ g →
      ∃ t, exec (.evtUnmap m) s = .next t ∧ answered s s t m.val i (4, 0, 0))) ∧
  (∀ (m : Fin 34) (i : Nat) (s : State), turnOf s m.val i 0x0022 → guestOf m.val = none →
    s.posQuiet (s.posOf (msgHandle (arg (argsOf s m.val i) 0 16) (arg (argsOf s m.val i) 4 20))) = true →
    (s.devEntry (arg (argsOf s m.val i) 0 16)).valid = false → ∃ t, exec (.evtUnmap m) s = .next t ∧ answered s s t m.val i (6, 0, 0))

/-- Spec/04 R107, R110 to R113, R117, R118: REQ_PIN gives a mapped requester the first run of the pinned store that is long enough, or runs on to compact the
store where the free entries make no such run, REQ_UNPIN gives it back; INVALIDATE drops the cache's lines of its scope, sweeping for a requester or
all; REKEY changes the keys, and its sweep drops the lines of the old epoch. A rewritten access slot governs again (spec/16 R426), and zeroed pages
become free (spec/11 R449), but those that are SUSPECT (spec/13 R355). -/
def Obligations.TheTranslationStoresChange : Prop :=
  (∀ (m : Fin 34) (i : Nat) (s : State), m.val ≤ 1 → s.allQuiet = true → noContract s → (∀ p ∈ s.xl.pos, p.walks = []) →
    let q : BitVec 16 := arg (argsOf s m.val i) 0 16
    let d := s.devEntry q
    let n := 2 ^ d.eventBits.toNat
    let status : BitVec 8 := if s.tableSuspect (.device q) then 7 else 0
    (turnOf s m.val i 0x0023 → d.valid = true → d.pinned = false → d.eventBits.toNat ≤ 14 → s.setLocked q = false → s.pinnedUsed + n ≤ 16384 →
      firstFit n 0 s.pinRuns = none →
      ∃ t, exec (.reqPin m) s = .next t ∧ t.xl = { s.xl with jobs := s.xl.jobs ++ [{ mbox := m.val, slot := i, link := false, req := (s.slotAt m.val i).req }] } ∧
        t = { s with mbx := t.mbx, camp := { s.camp with rr := m.val }, xl := t.xl } ∧
        t.slotAt m.val i = { s.slotAt m.val i with posted := false, running := true }) ∧
    (∀ base, turnOf s m.val i 0x0023 → d.valid = true → d.pinned = false → d.eventBits.toNat ≤ 14 → s.setLocked q = false →
      s.pinnedUsed + n ≤ 16384 → firstFit n 0 s.pinRuns = some base →
      ∃ t u r, exec (.reqPin m) s = .next t ∧ answered s u t m.val i (status, 0, r) ∧ u = { s with xl := u.xl, mem := u.mem, rat := u.rat, arb := u.arb } ∧
        u.devEntry q = { d with pinned := true, pinBase := BitVec.ofNat 14 base } ∧ field r 0 16 = BitVec.ofNat 16 base ∧
        field r 16 16 = BitVec.ofNat 16 n ∧ u.xl.blocks = placeBlock { req := q, base := base, len := n } s.xl.blocks ∧ u.xl.evt = s.xl.evt) ∧
    (turnOf s m.val i 0x0024 → reservedRequester q = false → d.pinned = true →
      ∃ t u, exec (.reqUnpin m) s = .next t ∧ answered s u t m.val i (status, 0, 0) ∧ u = { s with xl := u.xl, mem := u.mem, rat := u.rat, arb := u.arb } ∧
        u.devEntry q = { d with pinned := false, pinBase := 0 } ∧ u.rat.unpins = s.rat.unpins ++ [s.rat.round + 4096] ∧ u.xl.evt = s.xl.evt)) ∧
  (∀ (m : Fin 34) (i : Nat) (s : State), turnOf s m.val i 0x0025 → guestOf m.val = none → s.allQuiet = true →
    let a := argsOf s m.val i
    ((arg a 0 8 : BitVec 8) = 2 → ∃ t, exec (.invalidate m) s = .next t ∧ answered s { s with xl := { s.xl with cache := [], sweep := true } } t m.val i (0, 0, 0)) ∧
    ((arg a 0 8 : BitVec 8) = 1 → (s.devEntry (arg a 2 16)).valid = true →
      ∃ t u, exec (.invalidate m) s = .next t ∧ answered s u t m.val i (0, 0, 0) ∧ u = { s with xl := { s.xl with cache := u.xl.cache, sweep := true } } ∧
        ∀ l, l ∈ u.xl.cache ↔ l ∈ s.xl.cache ∧ ¬(l.epoch = s.xl.epoch ∧ lineOwner s.xl.ckey l.set l.tag = arg a 2 16)) ∧
    (2 < (arg a 0 8 : BitVec 8).toNat → ∃ t, exec (.invalidate m) s = .next t ∧ answered s s t m.val i (5, 0, 0))) ∧
  (∀ (i : Nat) (s : State), turnOf s 0 i 0x0026 → s.served = true →
    (s.boot.entropy = true → s.xl.sweep = false → (∀ q ∈ s.xl.pos, q.moves = []) →
      ∃ t u, exec (.rekey 0) s = .next t ∧ answered s u t 0 i (0, 0, resPut 0 (s.xl.rekeys + 1)) ∧ u.xl.key0 = false ∧ u.xl.sweep = true ∧
        u.xl.epoch = s.xl.epoch + 1 ∧ u.xl.rekeys = s.xl.rekeys + 1 ∧ u.xl.dev = s.xl.dev ∧ u.xl.evt = s.xl.evt ∧
        ((∀ q ∈ s.xl.pos, q.walks = [] ∧ q.waits = [] ∧ q.items = []) →
          u = { s with
            xl := { s.xl with dkey := u.xl.dkey, ckey := u.xl.ckey, key0 := false, sweep := true, epoch := s.xl.epoch + 1, rekeys := s.xl.rekeys + 1,
                              pos := u.xl.pos },
            pair := u.pair, freeCtr := s.freeCtr + 1 })) ∧
    (s.boot.entropy = false ∨ s.xl.sweep = true → ∃ t, exec (.rekey 0) s = .next t ∧ answered s s t 0 i (1, 0, 0))) ∧
  (∀ (s : State), s.running = true →
    (s.xl.sweep = true → ∃ t, exec .sweepDone s = .next t ∧
      t = { s with xl := { s.xl with sweep := false, cache := s.xl.cache.filter (fun l => l.epoch == s.xl.epoch) } }) ∧
    (∀ z rest, s.boot.zeroing = z :: rest → ∃ t, exec .zeroingDone s = .next t ∧
      t = { s with boot := { s.boot with tableFree := s.boot.tableFree + (z.pages - s.suspectIn z), zeroing := rest } }) ∧
    (∀ n rest, s.camp.executing = true → s.xl.rewrites = .slot n :: rest →
      ∃ t, exec .tamriRewrite s = .next t ∧ t = { s with xl := { s.xl with rewrites := rest }, acc := { s.acc with slot := t.acc.slot } } ∧
        t.descAt n = { s.descAt n with bad := false } ∧ ∀ k, k ≠ n → t.descAt k = s.descAt k))

/-- Spec/09 R226, R235; spec/07 R176: SRC_ROUTE sets the route of a remote source and SRC_PRIO its PRIORITY alone; NOT_FOUND for a link that is not
configured, BAD_ARG beyond its sources. CGROUP_SET sets a group's limits and owner and answers the record as it stood; FLUSH leaves them. -/
def Obligations.RemoteSourcesAndGroupsAreSet : Prop :=
  (∀ (m : Fin 34) (i : Nat) (s : State), m.val ≤ 1 →
    let a := argsOf s m.val i
    let k : Nat := (arg a 0 8 : BitVec 8).toNat
    let src : Nat := (arg a 2 16 : BitVec 16).toNat
    k ≤ 15 → s.posQuiet (s.posOf (remoteHandle k src)) = true → s.linkMoves k = false →
    (∀ c, (s.linkAt k).cfg = some c → c.col = false → src < c.sources → s.liveHandle (remoteHandle k src) = false →
      let n := c.pinBase.toNat + src
      let others (u : State) : Prop :=
        u = { s with xl := { s.xl with pinned := u.xl.pinned }, links := u.links } ∧ (∀ j, j ≠ n → u.pinnedAt j = s.pinnedAt j) ∧
          (∀ j, j ≠ k → u.linkAt j = s.linkAt j) ∧ u.linkAt k = { s.linkAt k with reassert := (u.linkAt k).reassert }
      (turnOf s m.val i 0x0010 → lowestBad (routeBad a 4) = none →
        ∃ t u w, exec (.srcRoute m) s = .next t ∧ answered s w t m.val i (0, 0, 0) ∧ onlyLevels u w ∧ others u ∧
          u.pinnedAt n = { valid := true, pinned := true, route := routeBlock a 4, gen := 0, suspect := false }) ∧
      (turnOf s m.val i 0x0012 →
        ∃ t u w, exec (.srcPrio m) s = .next t ∧ answered s w t m.val i (0, 0, 0) ∧ onlyLevels u w ∧ others u ∧
          u.pinnedAt n = { s.pinnedAt n with route := { (s.pinnedAt n).route with prio := arg a 1 8 } })) ∧
    ((s.linkAt k).cfg = none → turnOf s m.val i 0x0012 → ∃ t, exec (.srcPrio m) s = .next t ∧ answered s s t m.val i (6, 0, 0)) ∧
    (∀ c, (s.linkAt k).cfg = some c → c.col = false → c.sources ≤ src → turnOf s m.val i 0x0012 →
      ∃ t, exec (.srcPrio m) s = .next t ∧ answered s s t m.val i (5, 2, 0))) ∧
  (∀ (m : Fin 34) (i : Nat) (s : State), m.val ≤ 1 → turnOf s m.val i 0x0030 →
    let a := argsOf s m.val i
    let g : Nat := (arg a 0 16 : BitVec 16).toNat
    (g = 0 → ∃ t, exec (.cgroupSet m) s = .next t ∧ answered s s t m.val i (5, 0, 0)) ∧
    (g ≠ 0 → (arg a 8 8 : BitVec 8) = 0 → (arg a 4 32 : BitVec 32).toNat < 2 ^ 20 → ownerOk (arg a 9 8) = true → (s.grpAt g).pending = false → s.pendingOfGroup g = none →
      ∃ t u w, exec (.cgroupSet m) s = .next t ∧ answered s w t m.val i (0, 0, resPut 0 (s.grpAt g).word ||| resPut 8 (s.grpAt g).owner) ∧
        onlyLevels u w ∧ u = { s with grp := u.grp } ∧ (∀ j, j ≠ g → u.grpAt j = s.grpAt j) ∧
        u.grpAt g = { s.grpAt g with limit := arg a 2 16, time := arg a 4 20, owner := arg a 9 8, conflicts := 0 }) ∧
    (g ≠ 0 → (arg a 8 8 : BitVec 8) = 1 →
      ∃ t u, exec (.cgroupSet m) s = .next t ∧ answered s u t m.val i (0, 0, resPut 0 (s.grpAt g).word ||| resPut 8 (s.grpAt g).owner) ∧
        (∀ j, j ≠ g → u.grpAt j = s.grpAt j) ∧ u.grpAt g = { s.grpAt g with conflicts := 0, due := (s.grpAt g).due || (s.grpAt g).pending } ∧
        ((s.grpAt g).pending = true → ∀ T, ∀ x ∈ (u.tgtAt T).store, x.group.toNat = g → x.due = true)) ∧
    (g ≠ 0 → (arg a 8 8 : BitVec 8) = 1 → (s.grpAt g).pending = false →
      ∃ t u w, exec (.cgroupSet m) s = .next t ∧ answered s w t m.val i (0, 0, resPut 0 (s.grpAt g).word ||| resPut 8 (s.grpAt g).owner) ∧
        onlyLevels u w ∧ u = { s with grp := u.grp } ∧ (∀ j, j ≠ g → u.grpAt j = s.grpAt j) ∧ u.grpAt g = { s.grpAt g with conflicts := 0 }))

/-- Spec/08 R202 to R207: VT_CREATE defines a virtual target with an area, VT_RESIDENT gives it a free slot on a target and its saved fields back,
VT_EVICT takes it away with its active entries saved, VT_DESTROY undefines it and releases its area, VT_RUN makes a resident one run on its pair and
answers the outgoing one. -/
def Obligations.VirtualTargetsLive : Prop :=
  ∀ (m : Fin 34) (i : Nat) (s : State), s.mapReady = true →
    let a := argsOf s m.val i
    let v : Nat := (arg a 0 16 : BitVec 16).toNat
    let x := s.vtAt v
    let othersOf (u : State) : Prop := ∀ j, j ≠ v → u.vtAt j = s.vtAt j
    (turnOf s m.val i 0x0040 → m.val ≤ 1 → noContract s → x.defined = false → ownerOk (arg a 2 8) = true →
      ((arg a 3 8 : BitVec 8) = 2 ∨ (arg a 3 8 : BitVec 8) = 3) → (arg a 4 16 : BitVec 16).toNat < 512 → (arg a 6 8 : BitVec 8).toNat < 4 →
      (arg a 7 8 : BitVec 8).toNat < 16 → 1 ≤ (arg a 8 16 : BitVec 16).toNat → (arg a 8 16 : BitVec 16).toNat ≤ 4096 →
      areaPages (arg a 8 16) ≤ s.boot.tableFree → s.vtZeroing v = false →
      ∃ t u b, exec (.vtCreate m) s = .next t ∧ answered s u t m.val i (0, 0, resPut 0 (b ++ (0#12 : BitVec 12))) ∧
        (∀ k, k < 2 → ∃ r, u.asks r ∧ r.owner = .descriptor (BitVec.ofNat 16 v) ∧ r.addr = u.descAddr v + BitVec.ofNat 47 k ∧
          r.data = (u.vtAt v).descLine k) ∧
        u = { s with vt := u.vt, mem := u.mem, arb := u.arb, rat := u.rat, freeCtr := u.freeCtr, boot := { s.boot with tableFree := s.boot.tableFree - areaPages (arg a 8 16) } } ∧
        othersOf u ∧ u.vtAt v = { Vt.reset with
          defined := true, owner := arg a 2 6, ring := arg a 3 2, dbTarget := arg a 4 9, dbRing := arg a 6 2, dbLevel := arg a 7 4, cap := arg a 8 16,
          area := (b : BitVec 40) ++ (0#7 : BitVec 7) }) ∧
    (∀ c, turnOf s m.val i 0x0041 → m.val ≤ 1 → (arg a 2 16 : BitVec 16).toNat < 512 → x.defined = true → x.resident = false →
      firstBelow 2048 (fun c => !(s.ctxAt c).used && decide ((s.ctxAt c).zeroUntil ≤ s.clk.ticks)) = some c → x.suspect = false → x.bivouac = [] →
      (s.pairAt (4 * (arg a 2 16 : BitVec 16).toNat + x.ring.toNat)).stack.length + x.savedAct.length ≤ 16 →
      (∀ p ∈ s.xl.pos, p.waits = [] ∧ p.parked = []) →
      let T : Nat := (arg a 2 16 : BitVec 16).toNat
      ∃ t u, exec (.vtResident m) s = .next t ∧ answered s u t m.val i (0, 0, resPut 0 (BitVec.ofNat 16 c)) ∧
        u = { s with vt := u.vt, ctx := u.ctx, frame := u.frame, pair := u.pair, acc := { s.acc with slot := u.acc.slot }, xl := u.xl, mem := u.mem,
                     rat := u.rat, arb := u.arb } ∧ othersOf u ∧
        u.vtAt v = { x with resident := true, slot := BitVec.ofNat 11 c, savedAct := [], dropTold := false } ∧
        u.ctxAt c = { s.ctxAt c with used := true, vt := BitVec.ofNat 16 v, ring := x.ring, target := BitVec.ofNat 9 T, refilling := false } ∧
        (∀ j, j ≠ c → u.ctxAt j = s.ctxAt j) ∧ u.frameAt (2048 + c) = { x.saved with shadow := 0, stage := 0, flag := false } ∧
        (∀ j, j ≠ 2048 + c → u.frameAt j = s.frameAt j) ∧
        (u.pairAt (4 * T + x.ring.toNat)).stack =
          x.savedAct.map (fun y => y.retag (BitVec.ofNat 9 T) x.ring (some (BitVec.ofNat 11 c))) ++ (s.pairAt (4 * T + x.ring.toNat)).stack) ∧
    (turnOf s m.val i 0x0042 → m.val ≤ 1 → x.resident = true → x.running = false → (∀ p ∈ s.xl.pos, p.waits = [] ∧ p.parked = []) →
      let c := x.slot.toNat
      let T := (s.ctxAt c).target.toNat
      let k := 4 * T + (s.ctxAt c).ring.toNat
      ∃ t u, exec (.vtEvict m) s = .next t ∧ answered s u t m.val i (0, 0, 0) ∧ othersOf u ∧ u.clk = s.clk ∧ u.wired = s.wired ∧ u.links = s.links ∧
        (u.vtAt v).resident = false ∧ (u.vtAt v).slot = 0 ∧ (u.vtAt v).defined = x.defined ∧
        (u.vtAt v).savedAct = ((s.pairAt k).stack.filter (fun y => y.inst.slot == some x.slot)).map (fun y => y.retag x.dbTarget x.ring none) ∧
        (u.vtAt v).saved = { s.frameAt (2048 + c) with shadow := 0, stage := 0, flag := false } ∧ u.frameAt (2048 + c) = Frame.reset ∧
        (u.ctxAt c).used = false ∧ (u.pairAt k).stack = (s.pairAt k).stack.filter (fun y => y.inst.slot != some x.slot) ∧
        (∀ y ∈ (u.tgtAt T).store, y.slot ≠ some x.slot)) ∧
    (turnOf s m.val i 0x0043 → m.val ≤ 1 → x.defined = true → x.resident = false → x.running = false → x.bivouac = [] → x.savedAct = [] →
      let page : BitVec 40 := field x.area 7 40
      let z : Zeroing :=
        { act := 3, belay := x.dbTarget.toNat / 2, page := page, pages := areaPages x.cap, next := page ++ (0#7 : BitVec 7), left := 16 + x.cap.toNat,
          vt := some (BitVec.ofNat 16 v) }
      ∃ t u w, exec (.vtDestroy m) s = .next t ∧ answered s w t m.val i (0, 0, 0) ∧ onlyLevels u w ∧
        u = { s with vt := u.vt, rat := u.rat, mem := u.mem, arb := u.arb,
                     boot := { s.boot with zeroing := s.boot.zeroing ++ [z] } } ∧ othersOf u ∧
        u.vtAt v = Vt.reset) ∧
    (turnOf s m.val i 0x0042 → m.val ≤ 1 → x.resident = false → ∃ t, exec (.vtEvict m) s = .next t ∧ answered s s t m.val i (6, 0, 0)) ∧
    (turnOf s m.val i 0x0044 → m.val = 1 →
      let T : Nat := (arg a 0 16 : BitVec 16).toNat
      let n : Nat := (arg a 2 8 : BitVec 8).toNat
      let w : Nat := (arg a 4 16 : BitVec 16).toNat
      T < 512 → n < 4 →
      (∀ y, (arg a 3 8 : BitVec 8) = 0 → s.vtAt w = y → y.resident = true → (s.ctxAt y.slot.toNat).target.toNat = T → (s.ctxAt y.slot.toNat).ring.toNat = n →
        (s.ctxAt y.slot.toNat).vt.toNat = w → (s.pairAt (4 * T + n)).running = none →
        ∃ t u z, exec (.vtRun m) s = .next t ∧ answered s z t m.val i (0, 0, resPut 0 (0xFFFF : BitVec 16)) ∧ onlyLevels u z ∧
          u = { s with vt := u.vt, pair := u.pair } ∧ u.vtAt w = { y with running := true, notified := false } ∧ (∀ j, j ≠ w → u.vtAt j = s.vtAt j) ∧
          u.pairAt (4 * T + n) = { s.pairAt (4 * T + n) with running := some y.slot } ∧ ∀ j, j ≠ 4 * T + n → u.pairAt j = s.pairAt j) ∧
      (∀ c r, (arg a 3 8 : BitVec 8) = 1 → (s.pairAt (4 * T + n)).running = some c → (s.ctxAt c.toNat).vt.toNat = r →
        ∃ t u z d, exec (.vtRun m) s = .next t ∧ answered s z t m.val i (0, 0, d) ∧ field d 0 16 = BitVec.ofNat 16 r ∧ onlyLevels u z ∧
          u = { s with vt := u.vt, pair := u.pair } ∧ u.vtAt r = { s.vtAt r with running := false } ∧ (∀ j, j ≠ r → u.vtAt j = s.vtAt j) ∧
          u.pairAt (4 * T + n) = { s.pairAt (4 * T + n) with running := none } ∧ ∀ j, j ≠ 4 * T + n → u.pairAt j = s.pairAt j))

/-- Spec/12 R305, R308, R313, R316, R318: an accepted RATION_SET or CONTRACT_SET takes effect, and is answered, at the next round boundary; beyond the
limits BAD_ARG, and beyond the contract OVERCOMMIT with no effect but the OVERCOMMIT flag. -/
def Obligations.RationsWaitForTheBoundary : Prop :=
  (∀ (i : Nat) (s : State), turnOf s 0 i 0x0050 →
    let a := argsOf s 0 i
    let act : Nat := (arg a 0 8 : BitVec 8).toNat
    let unit : Nat := (arg a 2 16 : BitVec 16).toNat
    let cycles : Nat := (arg a 4 16 : BitVec 16).toNat
    let bytes : Nat := (arg a 8 32 : BitVec 32).toNat
    (arg a 1 8 : BitVec 8) = 1 → act ≠ 0 → actOk act 1 unit = true → unit < 256 →
    (1024 < cycles → bytes ≤ bytesMax act 1 → ∃ t, exec (.rationSet 0) s = .next t ∧ answered s s t 0 i (5, 4, s.memResult)) ∧
    (cycles ≤ 1024 → bytes ≤ bytesMax act 1 → noContract s →
      cycles + sumBelow (fun x => if x = 0 ∨ x = act then 0 else (s.quotaAt x 1 unit).nextCycles.getD (s.cyclesOf x 1 unit)) 11 ≤ 1024 →
      s.rat.round ≤ (s.quotaAt act 1 unit).round →
      ∃ t u, exec (.rationSet 0) s = .next t ∧ takenOnly s u t 0 i ∧
        u = { s with rat := { s.rat with quota := u.rat.quota, waiters := u.rat.waiters } } ∧
        u.quotaAt act 1 unit = { s.quotaAt act 1 unit with nextCycles := some cycles, nextBytes := some bytes } ∧
        (∀ x y z, quotaKey x y z ≠ quotaKey act 1 unit → u.quotaAt x y z = s.quotaAt x y z) ∧
        ∃ r, u.rat.waiters = s.rat.waiters ++ [(0, i, r)] ∧ field r 32 8 = (0 : BitVec 8) ∧ field r 0 32 = field (s.slotAt 0 i).req 0 32)) ∧
  (∀ (i : Nat) (s : State), turnOf s 0 i 0x0051 →
    let a := argsOf s 0 i
    let bytes : Nat := (arg a 0 32 : BitVec 32).toNat
    let c : Contract := { bytes := arg a 0 32, latency := arg a 4 32, percentile := arg a 8 16, keepWarm := (arg a 10 8 : BitVec 8).toNat = 1 }
    (bytes < 6144 → ∃ t, exec (.contractSet 0) s = .next t ∧ answered s s t 0 i (5, 0, s.memResult)) ∧
    (6144 ≤ bytes → bytes ≤ 32 * s.memClkRound → 100 ≤ (arg a 4 32 : BitVec 32).toNat → (arg a 4 32 : BitVec 32).toNat ≤ s.latencyMax →
      9900 ≤ (arg a 8 16 : BitVec 16).toNat → (arg a 8 16 : BitVec 16).toNat ≤ 9999 → (arg a 10 8 : BitVec 8).toNat ≤ 1 →
      let u := s.modRat (fun r => { r with nextContract := some c })
      let committed := ({ u with rat := { u.rat with contract := some c } } : State).committed
      (committed ≤ 9 * bytes / 10 →
        ∃ t r, exec (.contractSet 0) s = .next t ∧
          takenOnly s { u with rat := { u.rat with waiters := u.rat.waiters ++ [(0, i, r)] } } t 0 i ∧ field r 32 8 = (0 : BitVec 8)) ∧
      (9 * bytes / 10 < committed →
        ∃ t, exec (.contractSet 0) s = .next t ∧ answered s (s.modRat (fun r => { r with overcommit := true })) t 0 i (3, 0, s.memResult))))

/-- Spec/09 R228, R233, R235, R242; spec/10 R249, R262: LINK_CONFIG sets a down link's configuration and zeroes its keys, so that an authenticated one is held,
its OK waiting where its quad must be powered; LINK_UP answers once the link is up, or TIMEOUT when its bound has passed; LINK_DOWN takes it down with DOWN_REASON 5; LINK_KEY sets a key
slot and the transmit slot of an authenticated link; PARTNER_ROLE STANDBY relinquishes pairs; NOT_FOUND without configuration. -/
def Obligations.LinkCommandsAct : Prop :=
  (∀ (m : Fin 34) (i : Nat) (s : State), turnOf s m.val i 0x0060 → m.val ≤ 1 → s.allQuiet = true → noContract s →
    let a := argsOf s m.val i
    let k : Nat := (arg a 0 8 : BitVec 8).toNat
    let c := linkCfgOf a
    lowestBad (s.linkCfgBad a) = none → (s.linkAt k).state = 0 → (s.linkAt k).cfg = none → c.col = true →
    let set (u : State) : Prop :=
      u = { s with xl := u.xl, rat := u.rat, links := u.links, quads := u.quads } ∧ u.xl.pinned = s.xl.pinned ∧ (∀ j, j ≠ k → u.linkAt j = s.linkAt j) ∧
        u.linkAt k = { s.linkAt k with
          cfg := some { c with pinBase := 0 }, keys := [none, none], txSlot := false, wantUp := false, train := Training.reset,
          state := if c.auth then 2 else 1, downReason := if c.auth then (if s.boot.entropy then 8 else 7) else (s.linkAt k).downReason,
          lastChange := s.clk.time.setWidth 48 }
    (∀ q, q < 4 → (s.quadAt q).waiters = []) →
    ((∀ b ∈ s.xl.blocks, b.req ≠ BitVec.ofNat 16 (0xFF00 + k)) →
      ((s.quadAt c.quad.toNat).powered = true →
        ∃ t u, exec (.linkConfig m) s = .next t ∧ answered s u t m.val i (0, 0, 0) ∧ set u) ∧
      ((s.quadAt c.quad.toNat).powered = false →
        ∃ t u, exec (.linkConfig m) s = .next t ∧ takenOnly s u t m.val i ∧ set u ∧
          ∃ r, (u.quadAt c.quad.toNat).waiters = (s.quadAt c.quad.toNat).waiters ++ [(m.val, i, r)] ∧ field r 32 8 = (0 : BitVec 8)))) ∧
  (∀ (m : Fin 34) (i : Nat) (c : LinkCfg) (s : State), m.val ≤ 1 →
    let a := argsOf s m.val i
    let k : Nat := (arg a 0 8 : BitVec 8).toNat
    let l := s.linkAt k
    k ≤ 15 → l.cfg = some c →
    (turnOf s m.val i 0x0061 → s.upExpired m.val = none → l.state = 5 → l.wantUp = true →
      ∃ t u, exec (.linkUp m) s = .next t ∧ answered s u t m.val i (0, 0, 0) ∧ onlyLink s u k ∧ u.linkAt k = l) ∧
    (turnOf s m.val i 0x0061 → s.upExpired m.val = none → l.state = 1 → s.rope.hbRunning = false → c.auth = false →
      ∃ t u, exec (.linkUp m) s = .next t ∧ takenOnly s u t m.val i ∧ onlyLink s u k ∧ (u.linkAt k).wantUp = true ∧
        (u.linkAt k).upWait = l.upWait ++ [{ mbox := m.val, slot := i, since := s.clk.ticks, seq := s.camp.execSeq + 1, failover := false }]) ∧
    (turnOf s m.val i 0x0062 → c.col = false → c.paired = false → l.state = 5 →
      ∃ t u, exec (.linkDown m) s = .next t ∧ answered s u t m.val i (0, 0, 0) ∧ u = { s with links := u.links, lanes := u.lanes } ∧
        linkLost s u k 5 ∧ (u.linkAt k).wantUp = false ∧ (u.linkAt k).cfg = some c) ∧
    (∀ key, turnOf s m.val i 0x0063 → m = 0 → c.auth = true → l.state ≠ 2 → l.keys.length = 2 → (arg a 1 8 : BitVec 8).toNat ≤ 1 → (arg a 2 8 : BitVec 8).toNat ≤ 1 →
      (arg a 8 128 : BitVec 128) = key →
      ∃ t u, exec (.linkKey m) s = .next t ∧ answered s u t m.val i (0, 0, 0) ∧ onlyLink s u k ∧
        u.linkAt k = { l with keys := (u.linkAt k).keys, txSlot := if (arg a 2 8 : BitVec 8) = 1 then (arg a 1 8 : BitVec 8) == 1 else l.txSlot } ∧
        ∀ j, j < 2 → (u.linkAt k).keys.getD j none = if j = (arg a 1 8 : BitVec 8).toNat then some key else l.keys.getD j none)) ∧
  (∀ (m : Fin 34) (i : Nat) (w : UpWait) (k : Nat) (s : State), s.running = true → s.upExpired m.val = some (k, w) → w.mbox = m.val → w.slot = i →
    (s.mbxAt m.val).enable = false →
    ∃ t, exec (.linkUp m) s = .next t ∧ t = { s with links := t.links, mbx := t.mbx } ∧ (∀ j, j ≠ k → t.linkAt j = s.linkAt j) ∧
      t.linkAt k = { s.linkAt k with upWait := (s.linkAt k).upWait.filter (fun x => x != w) } ∧ (∀ j, j ≠ m.val → t.mbxAt j = s.mbxAt j) ∧
      t.slotAt m.val i = { s.slotAt m.val i with
        running := false, done := true, resp := respWords (s.slotAt m.val i).req (9, 0, 0) w.failover w.seq }) ∧
  (∀ (i : Nat) (s : State), turnOf s 0 i 0x0064 →
    let a := argsOf s 0 i
    (s.colLink = none → (arg a 2 8 : BitVec 8).toNat ≤ 1 → ∃ t, exec (.partnerRole 0) s = .next t ∧ answered s s t 0 i (6, 0, 0)) ∧
    (∀ c, s.colLink = some c → (arg a 2 8 : BitVec 8) = 0 → s.partner.everUp = true → (s.linkAt c).state = 1 →
      ∃ t u, exec (.partnerRole 0) s = .next t ∧ answered s u t 0 i (0, 0, 0) ∧ u = { s with links := u.links, partner := u.partner } ∧
        (∀ p, p < 16 → bitAt u.partner.active p = (bitAt s.partner.active p && !(bitAt (arg a 0 16 : BitVec 16) p && (s.pairLink p).isSome))) ∧
        ∀ p k, p < 16 → bitAt (arg a 0 16 : BitVec 16) p = true → s.pairLink p = some k → bitAt s.partner.active p = true → (u.linkAt k).demoted = true))

/-- Spec/14 R366 to R373, R379, R381; spec/10 R273: SLICE_TEST takes a ridge, belay, standby Camp pair or cache bank into its test, or is refused by its
state; the test ends, commits and answers at the tick that follows (the model's choice, log 63), its unit in its former role with the new result. Of a
free lane it sets the lane's test. SLICE_SWAP moves a ridge's position to the spare once it has nothing left to forward, withholding its couloir
until then, and returns a tested ridge as the spare, starts a belay's cover and ends it after a test, excludes a lane and includes it, passes Camp's
role on, and fences a cache bank whose neighbour is in use; a second unit of a KIND is BUSY_RETRY. -/
def Obligations.UnitsAreTestedAndSwapped : Prop :=
  ∀ (i : Nat) (s : State), let a := argsOf s 0 i
    let kind : BitVec 8 := arg a 0 8
    let unit : Nat := (arg a 2 16 : BitVec 16).toNat
    let action : BitVec 8 := arg a 4 8
    XlatShape s.xl →
    let test (kind : Nat) (former : BitVec 3) (found : BitVec 32) : UnitTest :=
      { mbox := 0, slot := i, kind := kind, unit := unit, former := former, found := found }
    let runs (t : State) (c : Camp) (x : Xlat) (b : Tbl Belay) : Prop :=
      t = { s with mbx := t.mbx, camp := c, xl := x, bel := b } ∧ (∀ m, m ≠ 0 → t.mbxAt m = s.mbxAt m) ∧
        t.mbxAt 0 = { s.mbxAt 0 with order := (s.mbxAt 0).order.drop 1, slots := (t.mbxAt 0).slots } ∧ (∀ j, j ≠ i → t.slotAt 0 j = s.slotAt 0 j) ∧
        t.slotAt 0 i = { s.slotAt 0 i with posted := false, running := true }
    (∀ found, turnOf s 0 i 0x0070 → unit < unitsOf kind.toNat → (∀ j, j < 8 → (arg a (4 + j) 8 : BitVec 8) = 0) →
      (∀ c, kind ≠ 2 → kind.toNat ≤ 4 → s.testRefused kind.toNat unit = some c →
        ∃ t, exec (.sliceTest 0 found) s = .next t ∧ answered s s t 0 i (c, 0, 0)) ∧
      (s.testRefused kind.toNat unit = none →
        (kind = 0 → ∃ t, exec (.sliceTest 0 found) s = .next t ∧
          runs t { s.camp with rr := 0, testing := some (test 0 (s.ridgeAt unit).role found) } { s.xl with ridge := t.xl.ridge } s.bel ∧
          t.ridgeAt unit = { s.ridgeAt unit with role := 2 } ∧ ∀ j, j ≠ unit → t.ridgeAt j = s.ridgeAt j) ∧
        (kind = 1 → ∃ t, exec (.sliceTest 0 found) s = .next t ∧ runs t { s.camp with rr := 0, testing := some (test 1 0 found) } s.xl t.bel ∧
          t.belAt unit = { s.belAt unit with role := 3 } ∧ ∀ j, j ≠ unit → t.belAt j = s.belAt j) ∧
        (kind = 3 → ∃ t, exec (.sliceTest 0 found) s = .next t ∧
          runs t { s.camp.setExec (!s.camp.active) false with rr := 0, testing := some (test 3 0 found), standby := 4, staged := none } s.xl s.bel) ∧
        (kind = 4 → ∃ t, exec (.sliceTest 0 found) s = .next t ∧
          runs t { s.camp with rr := 0, testing := some (test 4 (if bitAt s.xl.fenced unit then 1 else 0) found) } t.xl s.bel ∧
          bitAt t.xl.fenced unit = true ∧ ∀ l, l ∈ t.xl.cache → l.set.toNat / 512 = unit → bitAt s.xl.fenced unit = true))) ∧
    (∀ u : UnitTest, s.pending = [] → s.running = true → s.camp.executing = true → s.camp.testing = some u → s.cp.held = [] → s.xl.jobs = [] →
      let detail := failDetail u.found
      ∃ t, step s = .next t ∧ t.camp.testing = none ∧ t.camp.execSeq = s.camp.execSeq + 1 ∧
        t.slotAt u.mbox u.slot = { s.slotAt u.mbox u.slot with
          running := false, done := true, resp := respWords (s.slotAt u.mbox u.slot).req (testAnswer detail) false (s.camp.execSeq + 1) } ∧
        (u.kind = 0 → u.unit < 5 → (t.ridgeAt u.unit).role = u.former ∧ (t.ridgeAt u.unit).passedTest = (detail == 0)) ∧
        (u.kind = 1 → (t.belAt u.unit).role = 2 ∧ (t.belAt u.unit).passedTest = (detail == 0)) ∧
        (u.kind = 3 → t.camp.standby = if detail = 0 then 2 else 3) ∧
        (u.kind = 4 → u.unit < 16 → bitAt t.xl.fenced u.unit = (bitAt s.xl.fenced u.unit && !(u.former == 0 && detail == 0)))) ∧
    (∀ found, turnOf s 0 i 0x0070 → kind = 2 → unit < 16 → (arg a 4 8 : BitVec 8) = 1 → lowestBad (s.laneTestBad a) = none → s.otherOut 2 unit = false →
      s.laneLink unit = none → (s.quadAt (unit / 4)).powered = true →
      ∃ t u, exec (.sliceTest 0 found) s = .next t ∧ answered s u t 0 i (0, 0, 0) ∧ onlyLane s u unit ∧ (u.laneAt unit).test = 1 ∧
        (u.laneAt unit).chkPattern = arg a 5 3 ∧ (u.laneAt unit).rateNow = arg a 7 2 ∧ (u.laneAt unit).squelched = !s.rope.hbRunning ∧
        (u.laneAt unit).chkSymbols = 0 ∧ (u.laneAt unit).chkLocked = false) ∧
    (turnOf s 0 i 0x0071 →
      (∀ n, kind = 0 → unit < 5 → action = 0 → s.otherOut 0 unit = false → (s.ridgeAt unit).role = 0 → s.spare = some n →
        let p := (s.ridgeAt unit).position.toNat
        (s.posBusy p = true → ∃ t, exec (.sliceSwap 0) s = .next t ∧ t = { s with xl := { s.xl with pos := t.xl.pos } } ∧
          (∀ j, j ≠ p → t.posAt j = s.posAt j) ∧ t.posAt p = { s.posAt p with stalled := true }) ∧
        (s.posBusy p = false →
          ∃ t u, exec (.sliceSwap 0) s = .next t ∧ answered s u t 0 i (0, 0, 0) ∧ (∀ j, j ≠ unit → j ≠ n → u.ridgeAt j = s.ridgeAt j) ∧
            u.ridgeAt unit = { s.ridgeAt unit with role := 3, passedTest := false, swapped := true } ∧
            u.ridgeAt n = { s.ridgeAt n with role := 0, position := BitVec.ofNat 2 p } ∧ u.ridgeOf p = n ∧ (∀ j, j < 4 → j ≠ p → u.ridgeOf j = s.ridgeOf j) ∧
            ((s.posAt p).walks = [] → u = { s with xl := { s.xl with ridge := u.xl.ridge, ridgeMap := u.xl.ridgeMap, pos := u.xl.pos } } ∧
              ∀ j, j < 4 → u.posAt j = { s.posAt j with stalled := false }))) ∧
      (kind = 0 → unit < 5 → action = 1 → (s.ridgeAt unit).role = 3 → (s.ridgeAt unit).passedTest = true → (∀ q ∈ s.xl.pos, q.unserved = none) →
        ∃ t u, exec (.sliceSwap 0) s = .next t ∧ answered s u t 0 i (0, 0, 0) ∧ u = { s with xl := { s.xl with ridge := u.xl.ridge } } ∧
          (∀ j, j ≠ unit → u.ridgeAt j = s.ridgeAt j) ∧ u.ridgeAt unit = { s.ridgeAt unit with role := 1, swapped := false }) ∧
      (kind = 0 → unit < 5 → action = 1 → (s.ridgeAt unit).passedTest = false → ∃ t, exec (.sliceSwap 0) s = .next t ∧ answered s s t 0 i (4, 0, 0)) ∧
      (kind = 1 → unit < 256 → action = 0 → s.otherOut 1 unit = false → (s.belAt unit).role = 0 → (s.belAt (unit ^^^ 1)).role = 0 →
        (s.belAt unit).landing = [] →
        ∃ t u w, exec (.sliceSwap 0) s = .next t ∧ answered s w t 0 i (0, 0, 0) ∧ onlyLevels u w ∧ u = { s with bel := u.bel, arb := u.arb } ∧
          (∀ j, j ≠ 100 + unit → u.arbAt j = s.arbAt j) ∧ (∀ j, j ≠ unit → j ≠ unit ^^^ 1 → u.belAt j = s.belAt j) ∧
          u.belAt unit = { s.belAt unit with role := 2, coverSince := s.clk.time.setWidth 48, passedTest := false, swapped := true } ∧
          u.belAt (unit ^^^ 1) = { s.belAt (unit ^^^ 1) with role := 1, coverSince := s.clk.time.setWidth 48 }) ∧
      (kind = 1 → unit < 256 → action = 1 → (s.belAt unit).role = 2 → (s.belAt unit).passedTest = true → (s.belAt unit).pendSwitch = false →
        ∃ t u w, exec (.sliceSwap 0) s = .next t ∧ answered s w t 0 i (0, 0, 0) ∧ onlyLevels u w ∧ u = { s with bel := u.bel } ∧
          (∀ j, j ≠ unit → j ≠ unit ^^^ 1 → u.belAt j = s.belAt j) ∧ u.belAt unit = { s.belAt unit with role := 0, swapped := false } ∧
          u.belAt (unit ^^^ 1) = { s.belAt (unit ^^^ 1) with role := 0 }) ∧
      (kind = 4 → unit < 16 → action = 0 → s.otherOut 4 unit = false → bitAt s.xl.fenced unit = false → bitAt s.xl.fenced (unit ^^^ 1) = false →
        ∃ t u, exec (.sliceSwap 0) s = .next t ∧ answered s u t 0 i (0, 0, 0) ∧
          u = { s with xl := { s.xl with fenced := setBit s.xl.fenced unit true, fenceTest := setBit s.xl.fenceTest unit false,
                                         fenceSwap := setBit s.xl.fenceSwap unit true, cache := u.xl.cache } } ∧
          ∀ l, l ∈ u.xl.cache ↔ l ∈ s.xl.cache ∧ l.set.toNat / 512 ≠ unit) ∧
      (kind = 2 → unit < 16 → s.laneLink unit = none →
        (action = 0 → s.otherOut 2 unit = false → ∃ t u, exec (.sliceSwap 0) s = .next t ∧ answered s u t 0 i (0, 0, 0) ∧ onlyLane s u unit ∧
          u.laneAt unit = { s.laneAt unit with excluded := true }) ∧
        (action = 1 → ∃ t u, exec (.sliceSwap 0) s = .next t ∧ answered s u t 0 i (0, 0, 0) ∧ onlyLane s u unit ∧
          u.laneAt unit = { s.laneAt unit with excluded := false })) ∧
      (kind = 3 → unit = (if s.camp.active then 1 else 0) → action = 0 → s.camp.standby = 0 → s.camp.staged = none →
        ∃ t, exec (.sliceSwap 0) s = .next t ∧ answered s { s with
          camp := { (s.camp.setExec s.camp.active false).setOk s.camp.active true with active := !s.camp.active, standby := 2 } } t 0 i (0, 0, 0)) ∧
      (kind.toNat ≤ 4 → unit < unitsOf kind.toNat → action = 0 → s.otherOut kind.toNat unit = true →
        ∃ t, exec (.sliceSwap 0) s = .next t ∧ answered s s t 0 i (1, 0, 0)))

/-- Spec/14 R375 to R377; spec/11 R296 to R299: BELAY_LOAD puts a signed bank into the inactive banks it names, BELAY_SWITCH makes them pending, and the
switch happens at a pitch's end, or by force after 10 µs. FW_STAGE verifies an image against its checks in order and stages it at the standby pair;
FW_ACTIVATE hands the role to that pair with its versions. The verify engine counts its runs. -/
def Obligations.CodeIsLoadedAndSwitched : Prop :=
  (∀ (i : Nat) (img : Image) (s : State), turnOf s 0 i 0x0072 →
    let a := argsOf s 0 i
    let verified (good : Bool) : Camp := { s.camp with
      verifyRuns := s.camp.verifyRuns + 1, verifyBad := if good then s.camp.verifyBad else s.camp.verifyBad + 1, lastVerify := good }
    (field (arg a 0 64 : BitVec 64) 0 6 : BitVec 6) = 0 → (arg a 8 32 : BitVec 32).toNat = 0x80 + (imgCodeLength img).toNat →
    imgMagic img = 0x48435450 → imgReservedZero img = true → imgCodeOk img 1024 = true → imgImportFrom img = 0 →
    (∀ b, (arg a 12 16 : BitVec 16).toNat = b → b < 256 → (s.belAt b).pendSwitch = false →
      (imgSigned s.rom img = true →
        ∃ t u, exec (.belayLoad 0 img) s = .next t ∧ answered s u t 0 i (0, 0, resPut 0 (imgVersion img)) ∧
          u = { s with bel := u.bel, camp := verified true } ∧ (∀ j, j ≠ b → u.belAt j = s.belAt j) ∧
          u.belAt b = { s.belAt b with inactive := true, inactiveVer := imgVersion img }) ∧
      (imgSigned s.rom img = false → ∃ t, exec (.belayLoad 0 img) s = .next t ∧ answered s { s with camp := verified false } t 0 i (4, 2, 0)))) ∧
  (∀ (i : Nat) (s : State), turnOf s 0 i 0x0073 →
    let a := argsOf s 0 i
    let b : Nat := (arg a 0 16 : BitVec 16).toNat
    let x := s.belAt b
    b < 256 →
    ((arg a 2 8 : BitVec 8) = 0 → x.inactive = true →
      ∃ t u, exec (.belaySwitch 0) s = .next t ∧ answered s u t 0 i (0, 0, 0) ∧ u = { s with bel := u.bel } ∧ (∀ j, j ≠ b → u.belAt j = s.belAt j) ∧
        u.belAt b = { x with pendSwitch := true, pendSince := if x.pendSwitch then x.pendSince else s.clk.ticks }) ∧
    ((arg a 2 8 : BitVec 8) = 0 → x.inactive = false → ∃ t, exec (.belaySwitch 0) s = .next t ∧ answered s s t 0 i (6, 0, 0)) ∧
    ((arg a 2 8 : BitVec 8) = 1 → x.pendSwitch = true → x.pendSince + 1000 ≤ s.clk.ticks → x.role = 0 → (s.belAt (b ^^^ 1)).role = 0 →
      ∃ t u, exec (.belaySwitch 0) s = .next t ∧ answered s u t 0 i (0, 0, 0) ∧ u = { s with bel := u.bel } ∧ (∀ j, j ≠ b → u.belAt j = s.belAt j) ∧
        u.belAt b = { x with bank := !x.bank, activeVer := x.inactiveVer, inactiveVer := x.activeVer, pendSwitch := false, forced := true })) ∧
  (∀ (b : Fin 256) (s : State), s.running = true → (s.belAt b.val).pendSwitch = true → (s.belAt b.val).role = 0 →
    ∃ t, exec (.bankSwitch b) s = .next t ∧ t = { s with bel := t.bel } ∧ (∀ j, j ≠ b.val → t.belAt j = s.belAt j) ∧
      t.belAt b.val = { s.belAt b.val with
        bank := !(s.belAt b.val).bank, activeVer := (s.belAt b.val).inactiveVer, inactiveVer := (s.belAt b.val).activeVer, pendSwitch := false,
        forced := false }) ∧
  (∀ (i : Nat) (img : Image) (s : State), turnOf s 0 i 0x0080 → s.camp.standby = 0 → s.camp.staged = none →
    let a := argsOf s 0 i
    (field (arg a 0 64 : BitVec 64) 0 6 : BitVec 6) = 0 →
    (s.stageFault a img = none → imgSigned s.rom img = true →
      ∃ t, exec (.fwStage 0 img) s = .next t ∧
        answered s { s with camp := { s.camp with
          verifyRuns := s.camp.verifyRuns + 1, lastVerify := true, standby := 1,
          staged := some { version := imgVersion img, secVer := imgSecVersion img, level := imgLevel img } } } t 0 i
          (0, 0, resPut 0 (imgVersion img) ||| resPut 4 (imgSecVersion img) ||| resPut 8 (imgLevel img))) ∧
    (∀ r, s.stageFault a img = some r → ∃ t, exec (.fwStage 0 img) s = .next t ∧ answered s s t 0 i r)) ∧
  (∀ (i : Nat) (loads : Bool) (s : State), turnOf s 0 i 0x0081 →
    (s.camp.staged = none → ∃ t, exec (.fwActivate 0 loads) s = .next t ∧ answered s s t 0 i (6, 0, 0)) ∧
    (∀ x, s.camp.staged = some x → (arg (argsOf s 0 i) 0 32 : BitVec 32) ≠ x.version → ∃ t, exec (.fwActivate 0 loads) s = .next t ∧ answered s s t 0 i (5, 0, 0)) ∧
    (∀ x, s.camp.staged = some x → (arg (argsOf s 0 i) 0 32 : BitVec 32) = x.version → loads = true →
      ∃ t, exec (.fwActivate 0 loads) s = .next t ∧
        answered s { s with
          camp := { (s.camp.setExec s.camp.active false).setOk s.camp.active true with active := !s.camp.active, standby := 2, staged := none },
          boot := { s.boot with fwVersion := x.version, secVersion := x.secVer, level := x.level } } t 0 i
          (0, 0, resPut 0 x.version ||| resPut 4 ((bit (!s.camp.active)).setWidth 8)))) ∧
  (∀ (e r s' x y : BitVec 256) (s : State), s.running = true →
    ∃ t good, exec (.signatureVerifyDone e r s' x y) s = .next t ∧ t = { s with camp := { s.camp with
      verifyRuns := s.camp.verifyRuns + 1, verifyBad := if good then s.camp.verifyBad else s.camp.verifyBad + 1, lastVerify := good } } ∧
      (good = true ↔ r ≠ 0 ∧ s' ≠ 0 ∧ r.toNat < p256n ∧ s'.toNat < p256n ∧ x.toNat < p256p ∧ y.toNat < p256p ∧ ¬(x = 0 ∧ y = 0) ∧
        onCurve x.toNat y.toNat = true ∧ ∃ px, ecdsaPoint e.toNat r.toNat s'.toNat x.toNat y.toNat = some px ∧ px % p256n = r.toNat))

/-- Spec/11 R291, R302, R303; spec/13 R343; spec/16 R424, R427; spec/15 R405, R408: SNAPSHOT answers an object and leaves it; CAIRN_CLEAR zeroes a record,
one of SEVERITY 3 only for ring 0; ACCESS_SLOT_SET writes a descriptor; ROPE_MAP sets an input's output until it is locked; SAVE_NOW starts a wake
record with SOURCE 2 and is answered when it is written. -/
def Obligations.CommonUnitCommandsAct : Prop :=
  (∀ (m : Fin 34) (i : Nat) (s : State), turnOf s m.val i 0x0090 →
    let a := argsOf s m.val i
    let key : Nat := (arg a 2 16 : BitVec 16).toNat
    ((arg a 0 8 : BitVec 8) = 8 → guestOf m.val = none → key < 384 →
      ∃ t r, exec (.snapshot m) s = .next t ∧ answered s s t m.val i (0, 0, r) ∧ field r 0 8 = (8 : BitVec 8) ∧
        field r 32 256 = (resWords 0 (s.cairnAt key).words).setWidth 256) ∧
    ((arg a 0 8 : BitVec 8) = 8 → guestOf m.val = none → 384 ≤ key → ∃ t, exec (.snapshot m) s = .next t ∧ answered s s t m.val i (5, 2, 0)) ∧
    (∀ g, (arg a 0 8 : BitVec 8) = 8 → guestOf m.val = some g → ∃ t, exec (.snapshot m) s = .next t ∧ answered s s t m.val i (4, 0, 0))) ∧
  (∀ (m : Fin 34) (i : Nat) (s : State), turnOf s m.val i 0x0091 → m.val ≤ 1 →
    let k : Nat := (arg (argsOf s m.val i) 0 16 : BitVec 16).toNat
    (k < 384 → (m.val = 0 ∨ (s.cairnAt k).sev.toNat < 3) →
      ∃ t u, exec (.cairnClear m) s = .next t ∧ answered s u t m.val i (0, 0, 0) ∧ u = { s with cairn := { s.cairn with recs := u.cairn.recs } } ∧
        u.cairnAt k = CairnRec.reset ∧ ∀ j, j ≠ k → u.cairnAt j = s.cairnAt j) ∧
    (k < 384 → m.val = 1 → 3 ≤ (s.cairnAt k).sev.toNat → ∃ t, exec (.cairnClear m) s = .next t ∧ answered s s t m.val i (4, 0, 0)) ∧
    (384 ≤ k → k ≠ 0xFFFF → ∃ t, exec (.cairnClear m) s = .next t ∧ answered s s t m.val i (5, 0, 0))) ∧
  (∀ (i : Nat) (s : State), turnOf s 0 i 0x00A0 →
    let a := argsOf s 0 i
    let k : Nat := (arg a 0 16 : BitVec 16).toNat
    let d : Desc := { w0 := arg a 8 64, w1 := arg a 16 64, w2 := arg a 24 64, w3 := arg a 32 64, bad := false }
    k < 18 ∨ 50 ≤ k → lowestBad (descBad k true d) = none →
      ∃ t u, exec (.accessSlotSet 0) s = .next t ∧ answered s u t 0 i (0, 0, 0) ∧
        u = { s with acc := { s.acc with slot := u.acc.slot }, xl := { s.xl with rewrites := u.xl.rewrites } } ∧ u.descAt k = d ∧
        ∀ j, j ≠ k → u.descAt j = s.descAt j) ∧
  (∀ (i : Nat) (s : State), turnOf s 0 i 0x00A1 →
    let a := argsOf s 0 i
    let input : Nat := (arg a 0 8 : BitVec 8).toNat
    let output : Nat := (arg a 1 8 : BitVec 8).toNat
    (s.rope.locked = true → ∃ t, exec (.ropeMap 0) s = .next t ∧ answered s s t 0 i (4, 0, 1)) ∧
    (s.rope.locked = false → input < 64 ∨ input = 0xFF → output < 16 ∨ output = 0xFF → (arg a 2 8 : BitVec 8).toNat ≤ 1 →
      ∃ t u, exec (.ropeMap 0) s = .next t ∧ answered s u t 0 i (0, 0, resPut 0 (arg a 2 8 : BitVec 8)) ∧
        u = { s with rope := { s.rope with map := u.rope.map, locked := (arg a 2 8 : BitVec 8) == 1 } } ∧
        ∀ j, j < 64 → u.ropeOf j = (if j = input ∨ input = 0xFF then
          (if output = 0xFF then RopeOut.reset else { mapped := true, output := BitVec.ofNat 4 output }) else s.ropeOf j))) ∧
  (∀ (i : Nat) (s : State), turnOf s 0 i 0x00F0 →
    (s.pwr.warn = true ∨ s.pwr.save ≠ .none → ∃ t, exec (.saveNow 0) s = .next t ∧ answered s s t 0 i (1, 0, 0)) ∧
    (s.pwr.warn = false → s.pwr.save = .none → 0x41000 ≤ s.boot.nvmSize.toNat →
      ∃ t u h w, exec (.saveNow 0) s = .next t ∧ takenOnly s u t 0 i ∧
        u = { s with pwr := { s.pwr with save := .now w h, saveHead := false }, mem := u.mem, rat := u.rat, arb := u.arb } ∧ h.state = 1 ∧ h.source = 2 ∧
        h.length = BitVec.ofNat 32 (0x3140 + 16 * min s.log.length 15596) ∧ h.saveSeq = s.pwr.saveSeq ∧ w.mbox = 0 ∧ w.slot = i ∧
        w.seq = s.camp.execSeq + 1)) ∧
  (∀ (h : NvHeader) (w : UpWait) (s : State), s.running = true → s.pwr.save = .now w h → s.pwr.saveHead = true → (∀ r, s.asks r → r.owner ≠ .save) → s.saveSuspect h.length.toNat = false →
    (s.mbxAt w.mbox).enable = false →
    ∃ t, exec .wakeRecordDone s = .next t ∧ t = { s with pwr := { s.pwr with save := .none, header := h }, mbx := t.mbx } ∧
      t.slotAt w.mbox w.slot = { s.slotAt w.mbox w.slot with
        running := false, done := true, resp := respWords (s.slotAt w.mbox w.slot).req (0, 0, resPut 0 h.length) w.failover w.seq })

/-- Spec/15 R398; spec/04 R116, R120; spec/11 R281; spec/16 R424: right after cold reset is asserted COLD_RESET_N is low, nothing is ready or available, Camp A is
the active pair, every key is 0 with KEY0 1 and RIDGE_MAP 0x3210, ridge 4 is the spare, and only access slot 0 governs, with READ_RINGS 0b1111. The
counters are 0, no command waits, and the state has the model's shape. -/
def Obligations.ResetIsTheStatedState : Prop :=
  Shape State.reset ∧ State.reset.pending = [] ∧ State.reset.running = false ∧ State.reset.aon = false ∧ State.reset.pwr.coldHeld = true ∧
    State.reset.pwr.avail = false ∧ State.reset.boot.fastReady = false ∧ State.reset.boot.campReady = false ∧ State.reset.boot.entropy = false ∧
    State.reset.camp.active = false ∧ State.reset.xl.key0 = true ∧ State.reset.xl.dkey = 0 ∧ State.reset.xl.ckey = 0 ∧
    (∀ p, p < 4 → State.reset.ridgeOf p = p) ∧ (∀ r, r < 4 → (State.reset.ridgeAt r).role = 0 ∧ (State.reset.ridgeAt r).position.toNat = r) ∧
    (State.reset.ridgeAt 4).role = 1 ∧ State.reset.clk.time = 0 ∧ State.reset.wired.live = false ∧ (∀ n, (State.reset.srcAt n).en = false) ∧
    (∀ b, (State.reset.belAt b).activeVer = 1 ∧ (State.reset.belAt b).role = 0) ∧ (∀ k, (State.reset.linkAt k).state = 0) ∧
    (∀ i, i ≠ 0 → State.reset.descAt i = Desc.reset) ∧ (State.reset.descAt 0).w0 = 0x10F ∧ State.reset.rope.locked = false ∧
    State.reset.rope.serving = false ∧ ∀ m, (State.reset.mbxAt m).isOpen = false

/-- The model's own shape (INVENTORY.md's State): every step from a state in shape leaves one in shape. Every unit that the spec counts is there, every sparse
table is in its canonical form, the merging queue holds at most 64 keys (spec/13 R339) and the doorbell at most 16 markers (spec/03 R77). -/
def Obligations.ShapeKeptByEveryStep : Prop :=
  ∀ (s t : State), Shape s → step s = .next t → Shape t

/-- Spec/15 R398, R399; spec/01 R27: while COLD_RESET_N is low nothing moves but the levels of the input pins (and the model's tick count and queue): the held
state is one at reset, and every step but the release keeps it. -/
def Obligations.ColdResetHoldsTheBlock : Prop :=
  heldAtReset State.reset ∧
    ∀ (s t : State), heldAtReset s → step s = .next t →
      (∀ senior ropeDefault tapMode fwBase, s.pending.head? ≠ some (.coldResetRelease senior ropeDefault tapMode fwBase)) → heldAtReset t

/-- Spec/11 R302: ROPE_MAP of ring 0 sets the output that one input, or with INPUT 0xFF each of the 64, drives, before its response; LOCK = 1 freezes the map: no
command changes it or its lock but a cold reset, and a later ROPE_MAP answers DENIED and changes nothing. The response reports LOCKED either way. -/
def Obligations.RopeMapFreezesUntilColdReset : Prop :=
  (∀ (i : Nat) (s : State), turnOf s 0 i 0x00A1 → s.rope.locked = false →
    let a := argsOf s 0 i
    let input : Nat := (arg a 0 8 : BitVec 8).toNat
    let output : Nat := (arg a 1 8 : BitVec 8).toNat
    input < 64 ∨ input = 0xFF → output < 16 ∨ output = 0xFF → (arg a 2 8 : BitVec 8).toNat ≤ 1 →
      ∃ t u, exec (.ropeMap 0) s = .next t ∧ answered s u t 0 i (0, 0, resPut 0 (arg a 2 8 : BitVec 8)) ∧
        u = { s with rope := { s.rope with map := u.rope.map, locked := (arg a 2 8 : BitVec 8) == 1 } } ∧
        ∀ j, j < 64 → u.ropeOf j = (if j = input ∨ input = 0xFF then
          (if output = 0xFF then RopeOut.reset else { mapped := true, output := BitVec.ofNat 4 output }) else s.ropeOf j)) ∧
  (∀ (i : Nat) (s : State), turnOf s 0 i 0x00A1 → s.rope.locked = true →
    ∃ t, exec (.ropeMap 0) s = .next t ∧ answered s s t 0 i (4, 0, resPut 0 (1 : BitVec 8))) ∧
  (∀ (s t : State), s.rope.locked = true → s.pwr.coldHeld = false → step s = .next t → s.pending.head? ≠ some .coldReset →
    t.rope.locked = true ∧ t.rope.map = s.rope.map ∧ ∀ j, t.ropeOf j = s.ropeOf j)
end

