-- ==== Sys2Proof/Laws/Tbl.lean ====
section
/-! SUPPORT. What reading a sparse table gives after a row is set, and that setting a row keeps the canonical form. -/

namespace Sys2Proof.Machine

theorem Tbl.get_erase_same {α : Type} (d : α) (t : Tbl α) (key : Nat) : Tbl.get d (Tbl.erase t key) key = d := by
  induction t with
  | nil => rfl
  | cons p rest ih =>
    obtain ⟨k, v⟩ := p
    by_cases h : k = key <;> simp_all [Tbl.erase, Tbl.get]

theorem Tbl.get_erase_other {α : Type} (d : α) (t : Tbl α) {key other : Nat} (h : other ≠ key) :
    Tbl.get d (Tbl.erase t key) other = Tbl.get d t other := by
  induction t with
  | nil => rfl
  | cons p rest ih =>
    obtain ⟨k, v⟩ := p
    by_cases hk : k = key <;> by_cases ho : k = other <;> simp_all [Tbl.erase, Tbl.get]

theorem Tbl.get_place_other {α : Type} (d : α) (t : Tbl α) (v : α) {key other : Nat} (h : other ≠ key) :
    Tbl.get d (Tbl.place key v t) other = Tbl.get d t other := by
  induction t with
  | nil => simp [Tbl.place, Tbl.get, h.symm]
  | cons p rest ih =>
    obtain ⟨k, w⟩ := p
    by_cases hk : key < k
    · simp [Tbl.place, Tbl.get, hk, h.symm]
    · simp [Tbl.place, Tbl.get, hk, ih]

theorem Tbl.get_place_same {α : Type} (d : α) (t : Tbl α) (v : α) (key : Nat) (h : ∀ p ∈ t, p.1 ≠ key) :
    Tbl.get d (Tbl.place key v t) key = v := by
  induction t with
  | nil => simp [Tbl.place, Tbl.get]
  | cons p rest ih =>
    obtain ⟨k, w⟩ := p
    have hk : k ≠ key := h (k, w) (by simp)
    have ih := ih (fun q hq => h q (by simp [hq]))
    by_cases hl : key < k <;> simp [Tbl.place, Tbl.get, hl, hk, ih]

theorem Tbl.get_set_same {α : Type} [DecidableEq α] (d : α) (t : Tbl α) (key : Nat) (v : α) :
    Tbl.get d (Tbl.set d t key v) key = v := by
  by_cases h : v = d
  · simp [Tbl.set, h, Tbl.get_erase_same]
  · simp only [Tbl.set, h, if_false]
    exact Tbl.get_place_same d _ v key (by simp [Tbl.erase])

theorem Tbl.get_set_other {α : Type} [DecidableEq α] (d : α) (t : Tbl α) (v : α) {key other : Nat} (h : other ≠ key) :
    Tbl.get d (Tbl.set d t key v) other = Tbl.get d t other := by
  by_cases hv : v = d
  · simp [Tbl.set, hv, Tbl.get_erase_other d t h]
  · simp [Tbl.set, hv, Tbl.get_place_other d _ v h, Tbl.get_erase_other d t h]

@[simp] theorem Tbl.get_upd_same {α : Type} [DecidableEq α] (d : α) (t : Tbl α) (key : Nat) (f : α → α) :
    Tbl.get d (Tbl.upd d t key f) key = f (Tbl.get d t key) := Tbl.get_set_same d t key _

theorem Tbl.get_upd_other {α : Type} [DecidableEq α] (d : α) (t : Tbl α) (f : α → α) {key other : Nat} (h : other ≠ key) :
    Tbl.get d (Tbl.upd d t key f) other = Tbl.get d t other := Tbl.get_set_other d t _ h

/-- A row read after a row is changed: the change where the keys agree, the old row elsewhere. -/
theorem Tbl.get_upd {α : Type} [DecidableEq α] (d : α) (t : Tbl α) (f : α → α) (key other : Nat) :
    Tbl.get d (Tbl.upd d t key f) other = if other = key then f (Tbl.get d t key) else Tbl.get d t other := by
  by_cases h : other = key
  · subst h; simp
  · simp [h, Tbl.get_upd_other d t f h]

/-- A lower bound may be raised to any number below the first key. -/
theorem Tbl.wfFrom_weaken {α : Type} [DecidableEq α] (d : α) (t : Tbl α) (lo : Option Nat) {k : Nat}
    (h : Tbl.wfFrom d (some k) t = true) (hlo : ∀ l, lo = some l → l < k ∨ l = k) : Tbl.wfFrom d lo t = true := by
  cases t with
  | nil => rfl
  | cons p rest =>
    obtain ⟨j, v⟩ := p
    cases lo with
    | none => simp_all [Tbl.wfFrom]
    | some l =>
      have := hlo l rfl
      simp only [Tbl.wfFrom, Bool.and_eq_true, decide_eq_true_eq] at h ⊢
      exact ⟨⟨by omega, h.1.2⟩, h.2⟩

theorem Tbl.wfFrom_erase {α : Type} [DecidableEq α] (d : α) (t : Tbl α) (key : Nat) (lo : Option Nat)
    (h : Tbl.wfFrom d lo t = true) : Tbl.wfFrom d lo (Tbl.erase t key) = true := by
  induction t generalizing lo with
  | nil => rfl
  | cons p rest ih =>
    obtain ⟨k, v⟩ := p
    simp only [Tbl.wfFrom, Bool.and_eq_true, decide_eq_true_eq] at h
    by_cases hk : k = key
    · have hr := ih (some k) h.2
      have he : Tbl.erase ((k, v) :: rest) key = Tbl.erase rest key := by simp [Tbl.erase, hk]
      rw [he]
      refine Tbl.wfFrom_weaken d _ lo hr ?_
      intro l hl
      subst hl
      simp only [decide_eq_true_eq] at h
      exact Or.inl h.1.1
    · have he : Tbl.erase ((k, v) :: rest) key = (k, v) :: Tbl.erase rest key := by simp [Tbl.erase, hk]
      rw [he]
      simp only [Tbl.wfFrom, Bool.and_eq_true, decide_eq_true_eq]
      exact ⟨h.1, ih (some k) h.2⟩

theorem Tbl.wfFrom_place {α : Type} [DecidableEq α] (d : α) (t : Tbl α) (key : Nat) (v : α) (hv : v ≠ d) (lo : Option Nat)
    (hn : ∀ p ∈ t, p.1 ≠ key) (h : Tbl.wfFrom d lo t = true) (hl : ∀ l, lo = some l → l < key) :
    Tbl.wfFrom d lo (Tbl.place key v t) = true := by
  induction t generalizing lo with
  | nil => cases lo with
    | none => simp [Tbl.place, Tbl.wfFrom, hv]
    | some l => simp [Tbl.place, Tbl.wfFrom, hv, hl l rfl]
  | cons p rest ih =>
    obtain ⟨k, w⟩ := p
    have hk : k ≠ key := hn (k, w) (by simp)
    simp only [Tbl.wfFrom, Bool.and_eq_true, decide_eq_true_eq] at h
    by_cases hlt : key < k
    · rw [show Tbl.place key v ((k, w) :: rest) = (key, v) :: (k, w) :: rest by simp [Tbl.place, hlt]]
      simp only [Tbl.wfFrom, Bool.and_eq_true, decide_eq_true_eq]
      refine ⟨⟨?_, hv⟩, ⟨hlt, h.1.2⟩, h.2⟩
      cases lo with
      | none => rfl
      | some l => simpa using hl l rfl
    · simp only [Tbl.place, hlt, if_false, Tbl.wfFrom, Bool.and_eq_true, decide_eq_true_eq]
      refine ⟨h.1, ih (some k) (fun q hq => hn q (by simp [hq])) h.2 ?_⟩
      intro l hl
      cases hl
      omega

/-- Setting a row keeps the canonical form. -/
theorem Tbl.wf_set {α : Type} [DecidableEq α] (d : α) (t : Tbl α) (key : Nat) (v : α) (h : Tbl.wf d t = true) :
    Tbl.wf d (Tbl.set d t key v) = true := by
  have he := Tbl.wfFrom_erase d t key none h
  by_cases hv : v = d
  · simpa [Tbl.wf, Tbl.set, hv] using he
  · simp only [Tbl.wf, Tbl.set, hv, if_false]
    exact Tbl.wfFrom_place d _ key v hv none (by simp [Tbl.erase]) he (by simp)

/-- Changing a row keeps the canonical form. -/
theorem Tbl.wf_upd {α : Type} [DecidableEq α] (d : α) (t : Tbl α) (key : Nat) (f : α → α) (h : Tbl.wf d t = true) :
    Tbl.wf d (Tbl.upd d t key f) = true := Tbl.wf_set d t key _ h

end Sys2Proof.Machine
end

