-- ==== Sys2Proof/Laws/State.lean ====
section
/-! SUPPORT. What each update of the state leaves: one lemma for each field and each reader, so that no proof unfolds an update. -/

namespace Sys2Proof.Machine

@[simp] theorem State.updPass_pending (s : State) (n : Nat) (f : PassPort → PassPort) : (s.updPass n f).pending = s.pending := rfl
@[simp] theorem State.updPass_freeCtr (s : State) (n : Nat) (f : PassPort → PassPort) : (s.updPass n f).freeCtr = s.freeCtr := rfl
@[simp] theorem State.updPass_clk (s : State) (n : Nat) (f : PassPort → PassPort) : (s.updPass n f).clk = s.clk := rfl
@[simp] theorem State.updPass_straps (s : State) (n : Nat) (f : PassPort → PassPort) : (s.updPass n f).straps = s.straps := rfl
@[simp] theorem State.updPass_pwr (s : State) (n : Nat) (f : PassPort → PassPort) : (s.updPass n f).pwr = s.pwr := rfl
@[simp] theorem State.updPass_boot (s : State) (n : Nat) (f : PassPort → PassPort) : (s.updPass n f).boot = s.boot := rfl
@[simp] theorem State.updPass_rom (s : State) (n : Nat) (f : PassPort → PassPort) : (s.updPass n f).rom = s.rom := rfl
@[simp] theorem State.updPass_rope (s : State) (n : Nat) (f : PassPort → PassPort) : (s.updPass n f).rope = s.rope := rfl
@[simp] theorem State.updPass_wired (s : State) (n : Nat) (f : PassPort → PassPort) : (s.updPass n f).wired = s.wired := rfl
@[simp] theorem State.updPass_door (s : State) (n : Nat) (f : PassPort → PassPort) : (s.updPass n f).door = s.door := rfl
@[simp] theorem State.updPass_inq (s : State) (n : Nat) (f : PassPort → PassPort) : (s.updPass n f).inq = s.inq := rfl
@[simp] theorem State.updPass_xl (s : State) (n : Nat) (f : PassPort → PassPort) : (s.updPass n f).xl = s.xl := rfl
@[simp] theorem State.updPass_plain (s : State) (n : Nat) (f : PassPort → PassPort) : (s.updPass n f).plain = s.plain := rfl
@[simp] theorem State.updPass_bel (s : State) (n : Nat) (f : PassPort → PassPort) : (s.updPass n f).bel = s.bel := rfl
@[simp] theorem State.updPass_tgt (s : State) (n : Nat) (f : PassPort → PassPort) : (s.updPass n f).tgt = s.tgt := rfl
@[simp] theorem State.updPass_pair (s : State) (n : Nat) (f : PassPort → PassPort) : (s.updPass n f).pair = s.pair := rfl
@[simp] theorem State.updPass_frame (s : State) (n : Nat) (f : PassPort → PassPort) : (s.updPass n f).frame = s.frame := rfl
@[simp] theorem State.updPass_grp (s : State) (n : Nat) (f : PassPort → PassPort) : (s.updPass n f).grp = s.grp := rfl
@[simp] theorem State.updPass_vt (s : State) (n : Nat) (f : PassPort → PassPort) : (s.updPass n f).vt = s.vt := rfl
@[simp] theorem State.updPass_ctx (s : State) (n : Nat) (f : PassPort → PassPort) : (s.updPass n f).ctx = s.ctx := rfl
@[simp] theorem State.updPass_log (s : State) (n : Nat) (f : PassPort → PassPort) : (s.updPass n f).log = s.log := rfl
@[simp] theorem State.updPass_logFull (s : State) (n : Nat) (f : PassPort → PassPort) : (s.updPass n f).logFull = s.logFull := rfl
@[simp] theorem State.updPass_links (s : State) (n : Nat) (f : PassPort → PassPort) : (s.updPass n f).links = s.links := rfl
@[simp] theorem State.updPass_partner (s : State) (n : Nat) (f : PassPort → PassPort) : (s.updPass n f).partner = s.partner := rfl
@[simp] theorem State.updPass_quads (s : State) (n : Nat) (f : PassPort → PassPort) : (s.updPass n f).quads = s.quads := rfl
@[simp] theorem State.updPass_lanes (s : State) (n : Nat) (f : PassPort → PassPort) : (s.updPass n f).lanes = s.lanes := rfl
@[simp] theorem State.updPass_camp (s : State) (n : Nat) (f : PassPort → PassPort) : (s.updPass n f).camp = s.camp := rfl
@[simp] theorem State.updPass_mbx (s : State) (n : Nat) (f : PassPort → PassPort) : (s.updPass n f).mbx = s.mbx := rfl
@[simp] theorem State.updPass_rat (s : State) (n : Nat) (f : PassPort → PassPort) : (s.updPass n f).rat = s.rat := rfl
@[simp] theorem State.updPass_mem (s : State) (n : Nat) (f : PassPort → PassPort) : (s.updPass n f).mem = s.mem := rfl
@[simp] theorem State.updPass_arb (s : State) (n : Nat) (f : PassPort → PassPort) : (s.updPass n f).arb = s.arb := rfl
@[simp] theorem State.updPass_cairn (s : State) (n : Nat) (f : PassPort → PassPort) : (s.updPass n f).cairn = s.cairn := rfl
@[simp] theorem State.updPass_wear (s : State) (n : Nat) (f : PassPort → PassPort) : (s.updPass n f).wear = s.wear := rfl
@[simp] theorem State.updPass_acc (s : State) (n : Nat) (f : PassPort → PassPort) : (s.updPass n f).acc = s.acc := rfl
@[simp] theorem State.updPass_cp (s : State) (n : Nat) (f : PassPort → PassPort) : (s.updPass n f).cp = s.cp := rfl
@[simp] theorem State.updPass_plainAt (s : State) (n : Nat) (f : PassPort → PassPort) (k : Nat) : (s.updPass n f).plainAt k = s.plainAt k := rfl
@[simp] theorem State.updPass_belAt (s : State) (n : Nat) (f : PassPort → PassPort) (k : Nat) : (s.updPass n f).belAt k = s.belAt k := rfl
@[simp] theorem State.updPass_tgtAt (s : State) (n : Nat) (f : PassPort → PassPort) (k : Nat) : (s.updPass n f).tgtAt k = s.tgtAt k := rfl
@[simp] theorem State.updPass_pairAt (s : State) (n : Nat) (f : PassPort → PassPort) (k : Nat) : (s.updPass n f).pairAt k = s.pairAt k := rfl
@[simp] theorem State.updPass_frameAt (s : State) (n : Nat) (f : PassPort → PassPort) (k : Nat) : (s.updPass n f).frameAt k = s.frameAt k := rfl
@[simp] theorem State.updPass_grpAt (s : State) (n : Nat) (f : PassPort → PassPort) (k : Nat) : (s.updPass n f).grpAt k = s.grpAt k := rfl
@[simp] theorem State.updPass_vtAt (s : State) (n : Nat) (f : PassPort → PassPort) (k : Nat) : (s.updPass n f).vtAt k = s.vtAt k := rfl
@[simp] theorem State.updPass_ctxAt (s : State) (n : Nat) (f : PassPort → PassPort) (k : Nat) : (s.updPass n f).ctxAt k = s.ctxAt k := rfl
@[simp] theorem State.updPass_logAt (s : State) (n : Nat) (f : PassPort → PassPort) (k : Nat) : (s.updPass n f).logAt k = s.logAt k := rfl
@[simp] theorem State.updPass_linkAt (s : State) (n : Nat) (f : PassPort → PassPort) (k : Nat) : (s.updPass n f).linkAt k = s.linkAt k := rfl
@[simp] theorem State.updPass_quadAt (s : State) (n : Nat) (f : PassPort → PassPort) (k : Nat) : (s.updPass n f).quadAt k = s.quadAt k := rfl
@[simp] theorem State.updPass_laneAt (s : State) (n : Nat) (f : PassPort → PassPort) (k : Nat) : (s.updPass n f).laneAt k = s.laneAt k := rfl
@[simp] theorem State.updPass_mbxAt (s : State) (n : Nat) (f : PassPort → PassPort) (k : Nat) : (s.updPass n f).mbxAt k = s.mbxAt k := rfl
@[simp] theorem State.updPass_inqAt (s : State) (n : Nat) (f : PassPort → PassPort) (k : Nat) : (s.updPass n f).inqAt k = s.inqAt k := rfl
@[simp] theorem State.updPass_srcAt (s : State) (n : Nat) (f : PassPort → PassPort) (k : Nat) : (s.updPass n f).srcAt k = s.srcAt k := rfl
@[simp] theorem State.updPass_bankAt (s : State) (n : Nat) (f : PassPort → PassPort) (k : Nat) : (s.updPass n f).bankAt k = s.bankAt k := rfl
@[simp] theorem State.updPass_posAt (s : State) (n : Nat) (f : PassPort → PassPort) (k : Nat) : (s.updPass n f).posAt k = s.posAt k := rfl
@[simp] theorem State.updPass_ridgeAt (s : State) (n : Nat) (f : PassPort → PassPort) (k : Nat) : (s.updPass n f).ridgeAt k = s.ridgeAt k := rfl
@[simp] theorem State.updPass_ridgeOf (s : State) (n : Nat) (f : PassPort → PassPort) (k : Nat) : (s.updPass n f).ridgeOf k = s.ridgeOf k := rfl
@[simp] theorem State.updPass_arbAt (s : State) (n : Nat) (f : PassPort → PassPort) (k : Nat) : (s.updPass n f).arbAt k = s.arbAt k := rfl
@[simp] theorem State.updPass_running (s : State) (n : Nat) (f : PassPort → PassPort) : (s.updPass n f).running = s.running := rfl
@[simp] theorem State.updPass_linksAlive (s : State) (n : Nat) (f : PassPort → PassPort) : (s.updPass n f).linksAlive = s.linksAlive := rfl
@[simp] theorem State.updPass_aon (s : State) (n : Nat) (f : PassPort → PassPort) : (s.updPass n f).aon = s.aon := rfl
@[simp] theorem State.updPass_now48 (s : State) (n : Nat) (f : PassPort → PassPort) : (s.updPass n f).now48 = s.now48 := rfl
@[simp] theorem State.updPass_now32 (s : State) (n : Nat) (f : PassPort → PassPort) : (s.updPass n f).now32 = s.now32 := rfl

@[simp] theorem State.updPlain_pending (s : State) (n : Nat) (f : PathCopy → PathCopy) : (s.updPlain n f).pending = s.pending := rfl
@[simp] theorem State.updPlain_freeCtr (s : State) (n : Nat) (f : PathCopy → PathCopy) : (s.updPlain n f).freeCtr = s.freeCtr := rfl
@[simp] theorem State.updPlain_clk (s : State) (n : Nat) (f : PathCopy → PathCopy) : (s.updPlain n f).clk = s.clk := rfl
@[simp] theorem State.updPlain_straps (s : State) (n : Nat) (f : PathCopy → PathCopy) : (s.updPlain n f).straps = s.straps := rfl
@[simp] theorem State.updPlain_pwr (s : State) (n : Nat) (f : PathCopy → PathCopy) : (s.updPlain n f).pwr = s.pwr := rfl
@[simp] theorem State.updPlain_boot (s : State) (n : Nat) (f : PathCopy → PathCopy) : (s.updPlain n f).boot = s.boot := rfl
@[simp] theorem State.updPlain_rom (s : State) (n : Nat) (f : PathCopy → PathCopy) : (s.updPlain n f).rom = s.rom := rfl
@[simp] theorem State.updPlain_rope (s : State) (n : Nat) (f : PathCopy → PathCopy) : (s.updPlain n f).rope = s.rope := rfl
@[simp] theorem State.updPlain_wired (s : State) (n : Nat) (f : PathCopy → PathCopy) : (s.updPlain n f).wired = s.wired := rfl
@[simp] theorem State.updPlain_pass (s : State) (n : Nat) (f : PathCopy → PathCopy) : (s.updPlain n f).pass = s.pass := rfl
@[simp] theorem State.updPlain_door (s : State) (n : Nat) (f : PathCopy → PathCopy) : (s.updPlain n f).door = s.door := rfl
@[simp] theorem State.updPlain_inq (s : State) (n : Nat) (f : PathCopy → PathCopy) : (s.updPlain n f).inq = s.inq := rfl
@[simp] theorem State.updPlain_xl (s : State) (n : Nat) (f : PathCopy → PathCopy) : (s.updPlain n f).xl = s.xl := rfl
@[simp] theorem State.updPlain_bel (s : State) (n : Nat) (f : PathCopy → PathCopy) : (s.updPlain n f).bel = s.bel := rfl
@[simp] theorem State.updPlain_tgt (s : State) (n : Nat) (f : PathCopy → PathCopy) : (s.updPlain n f).tgt = s.tgt := rfl
@[simp] theorem State.updPlain_pair (s : State) (n : Nat) (f : PathCopy → PathCopy) : (s.updPlain n f).pair = s.pair := rfl
@[simp] theorem State.updPlain_frame (s : State) (n : Nat) (f : PathCopy → PathCopy) : (s.updPlain n f).frame = s.frame := rfl
@[simp] theorem State.updPlain_grp (s : State) (n : Nat) (f : PathCopy → PathCopy) : (s.updPlain n f).grp = s.grp := rfl
@[simp] theorem State.updPlain_vt (s : State) (n : Nat) (f : PathCopy → PathCopy) : (s.updPlain n f).vt = s.vt := rfl
@[simp] theorem State.updPlain_ctx (s : State) (n : Nat) (f : PathCopy → PathCopy) : (s.updPlain n f).ctx = s.ctx := rfl
@[simp] theorem State.updPlain_log (s : State) (n : Nat) (f : PathCopy → PathCopy) : (s.updPlain n f).log = s.log := rfl
@[simp] theorem State.updPlain_logFull (s : State) (n : Nat) (f : PathCopy → PathCopy) : (s.updPlain n f).logFull = s.logFull := rfl
@[simp] theorem State.updPlain_links (s : State) (n : Nat) (f : PathCopy → PathCopy) : (s.updPlain n f).links = s.links := rfl
@[simp] theorem State.updPlain_partner (s : State) (n : Nat) (f : PathCopy → PathCopy) : (s.updPlain n f).partner = s.partner := rfl
@[simp] theorem State.updPlain_quads (s : State) (n : Nat) (f : PathCopy → PathCopy) : (s.updPlain n f).quads = s.quads := rfl
@[simp] theorem State.updPlain_lanes (s : State) (n : Nat) (f : PathCopy → PathCopy) : (s.updPlain n f).lanes = s.lanes := rfl
@[simp] theorem State.updPlain_camp (s : State) (n : Nat) (f : PathCopy → PathCopy) : (s.updPlain n f).camp = s.camp := rfl
@[simp] theorem State.updPlain_mbx (s : State) (n : Nat) (f : PathCopy → PathCopy) : (s.updPlain n f).mbx = s.mbx := rfl
@[simp] theorem State.updPlain_rat (s : State) (n : Nat) (f : PathCopy → PathCopy) : (s.updPlain n f).rat = s.rat := rfl
@[simp] theorem State.updPlain_mem (s : State) (n : Nat) (f : PathCopy → PathCopy) : (s.updPlain n f).mem = s.mem := rfl
@[simp] theorem State.updPlain_arb (s : State) (n : Nat) (f : PathCopy → PathCopy) : (s.updPlain n f).arb = s.arb := rfl
@[simp] theorem State.updPlain_cairn (s : State) (n : Nat) (f : PathCopy → PathCopy) : (s.updPlain n f).cairn = s.cairn := rfl
@[simp] theorem State.updPlain_wear (s : State) (n : Nat) (f : PathCopy → PathCopy) : (s.updPlain n f).wear = s.wear := rfl
@[simp] theorem State.updPlain_acc (s : State) (n : Nat) (f : PathCopy → PathCopy) : (s.updPlain n f).acc = s.acc := rfl
@[simp] theorem State.updPlain_cp (s : State) (n : Nat) (f : PathCopy → PathCopy) : (s.updPlain n f).cp = s.cp := rfl
@[simp] theorem State.updPlain_passAt (s : State) (n : Nat) (f : PathCopy → PathCopy) (k : Nat) : (s.updPlain n f).passAt k = s.passAt k := rfl
@[simp] theorem State.updPlain_belAt (s : State) (n : Nat) (f : PathCopy → PathCopy) (k : Nat) : (s.updPlain n f).belAt k = s.belAt k := rfl
@[simp] theorem State.updPlain_tgtAt (s : State) (n : Nat) (f : PathCopy → PathCopy) (k : Nat) : (s.updPlain n f).tgtAt k = s.tgtAt k := rfl
@[simp] theorem State.updPlain_pairAt (s : State) (n : Nat) (f : PathCopy → PathCopy) (k : Nat) : (s.updPlain n f).pairAt k = s.pairAt k := rfl
@[simp] theorem State.updPlain_frameAt (s : State) (n : Nat) (f : PathCopy → PathCopy) (k : Nat) : (s.updPlain n f).frameAt k = s.frameAt k := rfl
@[simp] theorem State.updPlain_grpAt (s : State) (n : Nat) (f : PathCopy → PathCopy) (k : Nat) : (s.updPlain n f).grpAt k = s.grpAt k := rfl
@[simp] theorem State.updPlain_vtAt (s : State) (n : Nat) (f : PathCopy → PathCopy) (k : Nat) : (s.updPlain n f).vtAt k = s.vtAt k := rfl
@[simp] theorem State.updPlain_ctxAt (s : State) (n : Nat) (f : PathCopy → PathCopy) (k : Nat) : (s.updPlain n f).ctxAt k = s.ctxAt k := rfl
@[simp] theorem State.updPlain_logAt (s : State) (n : Nat) (f : PathCopy → PathCopy) (k : Nat) : (s.updPlain n f).logAt k = s.logAt k := rfl
@[simp] theorem State.updPlain_linkAt (s : State) (n : Nat) (f : PathCopy → PathCopy) (k : Nat) : (s.updPlain n f).linkAt k = s.linkAt k := rfl
@[simp] theorem State.updPlain_quadAt (s : State) (n : Nat) (f : PathCopy → PathCopy) (k : Nat) : (s.updPlain n f).quadAt k = s.quadAt k := rfl
@[simp] theorem State.updPlain_laneAt (s : State) (n : Nat) (f : PathCopy → PathCopy) (k : Nat) : (s.updPlain n f).laneAt k = s.laneAt k := rfl
@[simp] theorem State.updPlain_mbxAt (s : State) (n : Nat) (f : PathCopy → PathCopy) (k : Nat) : (s.updPlain n f).mbxAt k = s.mbxAt k := rfl
@[simp] theorem State.updPlain_inqAt (s : State) (n : Nat) (f : PathCopy → PathCopy) (k : Nat) : (s.updPlain n f).inqAt k = s.inqAt k := rfl
@[simp] theorem State.updPlain_srcAt (s : State) (n : Nat) (f : PathCopy → PathCopy) (k : Nat) : (s.updPlain n f).srcAt k = s.srcAt k := rfl
@[simp] theorem State.updPlain_bankAt (s : State) (n : Nat) (f : PathCopy → PathCopy) (k : Nat) : (s.updPlain n f).bankAt k = s.bankAt k := rfl
@[simp] theorem State.updPlain_posAt (s : State) (n : Nat) (f : PathCopy → PathCopy) (k : Nat) : (s.updPlain n f).posAt k = s.posAt k := rfl
@[simp] theorem State.updPlain_ridgeAt (s : State) (n : Nat) (f : PathCopy → PathCopy) (k : Nat) : (s.updPlain n f).ridgeAt k = s.ridgeAt k := rfl
@[simp] theorem State.updPlain_ridgeOf (s : State) (n : Nat) (f : PathCopy → PathCopy) (k : Nat) : (s.updPlain n f).ridgeOf k = s.ridgeOf k := rfl
@[simp] theorem State.updPlain_arbAt (s : State) (n : Nat) (f : PathCopy → PathCopy) (k : Nat) : (s.updPlain n f).arbAt k = s.arbAt k := rfl
@[simp] theorem State.updPlain_running (s : State) (n : Nat) (f : PathCopy → PathCopy) : (s.updPlain n f).running = s.running := rfl
@[simp] theorem State.updPlain_linksAlive (s : State) (n : Nat) (f : PathCopy → PathCopy) : (s.updPlain n f).linksAlive = s.linksAlive := rfl
@[simp] theorem State.updPlain_aon (s : State) (n : Nat) (f : PathCopy → PathCopy) : (s.updPlain n f).aon = s.aon := rfl
@[simp] theorem State.updPlain_now48 (s : State) (n : Nat) (f : PathCopy → PathCopy) : (s.updPlain n f).now48 = s.now48 := rfl
@[simp] theorem State.updPlain_now32 (s : State) (n : Nat) (f : PathCopy → PathCopy) : (s.updPlain n f).now32 = s.now32 := rfl

@[simp] theorem State.updBel_pending (s : State) (n : Nat) (f : Belay → Belay) : (s.updBel n f).pending = s.pending := rfl
@[simp] theorem State.updBel_freeCtr (s : State) (n : Nat) (f : Belay → Belay) : (s.updBel n f).freeCtr = s.freeCtr := rfl
@[simp] theorem State.updBel_clk (s : State) (n : Nat) (f : Belay → Belay) : (s.updBel n f).clk = s.clk := rfl
@[simp] theorem State.updBel_straps (s : State) (n : Nat) (f : Belay → Belay) : (s.updBel n f).straps = s.straps := rfl
@[simp] theorem State.updBel_pwr (s : State) (n : Nat) (f : Belay → Belay) : (s.updBel n f).pwr = s.pwr := rfl
@[simp] theorem State.updBel_boot (s : State) (n : Nat) (f : Belay → Belay) : (s.updBel n f).boot = s.boot := rfl
@[simp] theorem State.updBel_rom (s : State) (n : Nat) (f : Belay → Belay) : (s.updBel n f).rom = s.rom := rfl
@[simp] theorem State.updBel_rope (s : State) (n : Nat) (f : Belay → Belay) : (s.updBel n f).rope = s.rope := rfl
@[simp] theorem State.updBel_wired (s : State) (n : Nat) (f : Belay → Belay) : (s.updBel n f).wired = s.wired := rfl
@[simp] theorem State.updBel_pass (s : State) (n : Nat) (f : Belay → Belay) : (s.updBel n f).pass = s.pass := rfl
@[simp] theorem State.updBel_door (s : State) (n : Nat) (f : Belay → Belay) : (s.updBel n f).door = s.door := rfl
@[simp] theorem State.updBel_inq (s : State) (n : Nat) (f : Belay → Belay) : (s.updBel n f).inq = s.inq := rfl
@[simp] theorem State.updBel_xl (s : State) (n : Nat) (f : Belay → Belay) : (s.updBel n f).xl = s.xl := rfl
@[simp] theorem State.updBel_plain (s : State) (n : Nat) (f : Belay → Belay) : (s.updBel n f).plain = s.plain := rfl
@[simp] theorem State.updBel_tgt (s : State) (n : Nat) (f : Belay → Belay) : (s.updBel n f).tgt = s.tgt := rfl
@[simp] theorem State.updBel_pair (s : State) (n : Nat) (f : Belay → Belay) : (s.updBel n f).pair = s.pair := rfl
@[simp] theorem State.updBel_frame (s : State) (n : Nat) (f : Belay → Belay) : (s.updBel n f).frame = s.frame := rfl
@[simp] theorem State.updBel_grp (s : State) (n : Nat) (f : Belay → Belay) : (s.updBel n f).grp = s.grp := rfl
@[simp] theorem State.updBel_vt (s : State) (n : Nat) (f : Belay → Belay) : (s.updBel n f).vt = s.vt := rfl
@[simp] theorem State.updBel_ctx (s : State) (n : Nat) (f : Belay → Belay) : (s.updBel n f).ctx = s.ctx := rfl
@[simp] theorem State.updBel_log (s : State) (n : Nat) (f : Belay → Belay) : (s.updBel n f).log = s.log := rfl
@[simp] theorem State.updBel_logFull (s : State) (n : Nat) (f : Belay → Belay) : (s.updBel n f).logFull = s.logFull := rfl
@[simp] theorem State.updBel_links (s : State) (n : Nat) (f : Belay → Belay) : (s.updBel n f).links = s.links := rfl
@[simp] theorem State.updBel_partner (s : State) (n : Nat) (f : Belay → Belay) : (s.updBel n f).partner = s.partner := rfl
@[simp] theorem State.updBel_quads (s : State) (n : Nat) (f : Belay → Belay) : (s.updBel n f).quads = s.quads := rfl
@[simp] theorem State.updBel_lanes (s : State) (n : Nat) (f : Belay → Belay) : (s.updBel n f).lanes = s.lanes := rfl
@[simp] theorem State.updBel_camp (s : State) (n : Nat) (f : Belay → Belay) : (s.updBel n f).camp = s.camp := rfl
@[simp] theorem State.updBel_mbx (s : State) (n : Nat) (f : Belay → Belay) : (s.updBel n f).mbx = s.mbx := rfl
@[simp] theorem State.updBel_rat (s : State) (n : Nat) (f : Belay → Belay) : (s.updBel n f).rat = s.rat := rfl
@[simp] theorem State.updBel_mem (s : State) (n : Nat) (f : Belay → Belay) : (s.updBel n f).mem = s.mem := rfl
@[simp] theorem State.updBel_arb (s : State) (n : Nat) (f : Belay → Belay) : (s.updBel n f).arb = s.arb := rfl
@[simp] theorem State.updBel_cairn (s : State) (n : Nat) (f : Belay → Belay) : (s.updBel n f).cairn = s.cairn := rfl
@[simp] theorem State.updBel_wear (s : State) (n : Nat) (f : Belay → Belay) : (s.updBel n f).wear = s.wear := rfl
@[simp] theorem State.updBel_acc (s : State) (n : Nat) (f : Belay → Belay) : (s.updBel n f).acc = s.acc := rfl
@[simp] theorem State.updBel_cp (s : State) (n : Nat) (f : Belay → Belay) : (s.updBel n f).cp = s.cp := rfl
@[simp] theorem State.updBel_passAt (s : State) (n : Nat) (f : Belay → Belay) (k : Nat) : (s.updBel n f).passAt k = s.passAt k := rfl
@[simp] theorem State.updBel_plainAt (s : State) (n : Nat) (f : Belay → Belay) (k : Nat) : (s.updBel n f).plainAt k = s.plainAt k := rfl
@[simp] theorem State.updBel_tgtAt (s : State) (n : Nat) (f : Belay → Belay) (k : Nat) : (s.updBel n f).tgtAt k = s.tgtAt k := rfl
@[simp] theorem State.updBel_pairAt (s : State) (n : Nat) (f : Belay → Belay) (k : Nat) : (s.updBel n f).pairAt k = s.pairAt k := rfl
@[simp] theorem State.updBel_frameAt (s : State) (n : Nat) (f : Belay → Belay) (k : Nat) : (s.updBel n f).frameAt k = s.frameAt k := rfl
@[simp] theorem State.updBel_grpAt (s : State) (n : Nat) (f : Belay → Belay) (k : Nat) : (s.updBel n f).grpAt k = s.grpAt k := rfl
@[simp] theorem State.updBel_vtAt (s : State) (n : Nat) (f : Belay → Belay) (k : Nat) : (s.updBel n f).vtAt k = s.vtAt k := rfl
@[simp] theorem State.updBel_ctxAt (s : State) (n : Nat) (f : Belay → Belay) (k : Nat) : (s.updBel n f).ctxAt k = s.ctxAt k := rfl
@[simp] theorem State.updBel_logAt (s : State) (n : Nat) (f : Belay → Belay) (k : Nat) : (s.updBel n f).logAt k = s.logAt k := rfl
@[simp] theorem State.updBel_linkAt (s : State) (n : Nat) (f : Belay → Belay) (k : Nat) : (s.updBel n f).linkAt k = s.linkAt k := rfl
@[simp] theorem State.updBel_quadAt (s : State) (n : Nat) (f : Belay → Belay) (k : Nat) : (s.updBel n f).quadAt k = s.quadAt k := rfl
@[simp] theorem State.updBel_laneAt (s : State) (n : Nat) (f : Belay → Belay) (k : Nat) : (s.updBel n f).laneAt k = s.laneAt k := rfl
@[simp] theorem State.updBel_mbxAt (s : State) (n : Nat) (f : Belay → Belay) (k : Nat) : (s.updBel n f).mbxAt k = s.mbxAt k := rfl
@[simp] theorem State.updBel_inqAt (s : State) (n : Nat) (f : Belay → Belay) (k : Nat) : (s.updBel n f).inqAt k = s.inqAt k := rfl
@[simp] theorem State.updBel_srcAt (s : State) (n : Nat) (f : Belay → Belay) (k : Nat) : (s.updBel n f).srcAt k = s.srcAt k := rfl
@[simp] theorem State.updBel_bankAt (s : State) (n : Nat) (f : Belay → Belay) (k : Nat) : (s.updBel n f).bankAt k = s.bankAt k := rfl
@[simp] theorem State.updBel_posAt (s : State) (n : Nat) (f : Belay → Belay) (k : Nat) : (s.updBel n f).posAt k = s.posAt k := rfl
@[simp] theorem State.updBel_ridgeAt (s : State) (n : Nat) (f : Belay → Belay) (k : Nat) : (s.updBel n f).ridgeAt k = s.ridgeAt k := rfl
@[simp] theorem State.updBel_ridgeOf (s : State) (n : Nat) (f : Belay → Belay) (k : Nat) : (s.updBel n f).ridgeOf k = s.ridgeOf k := rfl
@[simp] theorem State.updBel_arbAt (s : State) (n : Nat) (f : Belay → Belay) (k : Nat) : (s.updBel n f).arbAt k = s.arbAt k := rfl
@[simp] theorem State.updBel_running (s : State) (n : Nat) (f : Belay → Belay) : (s.updBel n f).running = s.running := rfl
@[simp] theorem State.updBel_linksAlive (s : State) (n : Nat) (f : Belay → Belay) : (s.updBel n f).linksAlive = s.linksAlive := rfl
@[simp] theorem State.updBel_aon (s : State) (n : Nat) (f : Belay → Belay) : (s.updBel n f).aon = s.aon := rfl
@[simp] theorem State.updBel_now48 (s : State) (n : Nat) (f : Belay → Belay) : (s.updBel n f).now48 = s.now48 := rfl
@[simp] theorem State.updBel_now32 (s : State) (n : Nat) (f : Belay → Belay) : (s.updBel n f).now32 = s.now32 := rfl

@[simp] theorem State.updTgt_pending (s : State) (n : Nat) (f : Target → Target) : (s.updTgt n f).pending = s.pending := rfl
@[simp] theorem State.updTgt_freeCtr (s : State) (n : Nat) (f : Target → Target) : (s.updTgt n f).freeCtr = s.freeCtr := rfl
@[simp] theorem State.updTgt_clk (s : State) (n : Nat) (f : Target → Target) : (s.updTgt n f).clk = s.clk := rfl
@[simp] theorem State.updTgt_straps (s : State) (n : Nat) (f : Target → Target) : (s.updTgt n f).straps = s.straps := rfl
@[simp] theorem State.updTgt_pwr (s : State) (n : Nat) (f : Target → Target) : (s.updTgt n f).pwr = s.pwr := rfl
@[simp] theorem State.updTgt_boot (s : State) (n : Nat) (f : Target → Target) : (s.updTgt n f).boot = s.boot := rfl
@[simp] theorem State.updTgt_rom (s : State) (n : Nat) (f : Target → Target) : (s.updTgt n f).rom = s.rom := rfl
@[simp] theorem State.updTgt_rope (s : State) (n : Nat) (f : Target → Target) : (s.updTgt n f).rope = s.rope := rfl
@[simp] theorem State.updTgt_wired (s : State) (n : Nat) (f : Target → Target) : (s.updTgt n f).wired = s.wired := rfl
@[simp] theorem State.updTgt_pass (s : State) (n : Nat) (f : Target → Target) : (s.updTgt n f).pass = s.pass := rfl
@[simp] theorem State.updTgt_door (s : State) (n : Nat) (f : Target → Target) : (s.updTgt n f).door = s.door := rfl
@[simp] theorem State.updTgt_inq (s : State) (n : Nat) (f : Target → Target) : (s.updTgt n f).inq = s.inq := rfl
@[simp] theorem State.updTgt_xl (s : State) (n : Nat) (f : Target → Target) : (s.updTgt n f).xl = s.xl := rfl
@[simp] theorem State.updTgt_plain (s : State) (n : Nat) (f : Target → Target) : (s.updTgt n f).plain = s.plain := rfl
@[simp] theorem State.updTgt_bel (s : State) (n : Nat) (f : Target → Target) : (s.updTgt n f).bel = s.bel := rfl
@[simp] theorem State.updTgt_pair (s : State) (n : Nat) (f : Target → Target) : (s.updTgt n f).pair = s.pair := rfl
@[simp] theorem State.updTgt_frame (s : State) (n : Nat) (f : Target → Target) : (s.updTgt n f).frame = s.frame := rfl
@[simp] theorem State.updTgt_grp (s : State) (n : Nat) (f : Target → Target) : (s.updTgt n f).grp = s.grp := rfl
@[simp] theorem State.updTgt_vt (s : State) (n : Nat) (f : Target → Target) : (s.updTgt n f).vt = s.vt := rfl
@[simp] theorem State.updTgt_ctx (s : State) (n : Nat) (f : Target → Target) : (s.updTgt n f).ctx = s.ctx := rfl
@[simp] theorem State.updTgt_log (s : State) (n : Nat) (f : Target → Target) : (s.updTgt n f).log = s.log := rfl
@[simp] theorem State.updTgt_logFull (s : State) (n : Nat) (f : Target → Target) : (s.updTgt n f).logFull = s.logFull := rfl
@[simp] theorem State.updTgt_links (s : State) (n : Nat) (f : Target → Target) : (s.updTgt n f).links = s.links := rfl
@[simp] theorem State.updTgt_partner (s : State) (n : Nat) (f : Target → Target) : (s.updTgt n f).partner = s.partner := rfl
@[simp] theorem State.updTgt_quads (s : State) (n : Nat) (f : Target → Target) : (s.updTgt n f).quads = s.quads := rfl
@[simp] theorem State.updTgt_lanes (s : State) (n : Nat) (f : Target → Target) : (s.updTgt n f).lanes = s.lanes := rfl
@[simp] theorem State.updTgt_camp (s : State) (n : Nat) (f : Target → Target) : (s.updTgt n f).camp = s.camp := rfl
@[simp] theorem State.updTgt_mbx (s : State) (n : Nat) (f : Target → Target) : (s.updTgt n f).mbx = s.mbx := rfl
@[simp] theorem State.updTgt_rat (s : State) (n : Nat) (f : Target → Target) : (s.updTgt n f).rat = s.rat := rfl
@[simp] theorem State.updTgt_mem (s : State) (n : Nat) (f : Target → Target) : (s.updTgt n f).mem = s.mem := rfl
@[simp] theorem State.updTgt_arb (s : State) (n : Nat) (f : Target → Target) : (s.updTgt n f).arb = s.arb := rfl
@[simp] theorem State.updTgt_cairn (s : State) (n : Nat) (f : Target → Target) : (s.updTgt n f).cairn = s.cairn := rfl
@[simp] theorem State.updTgt_wear (s : State) (n : Nat) (f : Target → Target) : (s.updTgt n f).wear = s.wear := rfl
@[simp] theorem State.updTgt_acc (s : State) (n : Nat) (f : Target → Target) : (s.updTgt n f).acc = s.acc := rfl
@[simp] theorem State.updTgt_cp (s : State) (n : Nat) (f : Target → Target) : (s.updTgt n f).cp = s.cp := rfl
@[simp] theorem State.updTgt_passAt (s : State) (n : Nat) (f : Target → Target) (k : Nat) : (s.updTgt n f).passAt k = s.passAt k := rfl
@[simp] theorem State.updTgt_plainAt (s : State) (n : Nat) (f : Target → Target) (k : Nat) : (s.updTgt n f).plainAt k = s.plainAt k := rfl
@[simp] theorem State.updTgt_belAt (s : State) (n : Nat) (f : Target → Target) (k : Nat) : (s.updTgt n f).belAt k = s.belAt k := rfl
@[simp] theorem State.updTgt_pairAt (s : State) (n : Nat) (f : Target → Target) (k : Nat) : (s.updTgt n f).pairAt k = s.pairAt k := rfl
@[simp] theorem State.updTgt_frameAt (s : State) (n : Nat) (f : Target → Target) (k : Nat) : (s.updTgt n f).frameAt k = s.frameAt k := rfl
@[simp] theorem State.updTgt_grpAt (s : State) (n : Nat) (f : Target → Target) (k : Nat) : (s.updTgt n f).grpAt k = s.grpAt k := rfl
@[simp] theorem State.updTgt_vtAt (s : State) (n : Nat) (f : Target → Target) (k : Nat) : (s.updTgt n f).vtAt k = s.vtAt k := rfl
@[simp] theorem State.updTgt_ctxAt (s : State) (n : Nat) (f : Target → Target) (k : Nat) : (s.updTgt n f).ctxAt k = s.ctxAt k := rfl
@[simp] theorem State.updTgt_logAt (s : State) (n : Nat) (f : Target → Target) (k : Nat) : (s.updTgt n f).logAt k = s.logAt k := rfl
@[simp] theorem State.updTgt_linkAt (s : State) (n : Nat) (f : Target → Target) (k : Nat) : (s.updTgt n f).linkAt k = s.linkAt k := rfl
@[simp] theorem State.updTgt_quadAt (s : State) (n : Nat) (f : Target → Target) (k : Nat) : (s.updTgt n f).quadAt k = s.quadAt k := rfl
@[simp] theorem State.updTgt_laneAt (s : State) (n : Nat) (f : Target → Target) (k : Nat) : (s.updTgt n f).laneAt k = s.laneAt k := rfl
@[simp] theorem State.updTgt_mbxAt (s : State) (n : Nat) (f : Target → Target) (k : Nat) : (s.updTgt n f).mbxAt k = s.mbxAt k := rfl
@[simp] theorem State.updTgt_inqAt (s : State) (n : Nat) (f : Target → Target) (k : Nat) : (s.updTgt n f).inqAt k = s.inqAt k := rfl
@[simp] theorem State.updTgt_srcAt (s : State) (n : Nat) (f : Target → Target) (k : Nat) : (s.updTgt n f).srcAt k = s.srcAt k := rfl
@[simp] theorem State.updTgt_bankAt (s : State) (n : Nat) (f : Target → Target) (k : Nat) : (s.updTgt n f).bankAt k = s.bankAt k := rfl
@[simp] theorem State.updTgt_posAt (s : State) (n : Nat) (f : Target → Target) (k : Nat) : (s.updTgt n f).posAt k = s.posAt k := rfl
@[simp] theorem State.updTgt_ridgeAt (s : State) (n : Nat) (f : Target → Target) (k : Nat) : (s.updTgt n f).ridgeAt k = s.ridgeAt k := rfl
@[simp] theorem State.updTgt_ridgeOf (s : State) (n : Nat) (f : Target → Target) (k : Nat) : (s.updTgt n f).ridgeOf k = s.ridgeOf k := rfl
@[simp] theorem State.updTgt_arbAt (s : State) (n : Nat) (f : Target → Target) (k : Nat) : (s.updTgt n f).arbAt k = s.arbAt k := rfl
@[simp] theorem State.updTgt_running (s : State) (n : Nat) (f : Target → Target) : (s.updTgt n f).running = s.running := rfl
@[simp] theorem State.updTgt_linksAlive (s : State) (n : Nat) (f : Target → Target) : (s.updTgt n f).linksAlive = s.linksAlive := rfl
@[simp] theorem State.updTgt_aon (s : State) (n : Nat) (f : Target → Target) : (s.updTgt n f).aon = s.aon := rfl
@[simp] theorem State.updTgt_now48 (s : State) (n : Nat) (f : Target → Target) : (s.updTgt n f).now48 = s.now48 := rfl
@[simp] theorem State.updTgt_now32 (s : State) (n : Nat) (f : Target → Target) : (s.updTgt n f).now32 = s.now32 := rfl

@[simp] theorem State.updPair_pending (s : State) (n : Nat) (f : Pair → Pair) : (s.updPair n f).pending = s.pending := rfl
@[simp] theorem State.updPair_freeCtr (s : State) (n : Nat) (f : Pair → Pair) : (s.updPair n f).freeCtr = s.freeCtr := rfl
@[simp] theorem State.updPair_clk (s : State) (n : Nat) (f : Pair → Pair) : (s.updPair n f).clk = s.clk := rfl
@[simp] theorem State.updPair_straps (s : State) (n : Nat) (f : Pair → Pair) : (s.updPair n f).straps = s.straps := rfl
@[simp] theorem State.updPair_pwr (s : State) (n : Nat) (f : Pair → Pair) : (s.updPair n f).pwr = s.pwr := rfl
@[simp] theorem State.updPair_boot (s : State) (n : Nat) (f : Pair → Pair) : (s.updPair n f).boot = s.boot := rfl
@[simp] theorem State.updPair_rom (s : State) (n : Nat) (f : Pair → Pair) : (s.updPair n f).rom = s.rom := rfl
@[simp] theorem State.updPair_rope (s : State) (n : Nat) (f : Pair → Pair) : (s.updPair n f).rope = s.rope := rfl
@[simp] theorem State.updPair_wired (s : State) (n : Nat) (f : Pair → Pair) : (s.updPair n f).wired = s.wired := rfl
@[simp] theorem State.updPair_pass (s : State) (n : Nat) (f : Pair → Pair) : (s.updPair n f).pass = s.pass := rfl
@[simp] theorem State.updPair_door (s : State) (n : Nat) (f : Pair → Pair) : (s.updPair n f).door = s.door := rfl
@[simp] theorem State.updPair_inq (s : State) (n : Nat) (f : Pair → Pair) : (s.updPair n f).inq = s.inq := rfl
@[simp] theorem State.updPair_xl (s : State) (n : Nat) (f : Pair → Pair) : (s.updPair n f).xl = s.xl := rfl
@[simp] theorem State.updPair_plain (s : State) (n : Nat) (f : Pair → Pair) : (s.updPair n f).plain = s.plain := rfl
@[simp] theorem State.updPair_bel (s : State) (n : Nat) (f : Pair → Pair) : (s.updPair n f).bel = s.bel := rfl
@[simp] theorem State.updPair_tgt (s : State) (n : Nat) (f : Pair → Pair) : (s.updPair n f).tgt = s.tgt := rfl
@[simp] theorem State.updPair_frame (s : State) (n : Nat) (f : Pair → Pair) : (s.updPair n f).frame = s.frame := rfl
@[simp] theorem State.updPair_grp (s : State) (n : Nat) (f : Pair → Pair) : (s.updPair n f).grp = s.grp := rfl
@[simp] theorem State.updPair_vt (s : State) (n : Nat) (f : Pair → Pair) : (s.updPair n f).vt = s.vt := rfl
@[simp] theorem State.updPair_ctx (s : State) (n : Nat) (f : Pair → Pair) : (s.updPair n f).ctx = s.ctx := rfl
@[simp] theorem State.updPair_log (s : State) (n : Nat) (f : Pair → Pair) : (s.updPair n f).log = s.log := rfl
@[simp] theorem State.updPair_logFull (s : State) (n : Nat) (f : Pair → Pair) : (s.updPair n f).logFull = s.logFull := rfl
@[simp] theorem State.updPair_links (s : State) (n : Nat) (f : Pair → Pair) : (s.updPair n f).links = s.links := rfl
@[simp] theorem State.updPair_partner (s : State) (n : Nat) (f : Pair → Pair) : (s.updPair n f).partner = s.partner := rfl
@[simp] theorem State.updPair_quads (s : State) (n : Nat) (f : Pair → Pair) : (s.updPair n f).quads = s.quads := rfl
@[simp] theorem State.updPair_lanes (s : State) (n : Nat) (f : Pair → Pair) : (s.updPair n f).lanes = s.lanes := rfl
@[simp] theorem State.updPair_camp (s : State) (n : Nat) (f : Pair → Pair) : (s.updPair n f).camp = s.camp := rfl
@[simp] theorem State.updPair_mbx (s : State) (n : Nat) (f : Pair → Pair) : (s.updPair n f).mbx = s.mbx := rfl
@[simp] theorem State.updPair_rat (s : State) (n : Nat) (f : Pair → Pair) : (s.updPair n f).rat = s.rat := rfl
@[simp] theorem State.updPair_mem (s : State) (n : Nat) (f : Pair → Pair) : (s.updPair n f).mem = s.mem := rfl
@[simp] theorem State.updPair_arb (s : State) (n : Nat) (f : Pair → Pair) : (s.updPair n f).arb = s.arb := rfl
@[simp] theorem State.updPair_cairn (s : State) (n : Nat) (f : Pair → Pair) : (s.updPair n f).cairn = s.cairn := rfl
@[simp] theorem State.updPair_wear (s : State) (n : Nat) (f : Pair → Pair) : (s.updPair n f).wear = s.wear := rfl
@[simp] theorem State.updPair_acc (s : State) (n : Nat) (f : Pair → Pair) : (s.updPair n f).acc = s.acc := rfl
@[simp] theorem State.updPair_cp (s : State) (n : Nat) (f : Pair → Pair) : (s.updPair n f).cp = s.cp := rfl
@[simp] theorem State.updPair_passAt (s : State) (n : Nat) (f : Pair → Pair) (k : Nat) : (s.updPair n f).passAt k = s.passAt k := rfl
@[simp] theorem State.updPair_plainAt (s : State) (n : Nat) (f : Pair → Pair) (k : Nat) : (s.updPair n f).plainAt k = s.plainAt k := rfl
@[simp] theorem State.updPair_belAt (s : State) (n : Nat) (f : Pair → Pair) (k : Nat) : (s.updPair n f).belAt k = s.belAt k := rfl
@[simp] theorem State.updPair_tgtAt (s : State) (n : Nat) (f : Pair → Pair) (k : Nat) : (s.updPair n f).tgtAt k = s.tgtAt k := rfl
@[simp] theorem State.updPair_frameAt (s : State) (n : Nat) (f : Pair → Pair) (k : Nat) : (s.updPair n f).frameAt k = s.frameAt k := rfl
@[simp] theorem State.updPair_grpAt (s : State) (n : Nat) (f : Pair → Pair) (k : Nat) : (s.updPair n f).grpAt k = s.grpAt k := rfl
@[simp] theorem State.updPair_vtAt (s : State) (n : Nat) (f : Pair → Pair) (k : Nat) : (s.updPair n f).vtAt k = s.vtAt k := rfl
@[simp] theorem State.updPair_ctxAt (s : State) (n : Nat) (f : Pair → Pair) (k : Nat) : (s.updPair n f).ctxAt k = s.ctxAt k := rfl
@[simp] theorem State.updPair_logAt (s : State) (n : Nat) (f : Pair → Pair) (k : Nat) : (s.updPair n f).logAt k = s.logAt k := rfl
@[simp] theorem State.updPair_linkAt (s : State) (n : Nat) (f : Pair → Pair) (k : Nat) : (s.updPair n f).linkAt k = s.linkAt k := rfl
@[simp] theorem State.updPair_quadAt (s : State) (n : Nat) (f : Pair → Pair) (k : Nat) : (s.updPair n f).quadAt k = s.quadAt k := rfl
@[simp] theorem State.updPair_laneAt (s : State) (n : Nat) (f : Pair → Pair) (k : Nat) : (s.updPair n f).laneAt k = s.laneAt k := rfl
@[simp] theorem State.updPair_mbxAt (s : State) (n : Nat) (f : Pair → Pair) (k : Nat) : (s.updPair n f).mbxAt k = s.mbxAt k := rfl
@[simp] theorem State.updPair_inqAt (s : State) (n : Nat) (f : Pair → Pair) (k : Nat) : (s.updPair n f).inqAt k = s.inqAt k := rfl
@[simp] theorem State.updPair_srcAt (s : State) (n : Nat) (f : Pair → Pair) (k : Nat) : (s.updPair n f).srcAt k = s.srcAt k := rfl
@[simp] theorem State.updPair_bankAt (s : State) (n : Nat) (f : Pair → Pair) (k : Nat) : (s.updPair n f).bankAt k = s.bankAt k := rfl
@[simp] theorem State.updPair_posAt (s : State) (n : Nat) (f : Pair → Pair) (k : Nat) : (s.updPair n f).posAt k = s.posAt k := rfl
@[simp] theorem State.updPair_ridgeAt (s : State) (n : Nat) (f : Pair → Pair) (k : Nat) : (s.updPair n f).ridgeAt k = s.ridgeAt k := rfl
@[simp] theorem State.updPair_ridgeOf (s : State) (n : Nat) (f : Pair → Pair) (k : Nat) : (s.updPair n f).ridgeOf k = s.ridgeOf k := rfl
@[simp] theorem State.updPair_arbAt (s : State) (n : Nat) (f : Pair → Pair) (k : Nat) : (s.updPair n f).arbAt k = s.arbAt k := rfl
@[simp] theorem State.updPair_running (s : State) (n : Nat) (f : Pair → Pair) : (s.updPair n f).running = s.running := rfl
@[simp] theorem State.updPair_linksAlive (s : State) (n : Nat) (f : Pair → Pair) : (s.updPair n f).linksAlive = s.linksAlive := rfl
@[simp] theorem State.updPair_aon (s : State) (n : Nat) (f : Pair → Pair) : (s.updPair n f).aon = s.aon := rfl
@[simp] theorem State.updPair_now48 (s : State) (n : Nat) (f : Pair → Pair) : (s.updPair n f).now48 = s.now48 := rfl
@[simp] theorem State.updPair_now32 (s : State) (n : Nat) (f : Pair → Pair) : (s.updPair n f).now32 = s.now32 := rfl

@[simp] theorem State.updFrame_pending (s : State) (n : Nat) (f : Frame → Frame) : (s.updFrame n f).pending = s.pending := rfl
@[simp] theorem State.updFrame_freeCtr (s : State) (n : Nat) (f : Frame → Frame) : (s.updFrame n f).freeCtr = s.freeCtr := rfl
@[simp] theorem State.updFrame_clk (s : State) (n : Nat) (f : Frame → Frame) : (s.updFrame n f).clk = s.clk := rfl
@[simp] theorem State.updFrame_straps (s : State) (n : Nat) (f : Frame → Frame) : (s.updFrame n f).straps = s.straps := rfl
@[simp] theorem State.updFrame_pwr (s : State) (n : Nat) (f : Frame → Frame) : (s.updFrame n f).pwr = s.pwr := rfl
@[simp] theorem State.updFrame_boot (s : State) (n : Nat) (f : Frame → Frame) : (s.updFrame n f).boot = s.boot := rfl
@[simp] theorem State.updFrame_rom (s : State) (n : Nat) (f : Frame → Frame) : (s.updFrame n f).rom = s.rom := rfl
@[simp] theorem State.updFrame_rope (s : State) (n : Nat) (f : Frame → Frame) : (s.updFrame n f).rope = s.rope := rfl
@[simp] theorem State.updFrame_wired (s : State) (n : Nat) (f : Frame → Frame) : (s.updFrame n f).wired = s.wired := rfl
@[simp] theorem State.updFrame_pass (s : State) (n : Nat) (f : Frame → Frame) : (s.updFrame n f).pass = s.pass := rfl
@[simp] theorem State.updFrame_door (s : State) (n : Nat) (f : Frame → Frame) : (s.updFrame n f).door = s.door := rfl
@[simp] theorem State.updFrame_inq (s : State) (n : Nat) (f : Frame → Frame) : (s.updFrame n f).inq = s.inq := rfl
@[simp] theorem State.updFrame_xl (s : State) (n : Nat) (f : Frame → Frame) : (s.updFrame n f).xl = s.xl := rfl
@[simp] theorem State.updFrame_plain (s : State) (n : Nat) (f : Frame → Frame) : (s.updFrame n f).plain = s.plain := rfl
@[simp] theorem State.updFrame_bel (s : State) (n : Nat) (f : Frame → Frame) : (s.updFrame n f).bel = s.bel := rfl
@[simp] theorem State.updFrame_tgt (s : State) (n : Nat) (f : Frame → Frame) : (s.updFrame n f).tgt = s.tgt := rfl
@[simp] theorem State.updFrame_pair (s : State) (n : Nat) (f : Frame → Frame) : (s.updFrame n f).pair = s.pair := rfl
@[simp] theorem State.updFrame_grp (s : State) (n : Nat) (f : Frame → Frame) : (s.updFrame n f).grp = s.grp := rfl
@[simp] theorem State.updFrame_vt (s : State) (n : Nat) (f : Frame → Frame) : (s.updFrame n f).vt = s.vt := rfl
@[simp] theorem State.updFrame_ctx (s : State) (n : Nat) (f : Frame → Frame) : (s.updFrame n f).ctx = s.ctx := rfl
@[simp] theorem State.updFrame_log (s : State) (n : Nat) (f : Frame → Frame) : (s.updFrame n f).log = s.log := rfl
@[simp] theorem State.updFrame_logFull (s : State) (n : Nat) (f : Frame → Frame) : (s.updFrame n f).logFull = s.logFull := rfl
@[simp] theorem State.updFrame_links (s : State) (n : Nat) (f : Frame → Frame) : (s.updFrame n f).links = s.links := rfl
@[simp] theorem State.updFrame_partner (s : State) (n : Nat) (f : Frame → Frame) : (s.updFrame n f).partner = s.partner := rfl
@[simp] theorem State.updFrame_quads (s : State) (n : Nat) (f : Frame → Frame) : (s.updFrame n f).quads = s.quads := rfl
@[simp] theorem State.updFrame_lanes (s : State) (n : Nat) (f : Frame → Frame) : (s.updFrame n f).lanes = s.lanes := rfl
@[simp] theorem State.updFrame_camp (s : State) (n : Nat) (f : Frame → Frame) : (s.updFrame n f).camp = s.camp := rfl
@[simp] theorem State.updFrame_mbx (s : State) (n : Nat) (f : Frame → Frame) : (s.updFrame n f).mbx = s.mbx := rfl
@[simp] theorem State.updFrame_rat (s : State) (n : Nat) (f : Frame → Frame) : (s.updFrame n f).rat = s.rat := rfl
@[simp] theorem State.updFrame_mem (s : State) (n : Nat) (f : Frame → Frame) : (s.updFrame n f).mem = s.mem := rfl
@[simp] theorem State.updFrame_arb (s : State) (n : Nat) (f : Frame → Frame) : (s.updFrame n f).arb = s.arb := rfl
@[simp] theorem State.updFrame_cairn (s : State) (n : Nat) (f : Frame → Frame) : (s.updFrame n f).cairn = s.cairn := rfl
@[simp] theorem State.updFrame_wear (s : State) (n : Nat) (f : Frame → Frame) : (s.updFrame n f).wear = s.wear := rfl
@[simp] theorem State.updFrame_acc (s : State) (n : Nat) (f : Frame → Frame) : (s.updFrame n f).acc = s.acc := rfl
@[simp] theorem State.updFrame_cp (s : State) (n : Nat) (f : Frame → Frame) : (s.updFrame n f).cp = s.cp := rfl
@[simp] theorem State.updFrame_passAt (s : State) (n : Nat) (f : Frame → Frame) (k : Nat) : (s.updFrame n f).passAt k = s.passAt k := rfl
@[simp] theorem State.updFrame_plainAt (s : State) (n : Nat) (f : Frame → Frame) (k : Nat) : (s.updFrame n f).plainAt k = s.plainAt k := rfl
@[simp] theorem State.updFrame_belAt (s : State) (n : Nat) (f : Frame → Frame) (k : Nat) : (s.updFrame n f).belAt k = s.belAt k := rfl
@[simp] theorem State.updFrame_tgtAt (s : State) (n : Nat) (f : Frame → Frame) (k : Nat) : (s.updFrame n f).tgtAt k = s.tgtAt k := rfl
@[simp] theorem State.updFrame_pairAt (s : State) (n : Nat) (f : Frame → Frame) (k : Nat) : (s.updFrame n f).pairAt k = s.pairAt k := rfl
@[simp] theorem State.updFrame_grpAt (s : State) (n : Nat) (f : Frame → Frame) (k : Nat) : (s.updFrame n f).grpAt k = s.grpAt k := rfl
@[simp] theorem State.updFrame_vtAt (s : State) (n : Nat) (f : Frame → Frame) (k : Nat) : (s.updFrame n f).vtAt k = s.vtAt k := rfl
@[simp] theorem State.updFrame_ctxAt (s : State) (n : Nat) (f : Frame → Frame) (k : Nat) : (s.updFrame n f).ctxAt k = s.ctxAt k := rfl
@[simp] theorem State.updFrame_logAt (s : State) (n : Nat) (f : Frame → Frame) (k : Nat) : (s.updFrame n f).logAt k = s.logAt k := rfl
@[simp] theorem State.updFrame_linkAt (s : State) (n : Nat) (f : Frame → Frame) (k : Nat) : (s.updFrame n f).linkAt k = s.linkAt k := rfl
@[simp] theorem State.updFrame_quadAt (s : State) (n : Nat) (f : Frame → Frame) (k : Nat) : (s.updFrame n f).quadAt k = s.quadAt k := rfl
@[simp] theorem State.updFrame_laneAt (s : State) (n : Nat) (f : Frame → Frame) (k : Nat) : (s.updFrame n f).laneAt k = s.laneAt k := rfl
@[simp] theorem State.updFrame_mbxAt (s : State) (n : Nat) (f : Frame → Frame) (k : Nat) : (s.updFrame n f).mbxAt k = s.mbxAt k := rfl
@[simp] theorem State.updFrame_inqAt (s : State) (n : Nat) (f : Frame → Frame) (k : Nat) : (s.updFrame n f).inqAt k = s.inqAt k := rfl
@[simp] theorem State.updFrame_srcAt (s : State) (n : Nat) (f : Frame → Frame) (k : Nat) : (s.updFrame n f).srcAt k = s.srcAt k := rfl
@[simp] theorem State.updFrame_bankAt (s : State) (n : Nat) (f : Frame → Frame) (k : Nat) : (s.updFrame n f).bankAt k = s.bankAt k := rfl
@[simp] theorem State.updFrame_posAt (s : State) (n : Nat) (f : Frame → Frame) (k : Nat) : (s.updFrame n f).posAt k = s.posAt k := rfl
@[simp] theorem State.updFrame_ridgeAt (s : State) (n : Nat) (f : Frame → Frame) (k : Nat) : (s.updFrame n f).ridgeAt k = s.ridgeAt k := rfl
@[simp] theorem State.updFrame_ridgeOf (s : State) (n : Nat) (f : Frame → Frame) (k : Nat) : (s.updFrame n f).ridgeOf k = s.ridgeOf k := rfl
@[simp] theorem State.updFrame_arbAt (s : State) (n : Nat) (f : Frame → Frame) (k : Nat) : (s.updFrame n f).arbAt k = s.arbAt k := rfl
@[simp] theorem State.updFrame_running (s : State) (n : Nat) (f : Frame → Frame) : (s.updFrame n f).running = s.running := rfl
@[simp] theorem State.updFrame_linksAlive (s : State) (n : Nat) (f : Frame → Frame) : (s.updFrame n f).linksAlive = s.linksAlive := rfl
@[simp] theorem State.updFrame_aon (s : State) (n : Nat) (f : Frame → Frame) : (s.updFrame n f).aon = s.aon := rfl
@[simp] theorem State.updFrame_now48 (s : State) (n : Nat) (f : Frame → Frame) : (s.updFrame n f).now48 = s.now48 := rfl
@[simp] theorem State.updFrame_now32 (s : State) (n : Nat) (f : Frame → Frame) : (s.updFrame n f).now32 = s.now32 := rfl

@[simp] theorem State.updGrp_pending (s : State) (n : Nat) (f : Group → Group) : (s.updGrp n f).pending = s.pending := rfl
@[simp] theorem State.updGrp_freeCtr (s : State) (n : Nat) (f : Group → Group) : (s.updGrp n f).freeCtr = s.freeCtr := rfl
@[simp] theorem State.updGrp_clk (s : State) (n : Nat) (f : Group → Group) : (s.updGrp n f).clk = s.clk := rfl
@[simp] theorem State.updGrp_straps (s : State) (n : Nat) (f : Group → Group) : (s.updGrp n f).straps = s.straps := rfl
@[simp] theorem State.updGrp_pwr (s : State) (n : Nat) (f : Group → Group) : (s.updGrp n f).pwr = s.pwr := rfl
@[simp] theorem State.updGrp_boot (s : State) (n : Nat) (f : Group → Group) : (s.updGrp n f).boot = s.boot := rfl
@[simp] theorem State.updGrp_rom (s : State) (n : Nat) (f : Group → Group) : (s.updGrp n f).rom = s.rom := rfl
@[simp] theorem State.updGrp_rope (s : State) (n : Nat) (f : Group → Group) : (s.updGrp n f).rope = s.rope := rfl
@[simp] theorem State.updGrp_wired (s : State) (n : Nat) (f : Group → Group) : (s.updGrp n f).wired = s.wired := rfl
@[simp] theorem State.updGrp_pass (s : State) (n : Nat) (f : Group → Group) : (s.updGrp n f).pass = s.pass := rfl
@[simp] theorem State.updGrp_door (s : State) (n : Nat) (f : Group → Group) : (s.updGrp n f).door = s.door := rfl
@[simp] theorem State.updGrp_inq (s : State) (n : Nat) (f : Group → Group) : (s.updGrp n f).inq = s.inq := rfl
@[simp] theorem State.updGrp_xl (s : State) (n : Nat) (f : Group → Group) : (s.updGrp n f).xl = s.xl := rfl
@[simp] theorem State.updGrp_plain (s : State) (n : Nat) (f : Group → Group) : (s.updGrp n f).plain = s.plain := rfl
@[simp] theorem State.updGrp_bel (s : State) (n : Nat) (f : Group → Group) : (s.updGrp n f).bel = s.bel := rfl
@[simp] theorem State.updGrp_tgt (s : State) (n : Nat) (f : Group → Group) : (s.updGrp n f).tgt = s.tgt := rfl
@[simp] theorem State.updGrp_pair (s : State) (n : Nat) (f : Group → Group) : (s.updGrp n f).pair = s.pair := rfl
@[simp] theorem State.updGrp_frame (s : State) (n : Nat) (f : Group → Group) : (s.updGrp n f).frame = s.frame := rfl
@[simp] theorem State.updGrp_vt (s : State) (n : Nat) (f : Group → Group) : (s.updGrp n f).vt = s.vt := rfl
@[simp] theorem State.updGrp_ctx (s : State) (n : Nat) (f : Group → Group) : (s.updGrp n f).ctx = s.ctx := rfl
@[simp] theorem State.updGrp_log (s : State) (n : Nat) (f : Group → Group) : (s.updGrp n f).log = s.log := rfl
@[simp] theorem State.updGrp_logFull (s : State) (n : Nat) (f : Group → Group) : (s.updGrp n f).logFull = s.logFull := rfl
@[simp] theorem State.updGrp_links (s : State) (n : Nat) (f : Group → Group) : (s.updGrp n f).links = s.links := rfl
@[simp] theorem State.updGrp_partner (s : State) (n : Nat) (f : Group → Group) : (s.updGrp n f).partner = s.partner := rfl
@[simp] theorem State.updGrp_quads (s : State) (n : Nat) (f : Group → Group) : (s.updGrp n f).quads = s.quads := rfl
@[simp] theorem State.updGrp_lanes (s : State) (n : Nat) (f : Group → Group) : (s.updGrp n f).lanes = s.lanes := rfl
@[simp] theorem State.updGrp_camp (s : State) (n : Nat) (f : Group → Group) : (s.updGrp n f).camp = s.camp := rfl
@[simp] theorem State.updGrp_mbx (s : State) (n : Nat) (f : Group → Group) : (s.updGrp n f).mbx = s.mbx := rfl
@[simp] theorem State.updGrp_rat (s : State) (n : Nat) (f : Group → Group) : (s.updGrp n f).rat = s.rat := rfl
@[simp] theorem State.updGrp_mem (s : State) (n : Nat) (f : Group → Group) : (s.updGrp n f).mem = s.mem := rfl
@[simp] theorem State.updGrp_arb (s : State) (n : Nat) (f : Group → Group) : (s.updGrp n f).arb = s.arb := rfl
@[simp] theorem State.updGrp_cairn (s : State) (n : Nat) (f : Group → Group) : (s.updGrp n f).cairn = s.cairn := rfl
@[simp] theorem State.updGrp_wear (s : State) (n : Nat) (f : Group → Group) : (s.updGrp n f).wear = s.wear := rfl
@[simp] theorem State.updGrp_acc (s : State) (n : Nat) (f : Group → Group) : (s.updGrp n f).acc = s.acc := rfl
@[simp] theorem State.updGrp_cp (s : State) (n : Nat) (f : Group → Group) : (s.updGrp n f).cp = s.cp := rfl
@[simp] theorem State.updGrp_passAt (s : State) (n : Nat) (f : Group → Group) (k : Nat) : (s.updGrp n f).passAt k = s.passAt k := rfl
@[simp] theorem State.updGrp_plainAt (s : State) (n : Nat) (f : Group → Group) (k : Nat) : (s.updGrp n f).plainAt k = s.plainAt k := rfl
@[simp] theorem State.updGrp_belAt (s : State) (n : Nat) (f : Group → Group) (k : Nat) : (s.updGrp n f).belAt k = s.belAt k := rfl
@[simp] theorem State.updGrp_tgtAt (s : State) (n : Nat) (f : Group → Group) (k : Nat) : (s.updGrp n f).tgtAt k = s.tgtAt k := rfl
@[simp] theorem State.updGrp_pairAt (s : State) (n : Nat) (f : Group → Group) (k : Nat) : (s.updGrp n f).pairAt k = s.pairAt k := rfl
@[simp] theorem State.updGrp_frameAt (s : State) (n : Nat) (f : Group → Group) (k : Nat) : (s.updGrp n f).frameAt k = s.frameAt k := rfl
@[simp] theorem State.updGrp_vtAt (s : State) (n : Nat) (f : Group → Group) (k : Nat) : (s.updGrp n f).vtAt k = s.vtAt k := rfl
@[simp] theorem State.updGrp_ctxAt (s : State) (n : Nat) (f : Group → Group) (k : Nat) : (s.updGrp n f).ctxAt k = s.ctxAt k := rfl
@[simp] theorem State.updGrp_logAt (s : State) (n : Nat) (f : Group → Group) (k : Nat) : (s.updGrp n f).logAt k = s.logAt k := rfl
@[simp] theorem State.updGrp_linkAt (s : State) (n : Nat) (f : Group → Group) (k : Nat) : (s.updGrp n f).linkAt k = s.linkAt k := rfl
@[simp] theorem State.updGrp_quadAt (s : State) (n : Nat) (f : Group → Group) (k : Nat) : (s.updGrp n f).quadAt k = s.quadAt k := rfl
@[simp] theorem State.updGrp_laneAt (s : State) (n : Nat) (f : Group → Group) (k : Nat) : (s.updGrp n f).laneAt k = s.laneAt k := rfl
@[simp] theorem State.updGrp_mbxAt (s : State) (n : Nat) (f : Group → Group) (k : Nat) : (s.updGrp n f).mbxAt k = s.mbxAt k := rfl
@[simp] theorem State.updGrp_inqAt (s : State) (n : Nat) (f : Group → Group) (k : Nat) : (s.updGrp n f).inqAt k = s.inqAt k := rfl
@[simp] theorem State.updGrp_srcAt (s : State) (n : Nat) (f : Group → Group) (k : Nat) : (s.updGrp n f).srcAt k = s.srcAt k := rfl
@[simp] theorem State.updGrp_bankAt (s : State) (n : Nat) (f : Group → Group) (k : Nat) : (s.updGrp n f).bankAt k = s.bankAt k := rfl
@[simp] theorem State.updGrp_posAt (s : State) (n : Nat) (f : Group → Group) (k : Nat) : (s.updGrp n f).posAt k = s.posAt k := rfl
@[simp] theorem State.updGrp_ridgeAt (s : State) (n : Nat) (f : Group → Group) (k : Nat) : (s.updGrp n f).ridgeAt k = s.ridgeAt k := rfl
@[simp] theorem State.updGrp_ridgeOf (s : State) (n : Nat) (f : Group → Group) (k : Nat) : (s.updGrp n f).ridgeOf k = s.ridgeOf k := rfl
@[simp] theorem State.updGrp_arbAt (s : State) (n : Nat) (f : Group → Group) (k : Nat) : (s.updGrp n f).arbAt k = s.arbAt k := rfl
@[simp] theorem State.updGrp_running (s : State) (n : Nat) (f : Group → Group) : (s.updGrp n f).running = s.running := rfl
@[simp] theorem State.updGrp_linksAlive (s : State) (n : Nat) (f : Group → Group) : (s.updGrp n f).linksAlive = s.linksAlive := rfl
@[simp] theorem State.updGrp_aon (s : State) (n : Nat) (f : Group → Group) : (s.updGrp n f).aon = s.aon := rfl
@[simp] theorem State.updGrp_now48 (s : State) (n : Nat) (f : Group → Group) : (s.updGrp n f).now48 = s.now48 := rfl
@[simp] theorem State.updGrp_now32 (s : State) (n : Nat) (f : Group → Group) : (s.updGrp n f).now32 = s.now32 := rfl

@[simp] theorem State.updVt_pending (s : State) (n : Nat) (f : Vt → Vt) : (s.updVt n f).pending = s.pending := rfl
@[simp] theorem State.updVt_freeCtr (s : State) (n : Nat) (f : Vt → Vt) : (s.updVt n f).freeCtr = s.freeCtr := rfl
@[simp] theorem State.updVt_clk (s : State) (n : Nat) (f : Vt → Vt) : (s.updVt n f).clk = s.clk := rfl
@[simp] theorem State.updVt_straps (s : State) (n : Nat) (f : Vt → Vt) : (s.updVt n f).straps = s.straps := rfl
@[simp] theorem State.updVt_pwr (s : State) (n : Nat) (f : Vt → Vt) : (s.updVt n f).pwr = s.pwr := rfl
@[simp] theorem State.updVt_boot (s : State) (n : Nat) (f : Vt → Vt) : (s.updVt n f).boot = s.boot := rfl
@[simp] theorem State.updVt_rom (s : State) (n : Nat) (f : Vt → Vt) : (s.updVt n f).rom = s.rom := rfl
@[simp] theorem State.updVt_rope (s : State) (n : Nat) (f : Vt → Vt) : (s.updVt n f).rope = s.rope := rfl
@[simp] theorem State.updVt_wired (s : State) (n : Nat) (f : Vt → Vt) : (s.updVt n f).wired = s.wired := rfl
@[simp] theorem State.updVt_pass (s : State) (n : Nat) (f : Vt → Vt) : (s.updVt n f).pass = s.pass := rfl
@[simp] theorem State.updVt_door (s : State) (n : Nat) (f : Vt → Vt) : (s.updVt n f).door = s.door := rfl
@[simp] theorem State.updVt_inq (s : State) (n : Nat) (f : Vt → Vt) : (s.updVt n f).inq = s.inq := rfl
@[simp] theorem State.updVt_xl (s : State) (n : Nat) (f : Vt → Vt) : (s.updVt n f).xl = s.xl := rfl
@[simp] theorem State.updVt_plain (s : State) (n : Nat) (f : Vt → Vt) : (s.updVt n f).plain = s.plain := rfl
@[simp] theorem State.updVt_bel (s : State) (n : Nat) (f : Vt → Vt) : (s.updVt n f).bel = s.bel := rfl
@[simp] theorem State.updVt_tgt (s : State) (n : Nat) (f : Vt → Vt) : (s.updVt n f).tgt = s.tgt := rfl
@[simp] theorem State.updVt_pair (s : State) (n : Nat) (f : Vt → Vt) : (s.updVt n f).pair = s.pair := rfl
@[simp] theorem State.updVt_frame (s : State) (n : Nat) (f : Vt → Vt) : (s.updVt n f).frame = s.frame := rfl
@[simp] theorem State.updVt_grp (s : State) (n : Nat) (f : Vt → Vt) : (s.updVt n f).grp = s.grp := rfl
@[simp] theorem State.updVt_ctx (s : State) (n : Nat) (f : Vt → Vt) : (s.updVt n f).ctx = s.ctx := rfl
@[simp] theorem State.updVt_log (s : State) (n : Nat) (f : Vt → Vt) : (s.updVt n f).log = s.log := rfl
@[simp] theorem State.updVt_logFull (s : State) (n : Nat) (f : Vt → Vt) : (s.updVt n f).logFull = s.logFull := rfl
@[simp] theorem State.updVt_links (s : State) (n : Nat) (f : Vt → Vt) : (s.updVt n f).links = s.links := rfl
@[simp] theorem State.updVt_partner (s : State) (n : Nat) (f : Vt → Vt) : (s.updVt n f).partner = s.partner := rfl
@[simp] theorem State.updVt_quads (s : State) (n : Nat) (f : Vt → Vt) : (s.updVt n f).quads = s.quads := rfl
@[simp] theorem State.updVt_lanes (s : State) (n : Nat) (f : Vt → Vt) : (s.updVt n f).lanes = s.lanes := rfl
@[simp] theorem State.updVt_camp (s : State) (n : Nat) (f : Vt → Vt) : (s.updVt n f).camp = s.camp := rfl
@[simp] theorem State.updVt_mbx (s : State) (n : Nat) (f : Vt → Vt) : (s.updVt n f).mbx = s.mbx := rfl
@[simp] theorem State.updVt_rat (s : State) (n : Nat) (f : Vt → Vt) : (s.updVt n f).rat = s.rat := rfl
@[simp] theorem State.updVt_mem (s : State) (n : Nat) (f : Vt → Vt) : (s.updVt n f).mem = s.mem := rfl
@[simp] theorem State.updVt_arb (s : State) (n : Nat) (f : Vt → Vt) : (s.updVt n f).arb = s.arb := rfl
@[simp] theorem State.updVt_cairn (s : State) (n : Nat) (f : Vt → Vt) : (s.updVt n f).cairn = s.cairn := rfl
@[simp] theorem State.updVt_wear (s : State) (n : Nat) (f : Vt → Vt) : (s.updVt n f).wear = s.wear := rfl
@[simp] theorem State.updVt_acc (s : State) (n : Nat) (f : Vt → Vt) : (s.updVt n f).acc = s.acc := rfl
@[simp] theorem State.updVt_cp (s : State) (n : Nat) (f : Vt → Vt) : (s.updVt n f).cp = s.cp := rfl
@[simp] theorem State.updVt_passAt (s : State) (n : Nat) (f : Vt → Vt) (k : Nat) : (s.updVt n f).passAt k = s.passAt k := rfl
@[simp] theorem State.updVt_plainAt (s : State) (n : Nat) (f : Vt → Vt) (k : Nat) : (s.updVt n f).plainAt k = s.plainAt k := rfl
@[simp] theorem State.updVt_belAt (s : State) (n : Nat) (f : Vt → Vt) (k : Nat) : (s.updVt n f).belAt k = s.belAt k := rfl
@[simp] theorem State.updVt_tgtAt (s : State) (n : Nat) (f : Vt → Vt) (k : Nat) : (s.updVt n f).tgtAt k = s.tgtAt k := rfl
@[simp] theorem State.updVt_pairAt (s : State) (n : Nat) (f : Vt → Vt) (k : Nat) : (s.updVt n f).pairAt k = s.pairAt k := rfl
@[simp] theorem State.updVt_frameAt (s : State) (n : Nat) (f : Vt → Vt) (k : Nat) : (s.updVt n f).frameAt k = s.frameAt k := rfl
@[simp] theorem State.updVt_grpAt (s : State) (n : Nat) (f : Vt → Vt) (k : Nat) : (s.updVt n f).grpAt k = s.grpAt k := rfl
@[simp] theorem State.updVt_ctxAt (s : State) (n : Nat) (f : Vt → Vt) (k : Nat) : (s.updVt n f).ctxAt k = s.ctxAt k := rfl
@[simp] theorem State.updVt_logAt (s : State) (n : Nat) (f : Vt → Vt) (k : Nat) : (s.updVt n f).logAt k = s.logAt k := rfl
@[simp] theorem State.updVt_linkAt (s : State) (n : Nat) (f : Vt → Vt) (k : Nat) : (s.updVt n f).linkAt k = s.linkAt k := rfl
@[simp] theorem State.updVt_quadAt (s : State) (n : Nat) (f : Vt → Vt) (k : Nat) : (s.updVt n f).quadAt k = s.quadAt k := rfl
@[simp] theorem State.updVt_laneAt (s : State) (n : Nat) (f : Vt → Vt) (k : Nat) : (s.updVt n f).laneAt k = s.laneAt k := rfl
@[simp] theorem State.updVt_mbxAt (s : State) (n : Nat) (f : Vt → Vt) (k : Nat) : (s.updVt n f).mbxAt k = s.mbxAt k := rfl
@[simp] theorem State.updVt_inqAt (s : State) (n : Nat) (f : Vt → Vt) (k : Nat) : (s.updVt n f).inqAt k = s.inqAt k := rfl
@[simp] theorem State.updVt_srcAt (s : State) (n : Nat) (f : Vt → Vt) (k : Nat) : (s.updVt n f).srcAt k = s.srcAt k := rfl
@[simp] theorem State.updVt_bankAt (s : State) (n : Nat) (f : Vt → Vt) (k : Nat) : (s.updVt n f).bankAt k = s.bankAt k := rfl
@[simp] theorem State.updVt_posAt (s : State) (n : Nat) (f : Vt → Vt) (k : Nat) : (s.updVt n f).posAt k = s.posAt k := rfl
@[simp] theorem State.updVt_ridgeAt (s : State) (n : Nat) (f : Vt → Vt) (k : Nat) : (s.updVt n f).ridgeAt k = s.ridgeAt k := rfl
@[simp] theorem State.updVt_ridgeOf (s : State) (n : Nat) (f : Vt → Vt) (k : Nat) : (s.updVt n f).ridgeOf k = s.ridgeOf k := rfl
@[simp] theorem State.updVt_arbAt (s : State) (n : Nat) (f : Vt → Vt) (k : Nat) : (s.updVt n f).arbAt k = s.arbAt k := rfl
@[simp] theorem State.updVt_running (s : State) (n : Nat) (f : Vt → Vt) : (s.updVt n f).running = s.running := rfl
@[simp] theorem State.updVt_linksAlive (s : State) (n : Nat) (f : Vt → Vt) : (s.updVt n f).linksAlive = s.linksAlive := rfl
@[simp] theorem State.updVt_aon (s : State) (n : Nat) (f : Vt → Vt) : (s.updVt n f).aon = s.aon := rfl
@[simp] theorem State.updVt_now48 (s : State) (n : Nat) (f : Vt → Vt) : (s.updVt n f).now48 = s.now48 := rfl
@[simp] theorem State.updVt_now32 (s : State) (n : Nat) (f : Vt → Vt) : (s.updVt n f).now32 = s.now32 := rfl

@[simp] theorem State.updCtx_pending (s : State) (n : Nat) (f : Ctx → Ctx) : (s.updCtx n f).pending = s.pending := rfl
@[simp] theorem State.updCtx_freeCtr (s : State) (n : Nat) (f : Ctx → Ctx) : (s.updCtx n f).freeCtr = s.freeCtr := rfl
@[simp] theorem State.updCtx_clk (s : State) (n : Nat) (f : Ctx → Ctx) : (s.updCtx n f).clk = s.clk := rfl
@[simp] theorem State.updCtx_straps (s : State) (n : Nat) (f : Ctx → Ctx) : (s.updCtx n f).straps = s.straps := rfl
@[simp] theorem State.updCtx_pwr (s : State) (n : Nat) (f : Ctx → Ctx) : (s.updCtx n f).pwr = s.pwr := rfl
@[simp] theorem State.updCtx_boot (s : State) (n : Nat) (f : Ctx → Ctx) : (s.updCtx n f).boot = s.boot := rfl
@[simp] theorem State.updCtx_rom (s : State) (n : Nat) (f : Ctx → Ctx) : (s.updCtx n f).rom = s.rom := rfl
@[simp] theorem State.updCtx_rope (s : State) (n : Nat) (f : Ctx → Ctx) : (s.updCtx n f).rope = s.rope := rfl
@[simp] theorem State.updCtx_wired (s : State) (n : Nat) (f : Ctx → Ctx) : (s.updCtx n f).wired = s.wired := rfl
@[simp] theorem State.updCtx_pass (s : State) (n : Nat) (f : Ctx → Ctx) : (s.updCtx n f).pass = s.pass := rfl
@[simp] theorem State.updCtx_door (s : State) (n : Nat) (f : Ctx → Ctx) : (s.updCtx n f).door = s.door := rfl
@[simp] theorem State.updCtx_inq (s : State) (n : Nat) (f : Ctx → Ctx) : (s.updCtx n f).inq = s.inq := rfl
@[simp] theorem State.updCtx_xl (s : State) (n : Nat) (f : Ctx → Ctx) : (s.updCtx n f).xl = s.xl := rfl
@[simp] theorem State.updCtx_plain (s : State) (n : Nat) (f : Ctx → Ctx) : (s.updCtx n f).plain = s.plain := rfl
@[simp] theorem State.updCtx_bel (s : State) (n : Nat) (f : Ctx → Ctx) : (s.updCtx n f).bel = s.bel := rfl
@[simp] theorem State.updCtx_tgt (s : State) (n : Nat) (f : Ctx → Ctx) : (s.updCtx n f).tgt = s.tgt := rfl
@[simp] theorem State.updCtx_pair (s : State) (n : Nat) (f : Ctx → Ctx) : (s.updCtx n f).pair = s.pair := rfl
@[simp] theorem State.updCtx_frame (s : State) (n : Nat) (f : Ctx → Ctx) : (s.updCtx n f).frame = s.frame := rfl
@[simp] theorem State.updCtx_grp (s : State) (n : Nat) (f : Ctx → Ctx) : (s.updCtx n f).grp = s.grp := rfl
@[simp] theorem State.updCtx_vt (s : State) (n : Nat) (f : Ctx → Ctx) : (s.updCtx n f).vt = s.vt := rfl
@[simp] theorem State.updCtx_log (s : State) (n : Nat) (f : Ctx → Ctx) : (s.updCtx n f).log = s.log := rfl
@[simp] theorem State.updCtx_logFull (s : State) (n : Nat) (f : Ctx → Ctx) : (s.updCtx n f).logFull = s.logFull := rfl
@[simp] theorem State.updCtx_links (s : State) (n : Nat) (f : Ctx → Ctx) : (s.updCtx n f).links = s.links := rfl
@[simp] theorem State.updCtx_partner (s : State) (n : Nat) (f : Ctx → Ctx) : (s.updCtx n f).partner = s.partner := rfl
@[simp] theorem State.updCtx_quads (s : State) (n : Nat) (f : Ctx → Ctx) : (s.updCtx n f).quads = s.quads := rfl
@[simp] theorem State.updCtx_lanes (s : State) (n : Nat) (f : Ctx → Ctx) : (s.updCtx n f).lanes = s.lanes := rfl
@[simp] theorem State.updCtx_camp (s : State) (n : Nat) (f : Ctx → Ctx) : (s.updCtx n f).camp = s.camp := rfl
@[simp] theorem State.updCtx_mbx (s : State) (n : Nat) (f : Ctx → Ctx) : (s.updCtx n f).mbx = s.mbx := rfl
@[simp] theorem State.updCtx_rat (s : State) (n : Nat) (f : Ctx → Ctx) : (s.updCtx n f).rat = s.rat := rfl
@[simp] theorem State.updCtx_mem (s : State) (n : Nat) (f : Ctx → Ctx) : (s.updCtx n f).mem = s.mem := rfl
@[simp] theorem State.updCtx_arb (s : State) (n : Nat) (f : Ctx → Ctx) : (s.updCtx n f).arb = s.arb := rfl
@[simp] theorem State.updCtx_cairn (s : State) (n : Nat) (f : Ctx → Ctx) : (s.updCtx n f).cairn = s.cairn := rfl
@[simp] theorem State.updCtx_wear (s : State) (n : Nat) (f : Ctx → Ctx) : (s.updCtx n f).wear = s.wear := rfl
@[simp] theorem State.updCtx_acc (s : State) (n : Nat) (f : Ctx → Ctx) : (s.updCtx n f).acc = s.acc := rfl
@[simp] theorem State.updCtx_cp (s : State) (n : Nat) (f : Ctx → Ctx) : (s.updCtx n f).cp = s.cp := rfl
@[simp] theorem State.updCtx_passAt (s : State) (n : Nat) (f : Ctx → Ctx) (k : Nat) : (s.updCtx n f).passAt k = s.passAt k := rfl
@[simp] theorem State.updCtx_plainAt (s : State) (n : Nat) (f : Ctx → Ctx) (k : Nat) : (s.updCtx n f).plainAt k = s.plainAt k := rfl
@[simp] theorem State.updCtx_belAt (s : State) (n : Nat) (f : Ctx → Ctx) (k : Nat) : (s.updCtx n f).belAt k = s.belAt k := rfl
@[simp] theorem State.updCtx_tgtAt (s : State) (n : Nat) (f : Ctx → Ctx) (k : Nat) : (s.updCtx n f).tgtAt k = s.tgtAt k := rfl
@[simp] theorem State.updCtx_pairAt (s : State) (n : Nat) (f : Ctx → Ctx) (k : Nat) : (s.updCtx n f).pairAt k = s.pairAt k := rfl
@[simp] theorem State.updCtx_frameAt (s : State) (n : Nat) (f : Ctx → Ctx) (k : Nat) : (s.updCtx n f).frameAt k = s.frameAt k := rfl
@[simp] theorem State.updCtx_grpAt (s : State) (n : Nat) (f : Ctx → Ctx) (k : Nat) : (s.updCtx n f).grpAt k = s.grpAt k := rfl
@[simp] theorem State.updCtx_vtAt (s : State) (n : Nat) (f : Ctx → Ctx) (k : Nat) : (s.updCtx n f).vtAt k = s.vtAt k := rfl
@[simp] theorem State.updCtx_logAt (s : State) (n : Nat) (f : Ctx → Ctx) (k : Nat) : (s.updCtx n f).logAt k = s.logAt k := rfl
@[simp] theorem State.updCtx_linkAt (s : State) (n : Nat) (f : Ctx → Ctx) (k : Nat) : (s.updCtx n f).linkAt k = s.linkAt k := rfl
@[simp] theorem State.updCtx_quadAt (s : State) (n : Nat) (f : Ctx → Ctx) (k : Nat) : (s.updCtx n f).quadAt k = s.quadAt k := rfl
@[simp] theorem State.updCtx_laneAt (s : State) (n : Nat) (f : Ctx → Ctx) (k : Nat) : (s.updCtx n f).laneAt k = s.laneAt k := rfl
@[simp] theorem State.updCtx_mbxAt (s : State) (n : Nat) (f : Ctx → Ctx) (k : Nat) : (s.updCtx n f).mbxAt k = s.mbxAt k := rfl
@[simp] theorem State.updCtx_inqAt (s : State) (n : Nat) (f : Ctx → Ctx) (k : Nat) : (s.updCtx n f).inqAt k = s.inqAt k := rfl
@[simp] theorem State.updCtx_srcAt (s : State) (n : Nat) (f : Ctx → Ctx) (k : Nat) : (s.updCtx n f).srcAt k = s.srcAt k := rfl
@[simp] theorem State.updCtx_bankAt (s : State) (n : Nat) (f : Ctx → Ctx) (k : Nat) : (s.updCtx n f).bankAt k = s.bankAt k := rfl
@[simp] theorem State.updCtx_posAt (s : State) (n : Nat) (f : Ctx → Ctx) (k : Nat) : (s.updCtx n f).posAt k = s.posAt k := rfl
@[simp] theorem State.updCtx_ridgeAt (s : State) (n : Nat) (f : Ctx → Ctx) (k : Nat) : (s.updCtx n f).ridgeAt k = s.ridgeAt k := rfl
@[simp] theorem State.updCtx_ridgeOf (s : State) (n : Nat) (f : Ctx → Ctx) (k : Nat) : (s.updCtx n f).ridgeOf k = s.ridgeOf k := rfl
@[simp] theorem State.updCtx_arbAt (s : State) (n : Nat) (f : Ctx → Ctx) (k : Nat) : (s.updCtx n f).arbAt k = s.arbAt k := rfl
@[simp] theorem State.updCtx_running (s : State) (n : Nat) (f : Ctx → Ctx) : (s.updCtx n f).running = s.running := rfl
@[simp] theorem State.updCtx_linksAlive (s : State) (n : Nat) (f : Ctx → Ctx) : (s.updCtx n f).linksAlive = s.linksAlive := rfl
@[simp] theorem State.updCtx_aon (s : State) (n : Nat) (f : Ctx → Ctx) : (s.updCtx n f).aon = s.aon := rfl
@[simp] theorem State.updCtx_now48 (s : State) (n : Nat) (f : Ctx → Ctx) : (s.updCtx n f).now48 = s.now48 := rfl
@[simp] theorem State.updCtx_now32 (s : State) (n : Nat) (f : Ctx → Ctx) : (s.updCtx n f).now32 = s.now32 := rfl

@[simp] theorem State.updLog_pending (s : State) (n : Nat) (f : LogEntry → LogEntry) : (s.updLog n f).pending = s.pending := rfl
@[simp] theorem State.updLog_freeCtr (s : State) (n : Nat) (f : LogEntry → LogEntry) : (s.updLog n f).freeCtr = s.freeCtr := rfl
@[simp] theorem State.updLog_clk (s : State) (n : Nat) (f : LogEntry → LogEntry) : (s.updLog n f).clk = s.clk := rfl
@[simp] theorem State.updLog_straps (s : State) (n : Nat) (f : LogEntry → LogEntry) : (s.updLog n f).straps = s.straps := rfl
@[simp] theorem State.updLog_pwr (s : State) (n : Nat) (f : LogEntry → LogEntry) : (s.updLog n f).pwr = s.pwr := rfl
@[simp] theorem State.updLog_boot (s : State) (n : Nat) (f : LogEntry → LogEntry) : (s.updLog n f).boot = s.boot := rfl
@[simp] theorem State.updLog_rom (s : State) (n : Nat) (f : LogEntry → LogEntry) : (s.updLog n f).rom = s.rom := rfl
@[simp] theorem State.updLog_rope (s : State) (n : Nat) (f : LogEntry → LogEntry) : (s.updLog n f).rope = s.rope := rfl
@[simp] theorem State.updLog_wired (s : State) (n : Nat) (f : LogEntry → LogEntry) : (s.updLog n f).wired = s.wired := rfl
@[simp] theorem State.updLog_pass (s : State) (n : Nat) (f : LogEntry → LogEntry) : (s.updLog n f).pass = s.pass := rfl
@[simp] theorem State.updLog_door (s : State) (n : Nat) (f : LogEntry → LogEntry) : (s.updLog n f).door = s.door := rfl
@[simp] theorem State.updLog_inq (s : State) (n : Nat) (f : LogEntry → LogEntry) : (s.updLog n f).inq = s.inq := rfl
@[simp] theorem State.updLog_xl (s : State) (n : Nat) (f : LogEntry → LogEntry) : (s.updLog n f).xl = s.xl := rfl
@[simp] theorem State.updLog_plain (s : State) (n : Nat) (f : LogEntry → LogEntry) : (s.updLog n f).plain = s.plain := rfl
@[simp] theorem State.updLog_bel (s : State) (n : Nat) (f : LogEntry → LogEntry) : (s.updLog n f).bel = s.bel := rfl
@[simp] theorem State.updLog_tgt (s : State) (n : Nat) (f : LogEntry → LogEntry) : (s.updLog n f).tgt = s.tgt := rfl
@[simp] theorem State.updLog_pair (s : State) (n : Nat) (f : LogEntry → LogEntry) : (s.updLog n f).pair = s.pair := rfl
@[simp] theorem State.updLog_frame (s : State) (n : Nat) (f : LogEntry → LogEntry) : (s.updLog n f).frame = s.frame := rfl
@[simp] theorem State.updLog_grp (s : State) (n : Nat) (f : LogEntry → LogEntry) : (s.updLog n f).grp = s.grp := rfl
@[simp] theorem State.updLog_vt (s : State) (n : Nat) (f : LogEntry → LogEntry) : (s.updLog n f).vt = s.vt := rfl
@[simp] theorem State.updLog_ctx (s : State) (n : Nat) (f : LogEntry → LogEntry) : (s.updLog n f).ctx = s.ctx := rfl
@[simp] theorem State.updLog_logFull (s : State) (n : Nat) (f : LogEntry → LogEntry) : (s.updLog n f).logFull = s.logFull := rfl
@[simp] theorem State.updLog_links (s : State) (n : Nat) (f : LogEntry → LogEntry) : (s.updLog n f).links = s.links := rfl
@[simp] theorem State.updLog_partner (s : State) (n : Nat) (f : LogEntry → LogEntry) : (s.updLog n f).partner = s.partner := rfl
@[simp] theorem State.updLog_quads (s : State) (n : Nat) (f : LogEntry → LogEntry) : (s.updLog n f).quads = s.quads := rfl
@[simp] theorem State.updLog_lanes (s : State) (n : Nat) (f : LogEntry → LogEntry) : (s.updLog n f).lanes = s.lanes := rfl
@[simp] theorem State.updLog_camp (s : State) (n : Nat) (f : LogEntry → LogEntry) : (s.updLog n f).camp = s.camp := rfl
@[simp] theorem State.updLog_mbx (s : State) (n : Nat) (f : LogEntry → LogEntry) : (s.updLog n f).mbx = s.mbx := rfl
@[simp] theorem State.updLog_rat (s : State) (n : Nat) (f : LogEntry → LogEntry) : (s.updLog n f).rat = s.rat := rfl
@[simp] theorem State.updLog_mem (s : State) (n : Nat) (f : LogEntry → LogEntry) : (s.updLog n f).mem = s.mem := rfl
@[simp] theorem State.updLog_arb (s : State) (n : Nat) (f : LogEntry → LogEntry) : (s.updLog n f).arb = s.arb := rfl
@[simp] theorem State.updLog_cairn (s : State) (n : Nat) (f : LogEntry → LogEntry) : (s.updLog n f).cairn = s.cairn := rfl
@[simp] theorem State.updLog_wear (s : State) (n : Nat) (f : LogEntry → LogEntry) : (s.updLog n f).wear = s.wear := rfl
@[simp] theorem State.updLog_acc (s : State) (n : Nat) (f : LogEntry → LogEntry) : (s.updLog n f).acc = s.acc := rfl
@[simp] theorem State.updLog_cp (s : State) (n : Nat) (f : LogEntry → LogEntry) : (s.updLog n f).cp = s.cp := rfl
@[simp] theorem State.updLog_passAt (s : State) (n : Nat) (f : LogEntry → LogEntry) (k : Nat) : (s.updLog n f).passAt k = s.passAt k := rfl
@[simp] theorem State.updLog_plainAt (s : State) (n : Nat) (f : LogEntry → LogEntry) (k : Nat) : (s.updLog n f).plainAt k = s.plainAt k := rfl
@[simp] theorem State.updLog_belAt (s : State) (n : Nat) (f : LogEntry → LogEntry) (k : Nat) : (s.updLog n f).belAt k = s.belAt k := rfl
@[simp] theorem State.updLog_tgtAt (s : State) (n : Nat) (f : LogEntry → LogEntry) (k : Nat) : (s.updLog n f).tgtAt k = s.tgtAt k := rfl
@[simp] theorem State.updLog_pairAt (s : State) (n : Nat) (f : LogEntry → LogEntry) (k : Nat) : (s.updLog n f).pairAt k = s.pairAt k := rfl
@[simp] theorem State.updLog_frameAt (s : State) (n : Nat) (f : LogEntry → LogEntry) (k : Nat) : (s.updLog n f).frameAt k = s.frameAt k := rfl
@[simp] theorem State.updLog_grpAt (s : State) (n : Nat) (f : LogEntry → LogEntry) (k : Nat) : (s.updLog n f).grpAt k = s.grpAt k := rfl
@[simp] theorem State.updLog_vtAt (s : State) (n : Nat) (f : LogEntry → LogEntry) (k : Nat) : (s.updLog n f).vtAt k = s.vtAt k := rfl
@[simp] theorem State.updLog_ctxAt (s : State) (n : Nat) (f : LogEntry → LogEntry) (k : Nat) : (s.updLog n f).ctxAt k = s.ctxAt k := rfl
@[simp] theorem State.updLog_linkAt (s : State) (n : Nat) (f : LogEntry → LogEntry) (k : Nat) : (s.updLog n f).linkAt k = s.linkAt k := rfl
@[simp] theorem State.updLog_quadAt (s : State) (n : Nat) (f : LogEntry → LogEntry) (k : Nat) : (s.updLog n f).quadAt k = s.quadAt k := rfl
@[simp] theorem State.updLog_laneAt (s : State) (n : Nat) (f : LogEntry → LogEntry) (k : Nat) : (s.updLog n f).laneAt k = s.laneAt k := rfl
@[simp] theorem State.updLog_mbxAt (s : State) (n : Nat) (f : LogEntry → LogEntry) (k : Nat) : (s.updLog n f).mbxAt k = s.mbxAt k := rfl
@[simp] theorem State.updLog_inqAt (s : State) (n : Nat) (f : LogEntry → LogEntry) (k : Nat) : (s.updLog n f).inqAt k = s.inqAt k := rfl
@[simp] theorem State.updLog_srcAt (s : State) (n : Nat) (f : LogEntry → LogEntry) (k : Nat) : (s.updLog n f).srcAt k = s.srcAt k := rfl
@[simp] theorem State.updLog_bankAt (s : State) (n : Nat) (f : LogEntry → LogEntry) (k : Nat) : (s.updLog n f).bankAt k = s.bankAt k := rfl
@[simp] theorem State.updLog_posAt (s : State) (n : Nat) (f : LogEntry → LogEntry) (k : Nat) : (s.updLog n f).posAt k = s.posAt k := rfl
@[simp] theorem State.updLog_ridgeAt (s : State) (n : Nat) (f : LogEntry → LogEntry) (k : Nat) : (s.updLog n f).ridgeAt k = s.ridgeAt k := rfl
@[simp] theorem State.updLog_ridgeOf (s : State) (n : Nat) (f : LogEntry → LogEntry) (k : Nat) : (s.updLog n f).ridgeOf k = s.ridgeOf k := rfl
@[simp] theorem State.updLog_arbAt (s : State) (n : Nat) (f : LogEntry → LogEntry) (k : Nat) : (s.updLog n f).arbAt k = s.arbAt k := rfl
@[simp] theorem State.updLog_running (s : State) (n : Nat) (f : LogEntry → LogEntry) : (s.updLog n f).running = s.running := rfl
@[simp] theorem State.updLog_linksAlive (s : State) (n : Nat) (f : LogEntry → LogEntry) : (s.updLog n f).linksAlive = s.linksAlive := rfl
@[simp] theorem State.updLog_aon (s : State) (n : Nat) (f : LogEntry → LogEntry) : (s.updLog n f).aon = s.aon := rfl
@[simp] theorem State.updLog_now48 (s : State) (n : Nat) (f : LogEntry → LogEntry) : (s.updLog n f).now48 = s.now48 := rfl
@[simp] theorem State.updLog_now32 (s : State) (n : Nat) (f : LogEntry → LogEntry) : (s.updLog n f).now32 = s.now32 := rfl

@[simp] theorem State.updLink_pending (s : State) (n : Nat) (f : Link → Link) : (s.updLink n f).pending = s.pending := rfl
@[simp] theorem State.updLink_freeCtr (s : State) (n : Nat) (f : Link → Link) : (s.updLink n f).freeCtr = s.freeCtr := rfl
@[simp] theorem State.updLink_clk (s : State) (n : Nat) (f : Link → Link) : (s.updLink n f).clk = s.clk := rfl
@[simp] theorem State.updLink_straps (s : State) (n : Nat) (f : Link → Link) : (s.updLink n f).straps = s.straps := rfl
@[simp] theorem State.updLink_pwr (s : State) (n : Nat) (f : Link → Link) : (s.updLink n f).pwr = s.pwr := rfl
@[simp] theorem State.updLink_boot (s : State) (n : Nat) (f : Link → Link) : (s.updLink n f).boot = s.boot := rfl
@[simp] theorem State.updLink_rom (s : State) (n : Nat) (f : Link → Link) : (s.updLink n f).rom = s.rom := rfl
@[simp] theorem State.updLink_rope (s : State) (n : Nat) (f : Link → Link) : (s.updLink n f).rope = s.rope := rfl
@[simp] theorem State.updLink_wired (s : State) (n : Nat) (f : Link → Link) : (s.updLink n f).wired = s.wired := rfl
@[simp] theorem State.updLink_pass (s : State) (n : Nat) (f : Link → Link) : (s.updLink n f).pass = s.pass := rfl
@[simp] theorem State.updLink_door (s : State) (n : Nat) (f : Link → Link) : (s.updLink n f).door = s.door := rfl
@[simp] theorem State.updLink_inq (s : State) (n : Nat) (f : Link → Link) : (s.updLink n f).inq = s.inq := rfl
@[simp] theorem State.updLink_xl (s : State) (n : Nat) (f : Link → Link) : (s.updLink n f).xl = s.xl := rfl
@[simp] theorem State.updLink_plain (s : State) (n : Nat) (f : Link → Link) : (s.updLink n f).plain = s.plain := rfl
@[simp] theorem State.updLink_bel (s : State) (n : Nat) (f : Link → Link) : (s.updLink n f).bel = s.bel := rfl
@[simp] theorem State.updLink_tgt (s : State) (n : Nat) (f : Link → Link) : (s.updLink n f).tgt = s.tgt := rfl
@[simp] theorem State.updLink_pair (s : State) (n : Nat) (f : Link → Link) : (s.updLink n f).pair = s.pair := rfl
@[simp] theorem State.updLink_frame (s : State) (n : Nat) (f : Link → Link) : (s.updLink n f).frame = s.frame := rfl
@[simp] theorem State.updLink_grp (s : State) (n : Nat) (f : Link → Link) : (s.updLink n f).grp = s.grp := rfl
@[simp] theorem State.updLink_vt (s : State) (n : Nat) (f : Link → Link) : (s.updLink n f).vt = s.vt := rfl
@[simp] theorem State.updLink_ctx (s : State) (n : Nat) (f : Link → Link) : (s.updLink n f).ctx = s.ctx := rfl
@[simp] theorem State.updLink_log (s : State) (n : Nat) (f : Link → Link) : (s.updLink n f).log = s.log := rfl
@[simp] theorem State.updLink_logFull (s : State) (n : Nat) (f : Link → Link) : (s.updLink n f).logFull = s.logFull := rfl
@[simp] theorem State.updLink_partner (s : State) (n : Nat) (f : Link → Link) : (s.updLink n f).partner = s.partner := rfl
@[simp] theorem State.updLink_quads (s : State) (n : Nat) (f : Link → Link) : (s.updLink n f).quads = s.quads := rfl
@[simp] theorem State.updLink_lanes (s : State) (n : Nat) (f : Link → Link) : (s.updLink n f).lanes = s.lanes := rfl
@[simp] theorem State.updLink_camp (s : State) (n : Nat) (f : Link → Link) : (s.updLink n f).camp = s.camp := rfl
@[simp] theorem State.updLink_mbx (s : State) (n : Nat) (f : Link → Link) : (s.updLink n f).mbx = s.mbx := rfl
@[simp] theorem State.updLink_rat (s : State) (n : Nat) (f : Link → Link) : (s.updLink n f).rat = s.rat := rfl
@[simp] theorem State.updLink_mem (s : State) (n : Nat) (f : Link → Link) : (s.updLink n f).mem = s.mem := rfl
@[simp] theorem State.updLink_arb (s : State) (n : Nat) (f : Link → Link) : (s.updLink n f).arb = s.arb := rfl
@[simp] theorem State.updLink_cairn (s : State) (n : Nat) (f : Link → Link) : (s.updLink n f).cairn = s.cairn := rfl
@[simp] theorem State.updLink_wear (s : State) (n : Nat) (f : Link → Link) : (s.updLink n f).wear = s.wear := rfl
@[simp] theorem State.updLink_acc (s : State) (n : Nat) (f : Link → Link) : (s.updLink n f).acc = s.acc := rfl
@[simp] theorem State.updLink_cp (s : State) (n : Nat) (f : Link → Link) : (s.updLink n f).cp = s.cp := rfl
@[simp] theorem State.updLink_passAt (s : State) (n : Nat) (f : Link → Link) (k : Nat) : (s.updLink n f).passAt k = s.passAt k := rfl
@[simp] theorem State.updLink_plainAt (s : State) (n : Nat) (f : Link → Link) (k : Nat) : (s.updLink n f).plainAt k = s.plainAt k := rfl
@[simp] theorem State.updLink_belAt (s : State) (n : Nat) (f : Link → Link) (k : Nat) : (s.updLink n f).belAt k = s.belAt k := rfl
@[simp] theorem State.updLink_tgtAt (s : State) (n : Nat) (f : Link → Link) (k : Nat) : (s.updLink n f).tgtAt k = s.tgtAt k := rfl
@[simp] theorem State.updLink_pairAt (s : State) (n : Nat) (f : Link → Link) (k : Nat) : (s.updLink n f).pairAt k = s.pairAt k := rfl
@[simp] theorem State.updLink_frameAt (s : State) (n : Nat) (f : Link → Link) (k : Nat) : (s.updLink n f).frameAt k = s.frameAt k := rfl
@[simp] theorem State.updLink_grpAt (s : State) (n : Nat) (f : Link → Link) (k : Nat) : (s.updLink n f).grpAt k = s.grpAt k := rfl
@[simp] theorem State.updLink_vtAt (s : State) (n : Nat) (f : Link → Link) (k : Nat) : (s.updLink n f).vtAt k = s.vtAt k := rfl
@[simp] theorem State.updLink_ctxAt (s : State) (n : Nat) (f : Link → Link) (k : Nat) : (s.updLink n f).ctxAt k = s.ctxAt k := rfl
@[simp] theorem State.updLink_logAt (s : State) (n : Nat) (f : Link → Link) (k : Nat) : (s.updLink n f).logAt k = s.logAt k := rfl
@[simp] theorem State.updLink_quadAt (s : State) (n : Nat) (f : Link → Link) (k : Nat) : (s.updLink n f).quadAt k = s.quadAt k := rfl
@[simp] theorem State.updLink_laneAt (s : State) (n : Nat) (f : Link → Link) (k : Nat) : (s.updLink n f).laneAt k = s.laneAt k := rfl
@[simp] theorem State.updLink_mbxAt (s : State) (n : Nat) (f : Link → Link) (k : Nat) : (s.updLink n f).mbxAt k = s.mbxAt k := rfl
@[simp] theorem State.updLink_inqAt (s : State) (n : Nat) (f : Link → Link) (k : Nat) : (s.updLink n f).inqAt k = s.inqAt k := rfl
@[simp] theorem State.updLink_srcAt (s : State) (n : Nat) (f : Link → Link) (k : Nat) : (s.updLink n f).srcAt k = s.srcAt k := rfl
@[simp] theorem State.updLink_bankAt (s : State) (n : Nat) (f : Link → Link) (k : Nat) : (s.updLink n f).bankAt k = s.bankAt k := rfl
@[simp] theorem State.updLink_posAt (s : State) (n : Nat) (f : Link → Link) (k : Nat) : (s.updLink n f).posAt k = s.posAt k := rfl
@[simp] theorem State.updLink_ridgeAt (s : State) (n : Nat) (f : Link → Link) (k : Nat) : (s.updLink n f).ridgeAt k = s.ridgeAt k := rfl
@[simp] theorem State.updLink_ridgeOf (s : State) (n : Nat) (f : Link → Link) (k : Nat) : (s.updLink n f).ridgeOf k = s.ridgeOf k := rfl
@[simp] theorem State.updLink_arbAt (s : State) (n : Nat) (f : Link → Link) (k : Nat) : (s.updLink n f).arbAt k = s.arbAt k := rfl
@[simp] theorem State.updLink_running (s : State) (n : Nat) (f : Link → Link) : (s.updLink n f).running = s.running := rfl
@[simp] theorem State.updLink_linksAlive (s : State) (n : Nat) (f : Link → Link) : (s.updLink n f).linksAlive = s.linksAlive := rfl
@[simp] theorem State.updLink_aon (s : State) (n : Nat) (f : Link → Link) : (s.updLink n f).aon = s.aon := rfl
@[simp] theorem State.updLink_now48 (s : State) (n : Nat) (f : Link → Link) : (s.updLink n f).now48 = s.now48 := rfl
@[simp] theorem State.updLink_now32 (s : State) (n : Nat) (f : Link → Link) : (s.updLink n f).now32 = s.now32 := rfl

@[simp] theorem State.updQuad_pending (s : State) (n : Nat) (f : Quad → Quad) : (s.updQuad n f).pending = s.pending := rfl
@[simp] theorem State.updQuad_freeCtr (s : State) (n : Nat) (f : Quad → Quad) : (s.updQuad n f).freeCtr = s.freeCtr := rfl
@[simp] theorem State.updQuad_clk (s : State) (n : Nat) (f : Quad → Quad) : (s.updQuad n f).clk = s.clk := rfl
@[simp] theorem State.updQuad_straps (s : State) (n : Nat) (f : Quad → Quad) : (s.updQuad n f).straps = s.straps := rfl
@[simp] theorem State.updQuad_pwr (s : State) (n : Nat) (f : Quad → Quad) : (s.updQuad n f).pwr = s.pwr := rfl
@[simp] theorem State.updQuad_boot (s : State) (n : Nat) (f : Quad → Quad) : (s.updQuad n f).boot = s.boot := rfl
@[simp] theorem State.updQuad_rom (s : State) (n : Nat) (f : Quad → Quad) : (s.updQuad n f).rom = s.rom := rfl
@[simp] theorem State.updQuad_rope (s : State) (n : Nat) (f : Quad → Quad) : (s.updQuad n f).rope = s.rope := rfl
@[simp] theorem State.updQuad_wired (s : State) (n : Nat) (f : Quad → Quad) : (s.updQuad n f).wired = s.wired := rfl
@[simp] theorem State.updQuad_pass (s : State) (n : Nat) (f : Quad → Quad) : (s.updQuad n f).pass = s.pass := rfl
@[simp] theorem State.updQuad_door (s : State) (n : Nat) (f : Quad → Quad) : (s.updQuad n f).door = s.door := rfl
@[simp] theorem State.updQuad_inq (s : State) (n : Nat) (f : Quad → Quad) : (s.updQuad n f).inq = s.inq := rfl
@[simp] theorem State.updQuad_xl (s : State) (n : Nat) (f : Quad → Quad) : (s.updQuad n f).xl = s.xl := rfl
@[simp] theorem State.updQuad_plain (s : State) (n : Nat) (f : Quad → Quad) : (s.updQuad n f).plain = s.plain := rfl
@[simp] theorem State.updQuad_bel (s : State) (n : Nat) (f : Quad → Quad) : (s.updQuad n f).bel = s.bel := rfl
@[simp] theorem State.updQuad_tgt (s : State) (n : Nat) (f : Quad → Quad) : (s.updQuad n f).tgt = s.tgt := rfl
@[simp] theorem State.updQuad_pair (s : State) (n : Nat) (f : Quad → Quad) : (s.updQuad n f).pair = s.pair := rfl
@[simp] theorem State.updQuad_frame (s : State) (n : Nat) (f : Quad → Quad) : (s.updQuad n f).frame = s.frame := rfl
@[simp] theorem State.updQuad_grp (s : State) (n : Nat) (f : Quad → Quad) : (s.updQuad n f).grp = s.grp := rfl
@[simp] theorem State.updQuad_vt (s : State) (n : Nat) (f : Quad → Quad) : (s.updQuad n f).vt = s.vt := rfl
@[simp] theorem State.updQuad_ctx (s : State) (n : Nat) (f : Quad → Quad) : (s.updQuad n f).ctx = s.ctx := rfl
@[simp] theorem State.updQuad_log (s : State) (n : Nat) (f : Quad → Quad) : (s.updQuad n f).log = s.log := rfl
@[simp] theorem State.updQuad_logFull (s : State) (n : Nat) (f : Quad → Quad) : (s.updQuad n f).logFull = s.logFull := rfl
@[simp] theorem State.updQuad_links (s : State) (n : Nat) (f : Quad → Quad) : (s.updQuad n f).links = s.links := rfl
@[simp] theorem State.updQuad_partner (s : State) (n : Nat) (f : Quad → Quad) : (s.updQuad n f).partner = s.partner := rfl
@[simp] theorem State.updQuad_lanes (s : State) (n : Nat) (f : Quad → Quad) : (s.updQuad n f).lanes = s.lanes := rfl
@[simp] theorem State.updQuad_camp (s : State) (n : Nat) (f : Quad → Quad) : (s.updQuad n f).camp = s.camp := rfl
@[simp] theorem State.updQuad_mbx (s : State) (n : Nat) (f : Quad → Quad) : (s.updQuad n f).mbx = s.mbx := rfl
@[simp] theorem State.updQuad_rat (s : State) (n : Nat) (f : Quad → Quad) : (s.updQuad n f).rat = s.rat := rfl
@[simp] theorem State.updQuad_mem (s : State) (n : Nat) (f : Quad → Quad) : (s.updQuad n f).mem = s.mem := rfl
@[simp] theorem State.updQuad_arb (s : State) (n : Nat) (f : Quad → Quad) : (s.updQuad n f).arb = s.arb := rfl
@[simp] theorem State.updQuad_cairn (s : State) (n : Nat) (f : Quad → Quad) : (s.updQuad n f).cairn = s.cairn := rfl
@[simp] theorem State.updQuad_wear (s : State) (n : Nat) (f : Quad → Quad) : (s.updQuad n f).wear = s.wear := rfl
@[simp] theorem State.updQuad_acc (s : State) (n : Nat) (f : Quad → Quad) : (s.updQuad n f).acc = s.acc := rfl
@[simp] theorem State.updQuad_cp (s : State) (n : Nat) (f : Quad → Quad) : (s.updQuad n f).cp = s.cp := rfl
@[simp] theorem State.updQuad_passAt (s : State) (n : Nat) (f : Quad → Quad) (k : Nat) : (s.updQuad n f).passAt k = s.passAt k := rfl
@[simp] theorem State.updQuad_plainAt (s : State) (n : Nat) (f : Quad → Quad) (k : Nat) : (s.updQuad n f).plainAt k = s.plainAt k := rfl
@[simp] theorem State.updQuad_belAt (s : State) (n : Nat) (f : Quad → Quad) (k : Nat) : (s.updQuad n f).belAt k = s.belAt k := rfl
@[simp] theorem State.updQuad_tgtAt (s : State) (n : Nat) (f : Quad → Quad) (k : Nat) : (s.updQuad n f).tgtAt k = s.tgtAt k := rfl
@[simp] theorem State.updQuad_pairAt (s : State) (n : Nat) (f : Quad → Quad) (k : Nat) : (s.updQuad n f).pairAt k = s.pairAt k := rfl
@[simp] theorem State.updQuad_frameAt (s : State) (n : Nat) (f : Quad → Quad) (k : Nat) : (s.updQuad n f).frameAt k = s.frameAt k := rfl
@[simp] theorem State.updQuad_grpAt (s : State) (n : Nat) (f : Quad → Quad) (k : Nat) : (s.updQuad n f).grpAt k = s.grpAt k := rfl
@[simp] theorem State.updQuad_vtAt (s : State) (n : Nat) (f : Quad → Quad) (k : Nat) : (s.updQuad n f).vtAt k = s.vtAt k := rfl
@[simp] theorem State.updQuad_ctxAt (s : State) (n : Nat) (f : Quad → Quad) (k : Nat) : (s.updQuad n f).ctxAt k = s.ctxAt k := rfl
@[simp] theorem State.updQuad_logAt (s : State) (n : Nat) (f : Quad → Quad) (k : Nat) : (s.updQuad n f).logAt k = s.logAt k := rfl
@[simp] theorem State.updQuad_linkAt (s : State) (n : Nat) (f : Quad → Quad) (k : Nat) : (s.updQuad n f).linkAt k = s.linkAt k := rfl
@[simp] theorem State.updQuad_laneAt (s : State) (n : Nat) (f : Quad → Quad) (k : Nat) : (s.updQuad n f).laneAt k = s.laneAt k := rfl
@[simp] theorem State.updQuad_mbxAt (s : State) (n : Nat) (f : Quad → Quad) (k : Nat) : (s.updQuad n f).mbxAt k = s.mbxAt k := rfl
@[simp] theorem State.updQuad_inqAt (s : State) (n : Nat) (f : Quad → Quad) (k : Nat) : (s.updQuad n f).inqAt k = s.inqAt k := rfl
@[simp] theorem State.updQuad_srcAt (s : State) (n : Nat) (f : Quad → Quad) (k : Nat) : (s.updQuad n f).srcAt k = s.srcAt k := rfl
@[simp] theorem State.updQuad_bankAt (s : State) (n : Nat) (f : Quad → Quad) (k : Nat) : (s.updQuad n f).bankAt k = s.bankAt k := rfl
@[simp] theorem State.updQuad_posAt (s : State) (n : Nat) (f : Quad → Quad) (k : Nat) : (s.updQuad n f).posAt k = s.posAt k := rfl
@[simp] theorem State.updQuad_ridgeAt (s : State) (n : Nat) (f : Quad → Quad) (k : Nat) : (s.updQuad n f).ridgeAt k = s.ridgeAt k := rfl
@[simp] theorem State.updQuad_ridgeOf (s : State) (n : Nat) (f : Quad → Quad) (k : Nat) : (s.updQuad n f).ridgeOf k = s.ridgeOf k := rfl
@[simp] theorem State.updQuad_arbAt (s : State) (n : Nat) (f : Quad → Quad) (k : Nat) : (s.updQuad n f).arbAt k = s.arbAt k := rfl
@[simp] theorem State.updQuad_running (s : State) (n : Nat) (f : Quad → Quad) : (s.updQuad n f).running = s.running := rfl
@[simp] theorem State.updQuad_linksAlive (s : State) (n : Nat) (f : Quad → Quad) : (s.updQuad n f).linksAlive = s.linksAlive := rfl
@[simp] theorem State.updQuad_aon (s : State) (n : Nat) (f : Quad → Quad) : (s.updQuad n f).aon = s.aon := rfl
@[simp] theorem State.updQuad_now48 (s : State) (n : Nat) (f : Quad → Quad) : (s.updQuad n f).now48 = s.now48 := rfl
@[simp] theorem State.updQuad_now32 (s : State) (n : Nat) (f : Quad → Quad) : (s.updQuad n f).now32 = s.now32 := rfl

@[simp] theorem State.updLane_pending (s : State) (n : Nat) (f : Lane → Lane) : (s.updLane n f).pending = s.pending := rfl
@[simp] theorem State.updLane_freeCtr (s : State) (n : Nat) (f : Lane → Lane) : (s.updLane n f).freeCtr = s.freeCtr := rfl
@[simp] theorem State.updLane_clk (s : State) (n : Nat) (f : Lane → Lane) : (s.updLane n f).clk = s.clk := rfl
@[simp] theorem State.updLane_straps (s : State) (n : Nat) (f : Lane → Lane) : (s.updLane n f).straps = s.straps := rfl
@[simp] theorem State.updLane_pwr (s : State) (n : Nat) (f : Lane → Lane) : (s.updLane n f).pwr = s.pwr := rfl
@[simp] theorem State.updLane_boot (s : State) (n : Nat) (f : Lane → Lane) : (s.updLane n f).boot = s.boot := rfl
@[simp] theorem State.updLane_rom (s : State) (n : Nat) (f : Lane → Lane) : (s.updLane n f).rom = s.rom := rfl
@[simp] theorem State.updLane_rope (s : State) (n : Nat) (f : Lane → Lane) : (s.updLane n f).rope = s.rope := rfl
@[simp] theorem State.updLane_wired (s : State) (n : Nat) (f : Lane → Lane) : (s.updLane n f).wired = s.wired := rfl
@[simp] theorem State.updLane_pass (s : State) (n : Nat) (f : Lane → Lane) : (s.updLane n f).pass = s.pass := rfl
@[simp] theorem State.updLane_door (s : State) (n : Nat) (f : Lane → Lane) : (s.updLane n f).door = s.door := rfl
@[simp] theorem State.updLane_inq (s : State) (n : Nat) (f : Lane → Lane) : (s.updLane n f).inq = s.inq := rfl
@[simp] theorem State.updLane_xl (s : State) (n : Nat) (f : Lane → Lane) : (s.updLane n f).xl = s.xl := rfl
@[simp] theorem State.updLane_plain (s : State) (n : Nat) (f : Lane → Lane) : (s.updLane n f).plain = s.plain := rfl
@[simp] theorem State.updLane_bel (s : State) (n : Nat) (f : Lane → Lane) : (s.updLane n f).bel = s.bel := rfl
@[simp] theorem State.updLane_tgt (s : State) (n : Nat) (f : Lane → Lane) : (s.updLane n f).tgt = s.tgt := rfl
@[simp] theorem State.updLane_pair (s : State) (n : Nat) (f : Lane → Lane) : (s.updLane n f).pair = s.pair := rfl
@[simp] theorem State.updLane_frame (s : State) (n : Nat) (f : Lane → Lane) : (s.updLane n f).frame = s.frame := rfl
@[simp] theorem State.updLane_grp (s : State) (n : Nat) (f : Lane → Lane) : (s.updLane n f).grp = s.grp := rfl
@[simp] theorem State.updLane_vt (s : State) (n : Nat) (f : Lane → Lane) : (s.updLane n f).vt = s.vt := rfl
@[simp] theorem State.updLane_ctx (s : State) (n : Nat) (f : Lane → Lane) : (s.updLane n f).ctx = s.ctx := rfl
@[simp] theorem State.updLane_log (s : State) (n : Nat) (f : Lane → Lane) : (s.updLane n f).log = s.log := rfl
@[simp] theorem State.updLane_logFull (s : State) (n : Nat) (f : Lane → Lane) : (s.updLane n f).logFull = s.logFull := rfl
@[simp] theorem State.updLane_links (s : State) (n : Nat) (f : Lane → Lane) : (s.updLane n f).links = s.links := rfl
@[simp] theorem State.updLane_partner (s : State) (n : Nat) (f : Lane → Lane) : (s.updLane n f).partner = s.partner := rfl
@[simp] theorem State.updLane_quads (s : State) (n : Nat) (f : Lane → Lane) : (s.updLane n f).quads = s.quads := rfl
@[simp] theorem State.updLane_camp (s : State) (n : Nat) (f : Lane → Lane) : (s.updLane n f).camp = s.camp := rfl
@[simp] theorem State.updLane_mbx (s : State) (n : Nat) (f : Lane → Lane) : (s.updLane n f).mbx = s.mbx := rfl
@[simp] theorem State.updLane_rat (s : State) (n : Nat) (f : Lane → Lane) : (s.updLane n f).rat = s.rat := rfl
@[simp] theorem State.updLane_mem (s : State) (n : Nat) (f : Lane → Lane) : (s.updLane n f).mem = s.mem := rfl
@[simp] theorem State.updLane_arb (s : State) (n : Nat) (f : Lane → Lane) : (s.updLane n f).arb = s.arb := rfl
@[simp] theorem State.updLane_cairn (s : State) (n : Nat) (f : Lane → Lane) : (s.updLane n f).cairn = s.cairn := rfl
@[simp] theorem State.updLane_wear (s : State) (n : Nat) (f : Lane → Lane) : (s.updLane n f).wear = s.wear := rfl
@[simp] theorem State.updLane_acc (s : State) (n : Nat) (f : Lane → Lane) : (s.updLane n f).acc = s.acc := rfl
@[simp] theorem State.updLane_cp (s : State) (n : Nat) (f : Lane → Lane) : (s.updLane n f).cp = s.cp := rfl
@[simp] theorem State.updLane_passAt (s : State) (n : Nat) (f : Lane → Lane) (k : Nat) : (s.updLane n f).passAt k = s.passAt k := rfl
@[simp] theorem State.updLane_plainAt (s : State) (n : Nat) (f : Lane → Lane) (k : Nat) : (s.updLane n f).plainAt k = s.plainAt k := rfl
@[simp] theorem State.updLane_belAt (s : State) (n : Nat) (f : Lane → Lane) (k : Nat) : (s.updLane n f).belAt k = s.belAt k := rfl
@[simp] theorem State.updLane_tgtAt (s : State) (n : Nat) (f : Lane → Lane) (k : Nat) : (s.updLane n f).tgtAt k = s.tgtAt k := rfl
@[simp] theorem State.updLane_pairAt (s : State) (n : Nat) (f : Lane → Lane) (k : Nat) : (s.updLane n f).pairAt k = s.pairAt k := rfl
@[simp] theorem State.updLane_frameAt (s : State) (n : Nat) (f : Lane → Lane) (k : Nat) : (s.updLane n f).frameAt k = s.frameAt k := rfl
@[simp] theorem State.updLane_grpAt (s : State) (n : Nat) (f : Lane → Lane) (k : Nat) : (s.updLane n f).grpAt k = s.grpAt k := rfl
@[simp] theorem State.updLane_vtAt (s : State) (n : Nat) (f : Lane → Lane) (k : Nat) : (s.updLane n f).vtAt k = s.vtAt k := rfl
@[simp] theorem State.updLane_ctxAt (s : State) (n : Nat) (f : Lane → Lane) (k : Nat) : (s.updLane n f).ctxAt k = s.ctxAt k := rfl
@[simp] theorem State.updLane_logAt (s : State) (n : Nat) (f : Lane → Lane) (k : Nat) : (s.updLane n f).logAt k = s.logAt k := rfl
@[simp] theorem State.updLane_linkAt (s : State) (n : Nat) (f : Lane → Lane) (k : Nat) : (s.updLane n f).linkAt k = s.linkAt k := rfl
@[simp] theorem State.updLane_quadAt (s : State) (n : Nat) (f : Lane → Lane) (k : Nat) : (s.updLane n f).quadAt k = s.quadAt k := rfl
@[simp] theorem State.updLane_mbxAt (s : State) (n : Nat) (f : Lane → Lane) (k : Nat) : (s.updLane n f).mbxAt k = s.mbxAt k := rfl
@[simp] theorem State.updLane_inqAt (s : State) (n : Nat) (f : Lane → Lane) (k : Nat) : (s.updLane n f).inqAt k = s.inqAt k := rfl
@[simp] theorem State.updLane_srcAt (s : State) (n : Nat) (f : Lane → Lane) (k : Nat) : (s.updLane n f).srcAt k = s.srcAt k := rfl
@[simp] theorem State.updLane_bankAt (s : State) (n : Nat) (f : Lane → Lane) (k : Nat) : (s.updLane n f).bankAt k = s.bankAt k := rfl
@[simp] theorem State.updLane_posAt (s : State) (n : Nat) (f : Lane → Lane) (k : Nat) : (s.updLane n f).posAt k = s.posAt k := rfl
@[simp] theorem State.updLane_ridgeAt (s : State) (n : Nat) (f : Lane → Lane) (k : Nat) : (s.updLane n f).ridgeAt k = s.ridgeAt k := rfl
@[simp] theorem State.updLane_ridgeOf (s : State) (n : Nat) (f : Lane → Lane) (k : Nat) : (s.updLane n f).ridgeOf k = s.ridgeOf k := rfl
@[simp] theorem State.updLane_arbAt (s : State) (n : Nat) (f : Lane → Lane) (k : Nat) : (s.updLane n f).arbAt k = s.arbAt k := rfl
@[simp] theorem State.updLane_running (s : State) (n : Nat) (f : Lane → Lane) : (s.updLane n f).running = s.running := rfl
@[simp] theorem State.updLane_linksAlive (s : State) (n : Nat) (f : Lane → Lane) : (s.updLane n f).linksAlive = s.linksAlive := rfl
@[simp] theorem State.updLane_aon (s : State) (n : Nat) (f : Lane → Lane) : (s.updLane n f).aon = s.aon := rfl
@[simp] theorem State.updLane_now48 (s : State) (n : Nat) (f : Lane → Lane) : (s.updLane n f).now48 = s.now48 := rfl
@[simp] theorem State.updLane_now32 (s : State) (n : Nat) (f : Lane → Lane) : (s.updLane n f).now32 = s.now32 := rfl

@[simp] theorem State.updMbx_pending (s : State) (n : Nat) (f : Mbox → Mbox) : (s.updMbx n f).pending = s.pending := rfl
@[simp] theorem State.updMbx_freeCtr (s : State) (n : Nat) (f : Mbox → Mbox) : (s.updMbx n f).freeCtr = s.freeCtr := rfl
@[simp] theorem State.updMbx_clk (s : State) (n : Nat) (f : Mbox → Mbox) : (s.updMbx n f).clk = s.clk := rfl
@[simp] theorem State.updMbx_straps (s : State) (n : Nat) (f : Mbox → Mbox) : (s.updMbx n f).straps = s.straps := rfl
@[simp] theorem State.updMbx_pwr (s : State) (n : Nat) (f : Mbox → Mbox) : (s.updMbx n f).pwr = s.pwr := rfl
@[simp] theorem State.updMbx_boot (s : State) (n : Nat) (f : Mbox → Mbox) : (s.updMbx n f).boot = s.boot := rfl
@[simp] theorem State.updMbx_rom (s : State) (n : Nat) (f : Mbox → Mbox) : (s.updMbx n f).rom = s.rom := rfl
@[simp] theorem State.updMbx_rope (s : State) (n : Nat) (f : Mbox → Mbox) : (s.updMbx n f).rope = s.rope := rfl
@[simp] theorem State.updMbx_wired (s : State) (n : Nat) (f : Mbox → Mbox) : (s.updMbx n f).wired = s.wired := rfl
@[simp] theorem State.updMbx_pass (s : State) (n : Nat) (f : Mbox → Mbox) : (s.updMbx n f).pass = s.pass := rfl
@[simp] theorem State.updMbx_door (s : State) (n : Nat) (f : Mbox → Mbox) : (s.updMbx n f).door = s.door := rfl
@[simp] theorem State.updMbx_inq (s : State) (n : Nat) (f : Mbox → Mbox) : (s.updMbx n f).inq = s.inq := rfl
@[simp] theorem State.updMbx_xl (s : State) (n : Nat) (f : Mbox → Mbox) : (s.updMbx n f).xl = s.xl := rfl
@[simp] theorem State.updMbx_plain (s : State) (n : Nat) (f : Mbox → Mbox) : (s.updMbx n f).plain = s.plain := rfl
@[simp] theorem State.updMbx_bel (s : State) (n : Nat) (f : Mbox → Mbox) : (s.updMbx n f).bel = s.bel := rfl
@[simp] theorem State.updMbx_tgt (s : State) (n : Nat) (f : Mbox → Mbox) : (s.updMbx n f).tgt = s.tgt := rfl
@[simp] theorem State.updMbx_pair (s : State) (n : Nat) (f : Mbox → Mbox) : (s.updMbx n f).pair = s.pair := rfl
@[simp] theorem State.updMbx_frame (s : State) (n : Nat) (f : Mbox → Mbox) : (s.updMbx n f).frame = s.frame := rfl
@[simp] theorem State.updMbx_grp (s : State) (n : Nat) (f : Mbox → Mbox) : (s.updMbx n f).grp = s.grp := rfl
@[simp] theorem State.updMbx_vt (s : State) (n : Nat) (f : Mbox → Mbox) : (s.updMbx n f).vt = s.vt := rfl
@[simp] theorem State.updMbx_ctx (s : State) (n : Nat) (f : Mbox → Mbox) : (s.updMbx n f).ctx = s.ctx := rfl
@[simp] theorem State.updMbx_log (s : State) (n : Nat) (f : Mbox → Mbox) : (s.updMbx n f).log = s.log := rfl
@[simp] theorem State.updMbx_logFull (s : State) (n : Nat) (f : Mbox → Mbox) : (s.updMbx n f).logFull = s.logFull := rfl
@[simp] theorem State.updMbx_links (s : State) (n : Nat) (f : Mbox → Mbox) : (s.updMbx n f).links = s.links := rfl
@[simp] theorem State.updMbx_partner (s : State) (n : Nat) (f : Mbox → Mbox) : (s.updMbx n f).partner = s.partner := rfl
@[simp] theorem State.updMbx_quads (s : State) (n : Nat) (f : Mbox → Mbox) : (s.updMbx n f).quads = s.quads := rfl
@[simp] theorem State.updMbx_lanes (s : State) (n : Nat) (f : Mbox → Mbox) : (s.updMbx n f).lanes = s.lanes := rfl
@[simp] theorem State.updMbx_camp (s : State) (n : Nat) (f : Mbox → Mbox) : (s.updMbx n f).camp = s.camp := rfl
@[simp] theorem State.updMbx_rat (s : State) (n : Nat) (f : Mbox → Mbox) : (s.updMbx n f).rat = s.rat := rfl
@[simp] theorem State.updMbx_mem (s : State) (n : Nat) (f : Mbox → Mbox) : (s.updMbx n f).mem = s.mem := rfl
@[simp] theorem State.updMbx_arb (s : State) (n : Nat) (f : Mbox → Mbox) : (s.updMbx n f).arb = s.arb := rfl
@[simp] theorem State.updMbx_cairn (s : State) (n : Nat) (f : Mbox → Mbox) : (s.updMbx n f).cairn = s.cairn := rfl
@[simp] theorem State.updMbx_wear (s : State) (n : Nat) (f : Mbox → Mbox) : (s.updMbx n f).wear = s.wear := rfl
@[simp] theorem State.updMbx_acc (s : State) (n : Nat) (f : Mbox → Mbox) : (s.updMbx n f).acc = s.acc := rfl
@[simp] theorem State.updMbx_cp (s : State) (n : Nat) (f : Mbox → Mbox) : (s.updMbx n f).cp = s.cp := rfl
@[simp] theorem State.updMbx_passAt (s : State) (n : Nat) (f : Mbox → Mbox) (k : Nat) : (s.updMbx n f).passAt k = s.passAt k := rfl
@[simp] theorem State.updMbx_plainAt (s : State) (n : Nat) (f : Mbox → Mbox) (k : Nat) : (s.updMbx n f).plainAt k = s.plainAt k := rfl
@[simp] theorem State.updMbx_belAt (s : State) (n : Nat) (f : Mbox → Mbox) (k : Nat) : (s.updMbx n f).belAt k = s.belAt k := rfl
@[simp] theorem State.updMbx_tgtAt (s : State) (n : Nat) (f : Mbox → Mbox) (k : Nat) : (s.updMbx n f).tgtAt k = s.tgtAt k := rfl
@[simp] theorem State.updMbx_pairAt (s : State) (n : Nat) (f : Mbox → Mbox) (k : Nat) : (s.updMbx n f).pairAt k = s.pairAt k := rfl
@[simp] theorem State.updMbx_frameAt (s : State) (n : Nat) (f : Mbox → Mbox) (k : Nat) : (s.updMbx n f).frameAt k = s.frameAt k := rfl
@[simp] theorem State.updMbx_grpAt (s : State) (n : Nat) (f : Mbox → Mbox) (k : Nat) : (s.updMbx n f).grpAt k = s.grpAt k := rfl
@[simp] theorem State.updMbx_vtAt (s : State) (n : Nat) (f : Mbox → Mbox) (k : Nat) : (s.updMbx n f).vtAt k = s.vtAt k := rfl
@[simp] theorem State.updMbx_ctxAt (s : State) (n : Nat) (f : Mbox → Mbox) (k : Nat) : (s.updMbx n f).ctxAt k = s.ctxAt k := rfl
@[simp] theorem State.updMbx_logAt (s : State) (n : Nat) (f : Mbox → Mbox) (k : Nat) : (s.updMbx n f).logAt k = s.logAt k := rfl
@[simp] theorem State.updMbx_linkAt (s : State) (n : Nat) (f : Mbox → Mbox) (k : Nat) : (s.updMbx n f).linkAt k = s.linkAt k := rfl
@[simp] theorem State.updMbx_quadAt (s : State) (n : Nat) (f : Mbox → Mbox) (k : Nat) : (s.updMbx n f).quadAt k = s.quadAt k := rfl
@[simp] theorem State.updMbx_laneAt (s : State) (n : Nat) (f : Mbox → Mbox) (k : Nat) : (s.updMbx n f).laneAt k = s.laneAt k := rfl
@[simp] theorem State.updMbx_inqAt (s : State) (n : Nat) (f : Mbox → Mbox) (k : Nat) : (s.updMbx n f).inqAt k = s.inqAt k := rfl
@[simp] theorem State.updMbx_srcAt (s : State) (n : Nat) (f : Mbox → Mbox) (k : Nat) : (s.updMbx n f).srcAt k = s.srcAt k := rfl
@[simp] theorem State.updMbx_bankAt (s : State) (n : Nat) (f : Mbox → Mbox) (k : Nat) : (s.updMbx n f).bankAt k = s.bankAt k := rfl
@[simp] theorem State.updMbx_posAt (s : State) (n : Nat) (f : Mbox → Mbox) (k : Nat) : (s.updMbx n f).posAt k = s.posAt k := rfl
@[simp] theorem State.updMbx_ridgeAt (s : State) (n : Nat) (f : Mbox → Mbox) (k : Nat) : (s.updMbx n f).ridgeAt k = s.ridgeAt k := rfl
@[simp] theorem State.updMbx_ridgeOf (s : State) (n : Nat) (f : Mbox → Mbox) (k : Nat) : (s.updMbx n f).ridgeOf k = s.ridgeOf k := rfl
@[simp] theorem State.updMbx_arbAt (s : State) (n : Nat) (f : Mbox → Mbox) (k : Nat) : (s.updMbx n f).arbAt k = s.arbAt k := rfl
@[simp] theorem State.updMbx_running (s : State) (n : Nat) (f : Mbox → Mbox) : (s.updMbx n f).running = s.running := rfl
@[simp] theorem State.updMbx_linksAlive (s : State) (n : Nat) (f : Mbox → Mbox) : (s.updMbx n f).linksAlive = s.linksAlive := rfl
@[simp] theorem State.updMbx_aon (s : State) (n : Nat) (f : Mbox → Mbox) : (s.updMbx n f).aon = s.aon := rfl
@[simp] theorem State.updMbx_now48 (s : State) (n : Nat) (f : Mbox → Mbox) : (s.updMbx n f).now48 = s.now48 := rfl
@[simp] theorem State.updMbx_now32 (s : State) (n : Nat) (f : Mbox → Mbox) : (s.updMbx n f).now32 = s.now32 := rfl

@[simp] theorem State.updInq_pending (s : State) (n : Nat) (f : List Rec → List Rec) : (s.updInq n f).pending = s.pending := rfl
@[simp] theorem State.updInq_freeCtr (s : State) (n : Nat) (f : List Rec → List Rec) : (s.updInq n f).freeCtr = s.freeCtr := rfl
@[simp] theorem State.updInq_clk (s : State) (n : Nat) (f : List Rec → List Rec) : (s.updInq n f).clk = s.clk := rfl
@[simp] theorem State.updInq_straps (s : State) (n : Nat) (f : List Rec → List Rec) : (s.updInq n f).straps = s.straps := rfl
@[simp] theorem State.updInq_pwr (s : State) (n : Nat) (f : List Rec → List Rec) : (s.updInq n f).pwr = s.pwr := rfl
@[simp] theorem State.updInq_boot (s : State) (n : Nat) (f : List Rec → List Rec) : (s.updInq n f).boot = s.boot := rfl
@[simp] theorem State.updInq_rom (s : State) (n : Nat) (f : List Rec → List Rec) : (s.updInq n f).rom = s.rom := rfl
@[simp] theorem State.updInq_rope (s : State) (n : Nat) (f : List Rec → List Rec) : (s.updInq n f).rope = s.rope := rfl
@[simp] theorem State.updInq_wired (s : State) (n : Nat) (f : List Rec → List Rec) : (s.updInq n f).wired = s.wired := rfl
@[simp] theorem State.updInq_pass (s : State) (n : Nat) (f : List Rec → List Rec) : (s.updInq n f).pass = s.pass := rfl
@[simp] theorem State.updInq_door (s : State) (n : Nat) (f : List Rec → List Rec) : (s.updInq n f).door = s.door := rfl
@[simp] theorem State.updInq_xl (s : State) (n : Nat) (f : List Rec → List Rec) : (s.updInq n f).xl = s.xl := rfl
@[simp] theorem State.updInq_plain (s : State) (n : Nat) (f : List Rec → List Rec) : (s.updInq n f).plain = s.plain := rfl
@[simp] theorem State.updInq_bel (s : State) (n : Nat) (f : List Rec → List Rec) : (s.updInq n f).bel = s.bel := rfl
@[simp] theorem State.updInq_tgt (s : State) (n : Nat) (f : List Rec → List Rec) : (s.updInq n f).tgt = s.tgt := rfl
@[simp] theorem State.updInq_pair (s : State) (n : Nat) (f : List Rec → List Rec) : (s.updInq n f).pair = s.pair := rfl
@[simp] theorem State.updInq_frame (s : State) (n : Nat) (f : List Rec → List Rec) : (s.updInq n f).frame = s.frame := rfl
@[simp] theorem State.updInq_grp (s : State) (n : Nat) (f : List Rec → List Rec) : (s.updInq n f).grp = s.grp := rfl
@[simp] theorem State.updInq_vt (s : State) (n : Nat) (f : List Rec → List Rec) : (s.updInq n f).vt = s.vt := rfl
@[simp] theorem State.updInq_ctx (s : State) (n : Nat) (f : List Rec → List Rec) : (s.updInq n f).ctx = s.ctx := rfl
@[simp] theorem State.updInq_log (s : State) (n : Nat) (f : List Rec → List Rec) : (s.updInq n f).log = s.log := rfl
@[simp] theorem State.updInq_logFull (s : State) (n : Nat) (f : List Rec → List Rec) : (s.updInq n f).logFull = s.logFull := rfl
@[simp] theorem State.updInq_links (s : State) (n : Nat) (f : List Rec → List Rec) : (s.updInq n f).links = s.links := rfl
@[simp] theorem State.updInq_partner (s : State) (n : Nat) (f : List Rec → List Rec) : (s.updInq n f).partner = s.partner := rfl
@[simp] theorem State.updInq_quads (s : State) (n : Nat) (f : List Rec → List Rec) : (s.updInq n f).quads = s.quads := rfl
@[simp] theorem State.updInq_lanes (s : State) (n : Nat) (f : List Rec → List Rec) : (s.updInq n f).lanes = s.lanes := rfl
@[simp] theorem State.updInq_camp (s : State) (n : Nat) (f : List Rec → List Rec) : (s.updInq n f).camp = s.camp := rfl
@[simp] theorem State.updInq_mbx (s : State) (n : Nat) (f : List Rec → List Rec) : (s.updInq n f).mbx = s.mbx := rfl
@[simp] theorem State.updInq_rat (s : State) (n : Nat) (f : List Rec → List Rec) : (s.updInq n f).rat = s.rat := rfl
@[simp] theorem State.updInq_mem (s : State) (n : Nat) (f : List Rec → List Rec) : (s.updInq n f).mem = s.mem := rfl
@[simp] theorem State.updInq_arb (s : State) (n : Nat) (f : List Rec → List Rec) : (s.updInq n f).arb = s.arb := rfl
@[simp] theorem State.updInq_cairn (s : State) (n : Nat) (f : List Rec → List Rec) : (s.updInq n f).cairn = s.cairn := rfl
@[simp] theorem State.updInq_wear (s : State) (n : Nat) (f : List Rec → List Rec) : (s.updInq n f).wear = s.wear := rfl
@[simp] theorem State.updInq_acc (s : State) (n : Nat) (f : List Rec → List Rec) : (s.updInq n f).acc = s.acc := rfl
@[simp] theorem State.updInq_cp (s : State) (n : Nat) (f : List Rec → List Rec) : (s.updInq n f).cp = s.cp := rfl
@[simp] theorem State.updInq_passAt (s : State) (n : Nat) (f : List Rec → List Rec) (k : Nat) : (s.updInq n f).passAt k = s.passAt k := rfl
@[simp] theorem State.updInq_plainAt (s : State) (n : Nat) (f : List Rec → List Rec) (k : Nat) : (s.updInq n f).plainAt k = s.plainAt k := rfl
@[simp] theorem State.updInq_belAt (s : State) (n : Nat) (f : List Rec → List Rec) (k : Nat) : (s.updInq n f).belAt k = s.belAt k := rfl
@[simp] theorem State.updInq_tgtAt (s : State) (n : Nat) (f : List Rec → List Rec) (k : Nat) : (s.updInq n f).tgtAt k = s.tgtAt k := rfl
@[simp] theorem State.updInq_pairAt (s : State) (n : Nat) (f : List Rec → List Rec) (k : Nat) : (s.updInq n f).pairAt k = s.pairAt k := rfl
@[simp] theorem State.updInq_frameAt (s : State) (n : Nat) (f : List Rec → List Rec) (k : Nat) : (s.updInq n f).frameAt k = s.frameAt k := rfl
@[simp] theorem State.updInq_grpAt (s : State) (n : Nat) (f : List Rec → List Rec) (k : Nat) : (s.updInq n f).grpAt k = s.grpAt k := rfl
@[simp] theorem State.updInq_vtAt (s : State) (n : Nat) (f : List Rec → List Rec) (k : Nat) : (s.updInq n f).vtAt k = s.vtAt k := rfl
@[simp] theorem State.updInq_ctxAt (s : State) (n : Nat) (f : List Rec → List Rec) (k : Nat) : (s.updInq n f).ctxAt k = s.ctxAt k := rfl
@[simp] theorem State.updInq_logAt (s : State) (n : Nat) (f : List Rec → List Rec) (k : Nat) : (s.updInq n f).logAt k = s.logAt k := rfl
@[simp] theorem State.updInq_linkAt (s : State) (n : Nat) (f : List Rec → List Rec) (k : Nat) : (s.updInq n f).linkAt k = s.linkAt k := rfl
@[simp] theorem State.updInq_quadAt (s : State) (n : Nat) (f : List Rec → List Rec) (k : Nat) : (s.updInq n f).quadAt k = s.quadAt k := rfl
@[simp] theorem State.updInq_laneAt (s : State) (n : Nat) (f : List Rec → List Rec) (k : Nat) : (s.updInq n f).laneAt k = s.laneAt k := rfl
@[simp] theorem State.updInq_mbxAt (s : State) (n : Nat) (f : List Rec → List Rec) (k : Nat) : (s.updInq n f).mbxAt k = s.mbxAt k := rfl
@[simp] theorem State.updInq_srcAt (s : State) (n : Nat) (f : List Rec → List Rec) (k : Nat) : (s.updInq n f).srcAt k = s.srcAt k := rfl
@[simp] theorem State.updInq_bankAt (s : State) (n : Nat) (f : List Rec → List Rec) (k : Nat) : (s.updInq n f).bankAt k = s.bankAt k := rfl
@[simp] theorem State.updInq_posAt (s : State) (n : Nat) (f : List Rec → List Rec) (k : Nat) : (s.updInq n f).posAt k = s.posAt k := rfl
@[simp] theorem State.updInq_ridgeAt (s : State) (n : Nat) (f : List Rec → List Rec) (k : Nat) : (s.updInq n f).ridgeAt k = s.ridgeAt k := rfl
@[simp] theorem State.updInq_ridgeOf (s : State) (n : Nat) (f : List Rec → List Rec) (k : Nat) : (s.updInq n f).ridgeOf k = s.ridgeOf k := rfl
@[simp] theorem State.updInq_arbAt (s : State) (n : Nat) (f : List Rec → List Rec) (k : Nat) : (s.updInq n f).arbAt k = s.arbAt k := rfl
@[simp] theorem State.updInq_running (s : State) (n : Nat) (f : List Rec → List Rec) : (s.updInq n f).running = s.running := rfl
@[simp] theorem State.updInq_linksAlive (s : State) (n : Nat) (f : List Rec → List Rec) : (s.updInq n f).linksAlive = s.linksAlive := rfl
@[simp] theorem State.updInq_aon (s : State) (n : Nat) (f : List Rec → List Rec) : (s.updInq n f).aon = s.aon := rfl
@[simp] theorem State.updInq_now48 (s : State) (n : Nat) (f : List Rec → List Rec) : (s.updInq n f).now48 = s.now48 := rfl
@[simp] theorem State.updInq_now32 (s : State) (n : Nat) (f : List Rec → List Rec) : (s.updInq n f).now32 = s.now32 := rfl

@[simp] theorem State.modClk_pending (s : State) (f : Clocks → Clocks) : (s.modClk f).pending = s.pending := rfl
@[simp] theorem State.modClk_freeCtr (s : State) (f : Clocks → Clocks) : (s.modClk f).freeCtr = s.freeCtr := rfl
@[simp] theorem State.modClk_straps (s : State) (f : Clocks → Clocks) : (s.modClk f).straps = s.straps := rfl
@[simp] theorem State.modClk_pwr (s : State) (f : Clocks → Clocks) : (s.modClk f).pwr = s.pwr := rfl
@[simp] theorem State.modClk_boot (s : State) (f : Clocks → Clocks) : (s.modClk f).boot = s.boot := rfl
@[simp] theorem State.modClk_rom (s : State) (f : Clocks → Clocks) : (s.modClk f).rom = s.rom := rfl
@[simp] theorem State.modClk_rope (s : State) (f : Clocks → Clocks) : (s.modClk f).rope = s.rope := rfl
@[simp] theorem State.modClk_wired (s : State) (f : Clocks → Clocks) : (s.modClk f).wired = s.wired := rfl
@[simp] theorem State.modClk_pass (s : State) (f : Clocks → Clocks) : (s.modClk f).pass = s.pass := rfl
@[simp] theorem State.modClk_door (s : State) (f : Clocks → Clocks) : (s.modClk f).door = s.door := rfl
@[simp] theorem State.modClk_inq (s : State) (f : Clocks → Clocks) : (s.modClk f).inq = s.inq := rfl
@[simp] theorem State.modClk_xl (s : State) (f : Clocks → Clocks) : (s.modClk f).xl = s.xl := rfl
@[simp] theorem State.modClk_plain (s : State) (f : Clocks → Clocks) : (s.modClk f).plain = s.plain := rfl
@[simp] theorem State.modClk_bel (s : State) (f : Clocks → Clocks) : (s.modClk f).bel = s.bel := rfl
@[simp] theorem State.modClk_tgt (s : State) (f : Clocks → Clocks) : (s.modClk f).tgt = s.tgt := rfl
@[simp] theorem State.modClk_pair (s : State) (f : Clocks → Clocks) : (s.modClk f).pair = s.pair := rfl
@[simp] theorem State.modClk_frame (s : State) (f : Clocks → Clocks) : (s.modClk f).frame = s.frame := rfl
@[simp] theorem State.modClk_grp (s : State) (f : Clocks → Clocks) : (s.modClk f).grp = s.grp := rfl
@[simp] theorem State.modClk_vt (s : State) (f : Clocks → Clocks) : (s.modClk f).vt = s.vt := rfl
@[simp] theorem State.modClk_ctx (s : State) (f : Clocks → Clocks) : (s.modClk f).ctx = s.ctx := rfl
@[simp] theorem State.modClk_log (s : State) (f : Clocks → Clocks) : (s.modClk f).log = s.log := rfl
@[simp] theorem State.modClk_logFull (s : State) (f : Clocks → Clocks) : (s.modClk f).logFull = s.logFull := rfl
@[simp] theorem State.modClk_links (s : State) (f : Clocks → Clocks) : (s.modClk f).links = s.links := rfl
@[simp] theorem State.modClk_partner (s : State) (f : Clocks → Clocks) : (s.modClk f).partner = s.partner := rfl
@[simp] theorem State.modClk_quads (s : State) (f : Clocks → Clocks) : (s.modClk f).quads = s.quads := rfl
@[simp] theorem State.modClk_lanes (s : State) (f : Clocks → Clocks) : (s.modClk f).lanes = s.lanes := rfl
@[simp] theorem State.modClk_camp (s : State) (f : Clocks → Clocks) : (s.modClk f).camp = s.camp := rfl
@[simp] theorem State.modClk_mbx (s : State) (f : Clocks → Clocks) : (s.modClk f).mbx = s.mbx := rfl
@[simp] theorem State.modClk_rat (s : State) (f : Clocks → Clocks) : (s.modClk f).rat = s.rat := rfl
@[simp] theorem State.modClk_mem (s : State) (f : Clocks → Clocks) : (s.modClk f).mem = s.mem := rfl
@[simp] theorem State.modClk_arb (s : State) (f : Clocks → Clocks) : (s.modClk f).arb = s.arb := rfl
@[simp] theorem State.modClk_cairn (s : State) (f : Clocks → Clocks) : (s.modClk f).cairn = s.cairn := rfl
@[simp] theorem State.modClk_wear (s : State) (f : Clocks → Clocks) : (s.modClk f).wear = s.wear := rfl
@[simp] theorem State.modClk_acc (s : State) (f : Clocks → Clocks) : (s.modClk f).acc = s.acc := rfl
@[simp] theorem State.modClk_cp (s : State) (f : Clocks → Clocks) : (s.modClk f).cp = s.cp := rfl
@[simp] theorem State.modClk_passAt (s : State) (f : Clocks → Clocks) (k : Nat) : (s.modClk f).passAt k = s.passAt k := rfl
@[simp] theorem State.modClk_plainAt (s : State) (f : Clocks → Clocks) (k : Nat) : (s.modClk f).plainAt k = s.plainAt k := rfl
@[simp] theorem State.modClk_belAt (s : State) (f : Clocks → Clocks) (k : Nat) : (s.modClk f).belAt k = s.belAt k := rfl
@[simp] theorem State.modClk_tgtAt (s : State) (f : Clocks → Clocks) (k : Nat) : (s.modClk f).tgtAt k = s.tgtAt k := rfl
@[simp] theorem State.modClk_pairAt (s : State) (f : Clocks → Clocks) (k : Nat) : (s.modClk f).pairAt k = s.pairAt k := rfl
@[simp] theorem State.modClk_frameAt (s : State) (f : Clocks → Clocks) (k : Nat) : (s.modClk f).frameAt k = s.frameAt k := rfl
@[simp] theorem State.modClk_grpAt (s : State) (f : Clocks → Clocks) (k : Nat) : (s.modClk f).grpAt k = s.grpAt k := rfl
@[simp] theorem State.modClk_vtAt (s : State) (f : Clocks → Clocks) (k : Nat) : (s.modClk f).vtAt k = s.vtAt k := rfl
@[simp] theorem State.modClk_ctxAt (s : State) (f : Clocks → Clocks) (k : Nat) : (s.modClk f).ctxAt k = s.ctxAt k := rfl
@[simp] theorem State.modClk_logAt (s : State) (f : Clocks → Clocks) (k : Nat) : (s.modClk f).logAt k = s.logAt k := rfl
@[simp] theorem State.modClk_linkAt (s : State) (f : Clocks → Clocks) (k : Nat) : (s.modClk f).linkAt k = s.linkAt k := rfl
@[simp] theorem State.modClk_quadAt (s : State) (f : Clocks → Clocks) (k : Nat) : (s.modClk f).quadAt k = s.quadAt k := rfl
@[simp] theorem State.modClk_laneAt (s : State) (f : Clocks → Clocks) (k : Nat) : (s.modClk f).laneAt k = s.laneAt k := rfl
@[simp] theorem State.modClk_mbxAt (s : State) (f : Clocks → Clocks) (k : Nat) : (s.modClk f).mbxAt k = s.mbxAt k := rfl
@[simp] theorem State.modClk_inqAt (s : State) (f : Clocks → Clocks) (k : Nat) : (s.modClk f).inqAt k = s.inqAt k := rfl
@[simp] theorem State.modClk_srcAt (s : State) (f : Clocks → Clocks) (k : Nat) : (s.modClk f).srcAt k = s.srcAt k := rfl
@[simp] theorem State.modClk_bankAt (s : State) (f : Clocks → Clocks) (k : Nat) : (s.modClk f).bankAt k = s.bankAt k := rfl
@[simp] theorem State.modClk_posAt (s : State) (f : Clocks → Clocks) (k : Nat) : (s.modClk f).posAt k = s.posAt k := rfl
@[simp] theorem State.modClk_ridgeAt (s : State) (f : Clocks → Clocks) (k : Nat) : (s.modClk f).ridgeAt k = s.ridgeAt k := rfl
@[simp] theorem State.modClk_ridgeOf (s : State) (f : Clocks → Clocks) (k : Nat) : (s.modClk f).ridgeOf k = s.ridgeOf k := rfl
@[simp] theorem State.modClk_arbAt (s : State) (f : Clocks → Clocks) (k : Nat) : (s.modClk f).arbAt k = s.arbAt k := rfl
@[simp] theorem State.modClk_running (s : State) (f : Clocks → Clocks) : (s.modClk f).running = s.running := rfl
@[simp] theorem State.modClk_linksAlive (s : State) (f : Clocks → Clocks) : (s.modClk f).linksAlive = s.linksAlive := rfl
@[simp] theorem State.modClk_aon (s : State) (f : Clocks → Clocks) : (s.modClk f).aon = s.aon := rfl

@[simp] theorem State.modPwr_pending (s : State) (f : Power → Power) : (s.modPwr f).pending = s.pending := rfl
@[simp] theorem State.modPwr_freeCtr (s : State) (f : Power → Power) : (s.modPwr f).freeCtr = s.freeCtr := rfl
@[simp] theorem State.modPwr_clk (s : State) (f : Power → Power) : (s.modPwr f).clk = s.clk := rfl
@[simp] theorem State.modPwr_straps (s : State) (f : Power → Power) : (s.modPwr f).straps = s.straps := rfl
@[simp] theorem State.modPwr_boot (s : State) (f : Power → Power) : (s.modPwr f).boot = s.boot := rfl
@[simp] theorem State.modPwr_rom (s : State) (f : Power → Power) : (s.modPwr f).rom = s.rom := rfl
@[simp] theorem State.modPwr_rope (s : State) (f : Power → Power) : (s.modPwr f).rope = s.rope := rfl
@[simp] theorem State.modPwr_wired (s : State) (f : Power → Power) : (s.modPwr f).wired = s.wired := rfl
@[simp] theorem State.modPwr_pass (s : State) (f : Power → Power) : (s.modPwr f).pass = s.pass := rfl
@[simp] theorem State.modPwr_door (s : State) (f : Power → Power) : (s.modPwr f).door = s.door := rfl
@[simp] theorem State.modPwr_inq (s : State) (f : Power → Power) : (s.modPwr f).inq = s.inq := rfl
@[simp] theorem State.modPwr_xl (s : State) (f : Power → Power) : (s.modPwr f).xl = s.xl := rfl
@[simp] theorem State.modPwr_plain (s : State) (f : Power → Power) : (s.modPwr f).plain = s.plain := rfl
@[simp] theorem State.modPwr_bel (s : State) (f : Power → Power) : (s.modPwr f).bel = s.bel := rfl
@[simp] theorem State.modPwr_tgt (s : State) (f : Power → Power) : (s.modPwr f).tgt = s.tgt := rfl
@[simp] theorem State.modPwr_pair (s : State) (f : Power → Power) : (s.modPwr f).pair = s.pair := rfl
@[simp] theorem State.modPwr_frame (s : State) (f : Power → Power) : (s.modPwr f).frame = s.frame := rfl
@[simp] theorem State.modPwr_grp (s : State) (f : Power → Power) : (s.modPwr f).grp = s.grp := rfl
@[simp] theorem State.modPwr_vt (s : State) (f : Power → Power) : (s.modPwr f).vt = s.vt := rfl
@[simp] theorem State.modPwr_ctx (s : State) (f : Power → Power) : (s.modPwr f).ctx = s.ctx := rfl
@[simp] theorem State.modPwr_log (s : State) (f : Power → Power) : (s.modPwr f).log = s.log := rfl
@[simp] theorem State.modPwr_logFull (s : State) (f : Power → Power) : (s.modPwr f).logFull = s.logFull := rfl
@[simp] theorem State.modPwr_links (s : State) (f : Power → Power) : (s.modPwr f).links = s.links := rfl
@[simp] theorem State.modPwr_partner (s : State) (f : Power → Power) : (s.modPwr f).partner = s.partner := rfl
@[simp] theorem State.modPwr_quads (s : State) (f : Power → Power) : (s.modPwr f).quads = s.quads := rfl
@[simp] theorem State.modPwr_lanes (s : State) (f : Power → Power) : (s.modPwr f).lanes = s.lanes := rfl
@[simp] theorem State.modPwr_camp (s : State) (f : Power → Power) : (s.modPwr f).camp = s.camp := rfl
@[simp] theorem State.modPwr_mbx (s : State) (f : Power → Power) : (s.modPwr f).mbx = s.mbx := rfl
@[simp] theorem State.modPwr_rat (s : State) (f : Power → Power) : (s.modPwr f).rat = s.rat := rfl
@[simp] theorem State.modPwr_mem (s : State) (f : Power → Power) : (s.modPwr f).mem = s.mem := rfl
@[simp] theorem State.modPwr_arb (s : State) (f : Power → Power) : (s.modPwr f).arb = s.arb := rfl
@[simp] theorem State.modPwr_cairn (s : State) (f : Power → Power) : (s.modPwr f).cairn = s.cairn := rfl
@[simp] theorem State.modPwr_wear (s : State) (f : Power → Power) : (s.modPwr f).wear = s.wear := rfl
@[simp] theorem State.modPwr_acc (s : State) (f : Power → Power) : (s.modPwr f).acc = s.acc := rfl
@[simp] theorem State.modPwr_cp (s : State) (f : Power → Power) : (s.modPwr f).cp = s.cp := rfl
@[simp] theorem State.modPwr_passAt (s : State) (f : Power → Power) (k : Nat) : (s.modPwr f).passAt k = s.passAt k := rfl
@[simp] theorem State.modPwr_plainAt (s : State) (f : Power → Power) (k : Nat) : (s.modPwr f).plainAt k = s.plainAt k := rfl
@[simp] theorem State.modPwr_belAt (s : State) (f : Power → Power) (k : Nat) : (s.modPwr f).belAt k = s.belAt k := rfl
@[simp] theorem State.modPwr_tgtAt (s : State) (f : Power → Power) (k : Nat) : (s.modPwr f).tgtAt k = s.tgtAt k := rfl
@[simp] theorem State.modPwr_pairAt (s : State) (f : Power → Power) (k : Nat) : (s.modPwr f).pairAt k = s.pairAt k := rfl
@[simp] theorem State.modPwr_frameAt (s : State) (f : Power → Power) (k : Nat) : (s.modPwr f).frameAt k = s.frameAt k := rfl
@[simp] theorem State.modPwr_grpAt (s : State) (f : Power → Power) (k : Nat) : (s.modPwr f).grpAt k = s.grpAt k := rfl
@[simp] theorem State.modPwr_vtAt (s : State) (f : Power → Power) (k : Nat) : (s.modPwr f).vtAt k = s.vtAt k := rfl
@[simp] theorem State.modPwr_ctxAt (s : State) (f : Power → Power) (k : Nat) : (s.modPwr f).ctxAt k = s.ctxAt k := rfl
@[simp] theorem State.modPwr_logAt (s : State) (f : Power → Power) (k : Nat) : (s.modPwr f).logAt k = s.logAt k := rfl
@[simp] theorem State.modPwr_linkAt (s : State) (f : Power → Power) (k : Nat) : (s.modPwr f).linkAt k = s.linkAt k := rfl
@[simp] theorem State.modPwr_quadAt (s : State) (f : Power → Power) (k : Nat) : (s.modPwr f).quadAt k = s.quadAt k := rfl
@[simp] theorem State.modPwr_laneAt (s : State) (f : Power → Power) (k : Nat) : (s.modPwr f).laneAt k = s.laneAt k := rfl
@[simp] theorem State.modPwr_mbxAt (s : State) (f : Power → Power) (k : Nat) : (s.modPwr f).mbxAt k = s.mbxAt k := rfl
@[simp] theorem State.modPwr_inqAt (s : State) (f : Power → Power) (k : Nat) : (s.modPwr f).inqAt k = s.inqAt k := rfl
@[simp] theorem State.modPwr_srcAt (s : State) (f : Power → Power) (k : Nat) : (s.modPwr f).srcAt k = s.srcAt k := rfl
@[simp] theorem State.modPwr_bankAt (s : State) (f : Power → Power) (k : Nat) : (s.modPwr f).bankAt k = s.bankAt k := rfl
@[simp] theorem State.modPwr_posAt (s : State) (f : Power → Power) (k : Nat) : (s.modPwr f).posAt k = s.posAt k := rfl
@[simp] theorem State.modPwr_ridgeAt (s : State) (f : Power → Power) (k : Nat) : (s.modPwr f).ridgeAt k = s.ridgeAt k := rfl
@[simp] theorem State.modPwr_ridgeOf (s : State) (f : Power → Power) (k : Nat) : (s.modPwr f).ridgeOf k = s.ridgeOf k := rfl
@[simp] theorem State.modPwr_arbAt (s : State) (f : Power → Power) (k : Nat) : (s.modPwr f).arbAt k = s.arbAt k := rfl
@[simp] theorem State.modPwr_now48 (s : State) (f : Power → Power) : (s.modPwr f).now48 = s.now48 := rfl
@[simp] theorem State.modPwr_now32 (s : State) (f : Power → Power) : (s.modPwr f).now32 = s.now32 := rfl

@[simp] theorem State.modBoot_pending (s : State) (f : Boot → Boot) : (s.modBoot f).pending = s.pending := rfl
@[simp] theorem State.modBoot_freeCtr (s : State) (f : Boot → Boot) : (s.modBoot f).freeCtr = s.freeCtr := rfl
@[simp] theorem State.modBoot_clk (s : State) (f : Boot → Boot) : (s.modBoot f).clk = s.clk := rfl
@[simp] theorem State.modBoot_straps (s : State) (f : Boot → Boot) : (s.modBoot f).straps = s.straps := rfl
@[simp] theorem State.modBoot_pwr (s : State) (f : Boot → Boot) : (s.modBoot f).pwr = s.pwr := rfl
@[simp] theorem State.modBoot_rom (s : State) (f : Boot → Boot) : (s.modBoot f).rom = s.rom := rfl
@[simp] theorem State.modBoot_rope (s : State) (f : Boot → Boot) : (s.modBoot f).rope = s.rope := rfl
@[simp] theorem State.modBoot_wired (s : State) (f : Boot → Boot) : (s.modBoot f).wired = s.wired := rfl
@[simp] theorem State.modBoot_pass (s : State) (f : Boot → Boot) : (s.modBoot f).pass = s.pass := rfl
@[simp] theorem State.modBoot_door (s : State) (f : Boot → Boot) : (s.modBoot f).door = s.door := rfl
@[simp] theorem State.modBoot_inq (s : State) (f : Boot → Boot) : (s.modBoot f).inq = s.inq := rfl
@[simp] theorem State.modBoot_xl (s : State) (f : Boot → Boot) : (s.modBoot f).xl = s.xl := rfl
@[simp] theorem State.modBoot_plain (s : State) (f : Boot → Boot) : (s.modBoot f).plain = s.plain := rfl
@[simp] theorem State.modBoot_bel (s : State) (f : Boot → Boot) : (s.modBoot f).bel = s.bel := rfl
@[simp] theorem State.modBoot_tgt (s : State) (f : Boot → Boot) : (s.modBoot f).tgt = s.tgt := rfl
@[simp] theorem State.modBoot_pair (s : State) (f : Boot → Boot) : (s.modBoot f).pair = s.pair := rfl
@[simp] theorem State.modBoot_frame (s : State) (f : Boot → Boot) : (s.modBoot f).frame = s.frame := rfl
@[simp] theorem State.modBoot_grp (s : State) (f : Boot → Boot) : (s.modBoot f).grp = s.grp := rfl
@[simp] theorem State.modBoot_vt (s : State) (f : Boot → Boot) : (s.modBoot f).vt = s.vt := rfl
@[simp] theorem State.modBoot_ctx (s : State) (f : Boot → Boot) : (s.modBoot f).ctx = s.ctx := rfl
@[simp] theorem State.modBoot_log (s : State) (f : Boot → Boot) : (s.modBoot f).log = s.log := rfl
@[simp] theorem State.modBoot_logFull (s : State) (f : Boot → Boot) : (s.modBoot f).logFull = s.logFull := rfl
@[simp] theorem State.modBoot_links (s : State) (f : Boot → Boot) : (s.modBoot f).links = s.links := rfl
@[simp] theorem State.modBoot_partner (s : State) (f : Boot → Boot) : (s.modBoot f).partner = s.partner := rfl
@[simp] theorem State.modBoot_quads (s : State) (f : Boot → Boot) : (s.modBoot f).quads = s.quads := rfl
@[simp] theorem State.modBoot_lanes (s : State) (f : Boot → Boot) : (s.modBoot f).lanes = s.lanes := rfl
@[simp] theorem State.modBoot_camp (s : State) (f : Boot → Boot) : (s.modBoot f).camp = s.camp := rfl
@[simp] theorem State.modBoot_mbx (s : State) (f : Boot → Boot) : (s.modBoot f).mbx = s.mbx := rfl
@[simp] theorem State.modBoot_rat (s : State) (f : Boot → Boot) : (s.modBoot f).rat = s.rat := rfl
@[simp] theorem State.modBoot_mem (s : State) (f : Boot → Boot) : (s.modBoot f).mem = s.mem := rfl
@[simp] theorem State.modBoot_arb (s : State) (f : Boot → Boot) : (s.modBoot f).arb = s.arb := rfl
@[simp] theorem State.modBoot_cairn (s : State) (f : Boot → Boot) : (s.modBoot f).cairn = s.cairn := rfl
@[simp] theorem State.modBoot_wear (s : State) (f : Boot → Boot) : (s.modBoot f).wear = s.wear := rfl
@[simp] theorem State.modBoot_acc (s : State) (f : Boot → Boot) : (s.modBoot f).acc = s.acc := rfl
@[simp] theorem State.modBoot_cp (s : State) (f : Boot → Boot) : (s.modBoot f).cp = s.cp := rfl
@[simp] theorem State.modBoot_passAt (s : State) (f : Boot → Boot) (k : Nat) : (s.modBoot f).passAt k = s.passAt k := rfl
@[simp] theorem State.modBoot_plainAt (s : State) (f : Boot → Boot) (k : Nat) : (s.modBoot f).plainAt k = s.plainAt k := rfl
@[simp] theorem State.modBoot_belAt (s : State) (f : Boot → Boot) (k : Nat) : (s.modBoot f).belAt k = s.belAt k := rfl
@[simp] theorem State.modBoot_tgtAt (s : State) (f : Boot → Boot) (k : Nat) : (s.modBoot f).tgtAt k = s.tgtAt k := rfl
@[simp] theorem State.modBoot_pairAt (s : State) (f : Boot → Boot) (k : Nat) : (s.modBoot f).pairAt k = s.pairAt k := rfl
@[simp] theorem State.modBoot_frameAt (s : State) (f : Boot → Boot) (k : Nat) : (s.modBoot f).frameAt k = s.frameAt k := rfl
@[simp] theorem State.modBoot_grpAt (s : State) (f : Boot → Boot) (k : Nat) : (s.modBoot f).grpAt k = s.grpAt k := rfl
@[simp] theorem State.modBoot_vtAt (s : State) (f : Boot → Boot) (k : Nat) : (s.modBoot f).vtAt k = s.vtAt k := rfl
@[simp] theorem State.modBoot_ctxAt (s : State) (f : Boot → Boot) (k : Nat) : (s.modBoot f).ctxAt k = s.ctxAt k := rfl
@[simp] theorem State.modBoot_logAt (s : State) (f : Boot → Boot) (k : Nat) : (s.modBoot f).logAt k = s.logAt k := rfl
@[simp] theorem State.modBoot_linkAt (s : State) (f : Boot → Boot) (k : Nat) : (s.modBoot f).linkAt k = s.linkAt k := rfl
@[simp] theorem State.modBoot_quadAt (s : State) (f : Boot → Boot) (k : Nat) : (s.modBoot f).quadAt k = s.quadAt k := rfl
@[simp] theorem State.modBoot_laneAt (s : State) (f : Boot → Boot) (k : Nat) : (s.modBoot f).laneAt k = s.laneAt k := rfl
@[simp] theorem State.modBoot_mbxAt (s : State) (f : Boot → Boot) (k : Nat) : (s.modBoot f).mbxAt k = s.mbxAt k := rfl
@[simp] theorem State.modBoot_inqAt (s : State) (f : Boot → Boot) (k : Nat) : (s.modBoot f).inqAt k = s.inqAt k := rfl
@[simp] theorem State.modBoot_srcAt (s : State) (f : Boot → Boot) (k : Nat) : (s.modBoot f).srcAt k = s.srcAt k := rfl
@[simp] theorem State.modBoot_bankAt (s : State) (f : Boot → Boot) (k : Nat) : (s.modBoot f).bankAt k = s.bankAt k := rfl
@[simp] theorem State.modBoot_posAt (s : State) (f : Boot → Boot) (k : Nat) : (s.modBoot f).posAt k = s.posAt k := rfl
@[simp] theorem State.modBoot_ridgeAt (s : State) (f : Boot → Boot) (k : Nat) : (s.modBoot f).ridgeAt k = s.ridgeAt k := rfl
@[simp] theorem State.modBoot_ridgeOf (s : State) (f : Boot → Boot) (k : Nat) : (s.modBoot f).ridgeOf k = s.ridgeOf k := rfl
@[simp] theorem State.modBoot_arbAt (s : State) (f : Boot → Boot) (k : Nat) : (s.modBoot f).arbAt k = s.arbAt k := rfl
@[simp] theorem State.modBoot_now48 (s : State) (f : Boot → Boot) : (s.modBoot f).now48 = s.now48 := rfl
@[simp] theorem State.modBoot_now32 (s : State) (f : Boot → Boot) : (s.modBoot f).now32 = s.now32 := rfl

@[simp] theorem State.modRope_pending (s : State) (f : Rope → Rope) : (s.modRope f).pending = s.pending := rfl
@[simp] theorem State.modRope_freeCtr (s : State) (f : Rope → Rope) : (s.modRope f).freeCtr = s.freeCtr := rfl
@[simp] theorem State.modRope_clk (s : State) (f : Rope → Rope) : (s.modRope f).clk = s.clk := rfl
@[simp] theorem State.modRope_straps (s : State) (f : Rope → Rope) : (s.modRope f).straps = s.straps := rfl
@[simp] theorem State.modRope_pwr (s : State) (f : Rope → Rope) : (s.modRope f).pwr = s.pwr := rfl
@[simp] theorem State.modRope_boot (s : State) (f : Rope → Rope) : (s.modRope f).boot = s.boot := rfl
@[simp] theorem State.modRope_rom (s : State) (f : Rope → Rope) : (s.modRope f).rom = s.rom := rfl
@[simp] theorem State.modRope_wired (s : State) (f : Rope → Rope) : (s.modRope f).wired = s.wired := rfl
@[simp] theorem State.modRope_pass (s : State) (f : Rope → Rope) : (s.modRope f).pass = s.pass := rfl
@[simp] theorem State.modRope_door (s : State) (f : Rope → Rope) : (s.modRope f).door = s.door := rfl
@[simp] theorem State.modRope_inq (s : State) (f : Rope → Rope) : (s.modRope f).inq = s.inq := rfl
@[simp] theorem State.modRope_xl (s : State) (f : Rope → Rope) : (s.modRope f).xl = s.xl := rfl
@[simp] theorem State.modRope_plain (s : State) (f : Rope → Rope) : (s.modRope f).plain = s.plain := rfl
@[simp] theorem State.modRope_bel (s : State) (f : Rope → Rope) : (s.modRope f).bel = s.bel := rfl
@[simp] theorem State.modRope_tgt (s : State) (f : Rope → Rope) : (s.modRope f).tgt = s.tgt := rfl
@[simp] theorem State.modRope_pair (s : State) (f : Rope → Rope) : (s.modRope f).pair = s.pair := rfl
@[simp] theorem State.modRope_frame (s : State) (f : Rope → Rope) : (s.modRope f).frame = s.frame := rfl
@[simp] theorem State.modRope_grp (s : State) (f : Rope → Rope) : (s.modRope f).grp = s.grp := rfl
@[simp] theorem State.modRope_vt (s : State) (f : Rope → Rope) : (s.modRope f).vt = s.vt := rfl
@[simp] theorem State.modRope_ctx (s : State) (f : Rope → Rope) : (s.modRope f).ctx = s.ctx := rfl
@[simp] theorem State.modRope_log (s : State) (f : Rope → Rope) : (s.modRope f).log = s.log := rfl
@[simp] theorem State.modRope_logFull (s : State) (f : Rope → Rope) : (s.modRope f).logFull = s.logFull := rfl
@[simp] theorem State.modRope_links (s : State) (f : Rope → Rope) : (s.modRope f).links = s.links := rfl
@[simp] theorem State.modRope_partner (s : State) (f : Rope → Rope) : (s.modRope f).partner = s.partner := rfl
@[simp] theorem State.modRope_quads (s : State) (f : Rope → Rope) : (s.modRope f).quads = s.quads := rfl
@[simp] theorem State.modRope_lanes (s : State) (f : Rope → Rope) : (s.modRope f).lanes = s.lanes := rfl
@[simp] theorem State.modRope_camp (s : State) (f : Rope → Rope) : (s.modRope f).camp = s.camp := rfl
@[simp] theorem State.modRope_mbx (s : State) (f : Rope → Rope) : (s.modRope f).mbx = s.mbx := rfl
@[simp] theorem State.modRope_rat (s : State) (f : Rope → Rope) : (s.modRope f).rat = s.rat := rfl
@[simp] theorem State.modRope_mem (s : State) (f : Rope → Rope) : (s.modRope f).mem = s.mem := rfl
@[simp] theorem State.modRope_arb (s : State) (f : Rope → Rope) : (s.modRope f).arb = s.arb := rfl
@[simp] theorem State.modRope_cairn (s : State) (f : Rope → Rope) : (s.modRope f).cairn = s.cairn := rfl
@[simp] theorem State.modRope_wear (s : State) (f : Rope → Rope) : (s.modRope f).wear = s.wear := rfl
@[simp] theorem State.modRope_acc (s : State) (f : Rope → Rope) : (s.modRope f).acc = s.acc := rfl
@[simp] theorem State.modRope_cp (s : State) (f : Rope → Rope) : (s.modRope f).cp = s.cp := rfl
@[simp] theorem State.modRope_passAt (s : State) (f : Rope → Rope) (k : Nat) : (s.modRope f).passAt k = s.passAt k := rfl
@[simp] theorem State.modRope_plainAt (s : State) (f : Rope → Rope) (k : Nat) : (s.modRope f).plainAt k = s.plainAt k := rfl
@[simp] theorem State.modRope_belAt (s : State) (f : Rope → Rope) (k : Nat) : (s.modRope f).belAt k = s.belAt k := rfl
@[simp] theorem State.modRope_tgtAt (s : State) (f : Rope → Rope) (k : Nat) : (s.modRope f).tgtAt k = s.tgtAt k := rfl
@[simp] theorem State.modRope_pairAt (s : State) (f : Rope → Rope) (k : Nat) : (s.modRope f).pairAt k = s.pairAt k := rfl
@[simp] theorem State.modRope_frameAt (s : State) (f : Rope → Rope) (k : Nat) : (s.modRope f).frameAt k = s.frameAt k := rfl
@[simp] theorem State.modRope_grpAt (s : State) (f : Rope → Rope) (k : Nat) : (s.modRope f).grpAt k = s.grpAt k := rfl
@[simp] theorem State.modRope_vtAt (s : State) (f : Rope → Rope) (k : Nat) : (s.modRope f).vtAt k = s.vtAt k := rfl
@[simp] theorem State.modRope_ctxAt (s : State) (f : Rope → Rope) (k : Nat) : (s.modRope f).ctxAt k = s.ctxAt k := rfl
@[simp] theorem State.modRope_logAt (s : State) (f : Rope → Rope) (k : Nat) : (s.modRope f).logAt k = s.logAt k := rfl
@[simp] theorem State.modRope_linkAt (s : State) (f : Rope → Rope) (k : Nat) : (s.modRope f).linkAt k = s.linkAt k := rfl
@[simp] theorem State.modRope_quadAt (s : State) (f : Rope → Rope) (k : Nat) : (s.modRope f).quadAt k = s.quadAt k := rfl
@[simp] theorem State.modRope_laneAt (s : State) (f : Rope → Rope) (k : Nat) : (s.modRope f).laneAt k = s.laneAt k := rfl
@[simp] theorem State.modRope_mbxAt (s : State) (f : Rope → Rope) (k : Nat) : (s.modRope f).mbxAt k = s.mbxAt k := rfl
@[simp] theorem State.modRope_inqAt (s : State) (f : Rope → Rope) (k : Nat) : (s.modRope f).inqAt k = s.inqAt k := rfl
@[simp] theorem State.modRope_srcAt (s : State) (f : Rope → Rope) (k : Nat) : (s.modRope f).srcAt k = s.srcAt k := rfl
@[simp] theorem State.modRope_bankAt (s : State) (f : Rope → Rope) (k : Nat) : (s.modRope f).bankAt k = s.bankAt k := rfl
@[simp] theorem State.modRope_posAt (s : State) (f : Rope → Rope) (k : Nat) : (s.modRope f).posAt k = s.posAt k := rfl
@[simp] theorem State.modRope_ridgeAt (s : State) (f : Rope → Rope) (k : Nat) : (s.modRope f).ridgeAt k = s.ridgeAt k := rfl
@[simp] theorem State.modRope_ridgeOf (s : State) (f : Rope → Rope) (k : Nat) : (s.modRope f).ridgeOf k = s.ridgeOf k := rfl
@[simp] theorem State.modRope_arbAt (s : State) (f : Rope → Rope) (k : Nat) : (s.modRope f).arbAt k = s.arbAt k := rfl
@[simp] theorem State.modRope_running (s : State) (f : Rope → Rope) : (s.modRope f).running = s.running := rfl
@[simp] theorem State.modRope_linksAlive (s : State) (f : Rope → Rope) : (s.modRope f).linksAlive = s.linksAlive := rfl
@[simp] theorem State.modRope_aon (s : State) (f : Rope → Rope) : (s.modRope f).aon = s.aon := rfl
@[simp] theorem State.modRope_now48 (s : State) (f : Rope → Rope) : (s.modRope f).now48 = s.now48 := rfl
@[simp] theorem State.modRope_now32 (s : State) (f : Rope → Rope) : (s.modRope f).now32 = s.now32 := rfl

@[simp] theorem State.modWired_pending (s : State) (f : Wired → Wired) : (s.modWired f).pending = s.pending := rfl
@[simp] theorem State.modWired_freeCtr (s : State) (f : Wired → Wired) : (s.modWired f).freeCtr = s.freeCtr := rfl
@[simp] theorem State.modWired_clk (s : State) (f : Wired → Wired) : (s.modWired f).clk = s.clk := rfl
@[simp] theorem State.modWired_straps (s : State) (f : Wired → Wired) : (s.modWired f).straps = s.straps := rfl
@[simp] theorem State.modWired_pwr (s : State) (f : Wired → Wired) : (s.modWired f).pwr = s.pwr := rfl
@[simp] theorem State.modWired_boot (s : State) (f : Wired → Wired) : (s.modWired f).boot = s.boot := rfl
@[simp] theorem State.modWired_rom (s : State) (f : Wired → Wired) : (s.modWired f).rom = s.rom := rfl
@[simp] theorem State.modWired_rope (s : State) (f : Wired → Wired) : (s.modWired f).rope = s.rope := rfl
@[simp] theorem State.modWired_pass (s : State) (f : Wired → Wired) : (s.modWired f).pass = s.pass := rfl
@[simp] theorem State.modWired_door (s : State) (f : Wired → Wired) : (s.modWired f).door = s.door := rfl
@[simp] theorem State.modWired_inq (s : State) (f : Wired → Wired) : (s.modWired f).inq = s.inq := rfl
@[simp] theorem State.modWired_xl (s : State) (f : Wired → Wired) : (s.modWired f).xl = s.xl := rfl
@[simp] theorem State.modWired_plain (s : State) (f : Wired → Wired) : (s.modWired f).plain = s.plain := rfl
@[simp] theorem State.modWired_bel (s : State) (f : Wired → Wired) : (s.modWired f).bel = s.bel := rfl
@[simp] theorem State.modWired_tgt (s : State) (f : Wired → Wired) : (s.modWired f).tgt = s.tgt := rfl
@[simp] theorem State.modWired_pair (s : State) (f : Wired → Wired) : (s.modWired f).pair = s.pair := rfl
@[simp] theorem State.modWired_frame (s : State) (f : Wired → Wired) : (s.modWired f).frame = s.frame := rfl
@[simp] theorem State.modWired_grp (s : State) (f : Wired → Wired) : (s.modWired f).grp = s.grp := rfl
@[simp] theorem State.modWired_vt (s : State) (f : Wired → Wired) : (s.modWired f).vt = s.vt := rfl
@[simp] theorem State.modWired_ctx (s : State) (f : Wired → Wired) : (s.modWired f).ctx = s.ctx := rfl
@[simp] theorem State.modWired_log (s : State) (f : Wired → Wired) : (s.modWired f).log = s.log := rfl
@[simp] theorem State.modWired_logFull (s : State) (f : Wired → Wired) : (s.modWired f).logFull = s.logFull := rfl
@[simp] theorem State.modWired_links (s : State) (f : Wired → Wired) : (s.modWired f).links = s.links := rfl
@[simp] theorem State.modWired_partner (s : State) (f : Wired → Wired) : (s.modWired f).partner = s.partner := rfl
@[simp] theorem State.modWired_quads (s : State) (f : Wired → Wired) : (s.modWired f).quads = s.quads := rfl
@[simp] theorem State.modWired_lanes (s : State) (f : Wired → Wired) : (s.modWired f).lanes = s.lanes := rfl
@[simp] theorem State.modWired_camp (s : State) (f : Wired → Wired) : (s.modWired f).camp = s.camp := rfl
@[simp] theorem State.modWired_mbx (s : State) (f : Wired → Wired) : (s.modWired f).mbx = s.mbx := rfl
@[simp] theorem State.modWired_rat (s : State) (f : Wired → Wired) : (s.modWired f).rat = s.rat := rfl
@[simp] theorem State.modWired_mem (s : State) (f : Wired → Wired) : (s.modWired f).mem = s.mem := rfl
@[simp] theorem State.modWired_arb (s : State) (f : Wired → Wired) : (s.modWired f).arb = s.arb := rfl
@[simp] theorem State.modWired_cairn (s : State) (f : Wired → Wired) : (s.modWired f).cairn = s.cairn := rfl
@[simp] theorem State.modWired_wear (s : State) (f : Wired → Wired) : (s.modWired f).wear = s.wear := rfl
@[simp] theorem State.modWired_acc (s : State) (f : Wired → Wired) : (s.modWired f).acc = s.acc := rfl
@[simp] theorem State.modWired_cp (s : State) (f : Wired → Wired) : (s.modWired f).cp = s.cp := rfl
@[simp] theorem State.modWired_passAt (s : State) (f : Wired → Wired) (k : Nat) : (s.modWired f).passAt k = s.passAt k := rfl
@[simp] theorem State.modWired_plainAt (s : State) (f : Wired → Wired) (k : Nat) : (s.modWired f).plainAt k = s.plainAt k := rfl
@[simp] theorem State.modWired_belAt (s : State) (f : Wired → Wired) (k : Nat) : (s.modWired f).belAt k = s.belAt k := rfl
@[simp] theorem State.modWired_tgtAt (s : State) (f : Wired → Wired) (k : Nat) : (s.modWired f).tgtAt k = s.tgtAt k := rfl
@[simp] theorem State.modWired_pairAt (s : State) (f : Wired → Wired) (k : Nat) : (s.modWired f).pairAt k = s.pairAt k := rfl
@[simp] theorem State.modWired_frameAt (s : State) (f : Wired → Wired) (k : Nat) : (s.modWired f).frameAt k = s.frameAt k := rfl
@[simp] theorem State.modWired_grpAt (s : State) (f : Wired → Wired) (k : Nat) : (s.modWired f).grpAt k = s.grpAt k := rfl
@[simp] theorem State.modWired_vtAt (s : State) (f : Wired → Wired) (k : Nat) : (s.modWired f).vtAt k = s.vtAt k := rfl
@[simp] theorem State.modWired_ctxAt (s : State) (f : Wired → Wired) (k : Nat) : (s.modWired f).ctxAt k = s.ctxAt k := rfl
@[simp] theorem State.modWired_logAt (s : State) (f : Wired → Wired) (k : Nat) : (s.modWired f).logAt k = s.logAt k := rfl
@[simp] theorem State.modWired_linkAt (s : State) (f : Wired → Wired) (k : Nat) : (s.modWired f).linkAt k = s.linkAt k := rfl
@[simp] theorem State.modWired_quadAt (s : State) (f : Wired → Wired) (k : Nat) : (s.modWired f).quadAt k = s.quadAt k := rfl
@[simp] theorem State.modWired_laneAt (s : State) (f : Wired → Wired) (k : Nat) : (s.modWired f).laneAt k = s.laneAt k := rfl
@[simp] theorem State.modWired_mbxAt (s : State) (f : Wired → Wired) (k : Nat) : (s.modWired f).mbxAt k = s.mbxAt k := rfl
@[simp] theorem State.modWired_inqAt (s : State) (f : Wired → Wired) (k : Nat) : (s.modWired f).inqAt k = s.inqAt k := rfl
@[simp] theorem State.modWired_posAt (s : State) (f : Wired → Wired) (k : Nat) : (s.modWired f).posAt k = s.posAt k := rfl
@[simp] theorem State.modWired_ridgeAt (s : State) (f : Wired → Wired) (k : Nat) : (s.modWired f).ridgeAt k = s.ridgeAt k := rfl
@[simp] theorem State.modWired_ridgeOf (s : State) (f : Wired → Wired) (k : Nat) : (s.modWired f).ridgeOf k = s.ridgeOf k := rfl
@[simp] theorem State.modWired_arbAt (s : State) (f : Wired → Wired) (k : Nat) : (s.modWired f).arbAt k = s.arbAt k := rfl
@[simp] theorem State.modWired_running (s : State) (f : Wired → Wired) : (s.modWired f).running = s.running := rfl
@[simp] theorem State.modWired_linksAlive (s : State) (f : Wired → Wired) : (s.modWired f).linksAlive = s.linksAlive := rfl
@[simp] theorem State.modWired_aon (s : State) (f : Wired → Wired) : (s.modWired f).aon = s.aon := rfl
@[simp] theorem State.modWired_now48 (s : State) (f : Wired → Wired) : (s.modWired f).now48 = s.now48 := rfl
@[simp] theorem State.modWired_now32 (s : State) (f : Wired → Wired) : (s.modWired f).now32 = s.now32 := rfl

@[simp] theorem State.modDoor_pending (s : State) (f : Door → Door) : (s.modDoor f).pending = s.pending := rfl
@[simp] theorem State.modDoor_freeCtr (s : State) (f : Door → Door) : (s.modDoor f).freeCtr = s.freeCtr := rfl
@[simp] theorem State.modDoor_clk (s : State) (f : Door → Door) : (s.modDoor f).clk = s.clk := rfl
@[simp] theorem State.modDoor_straps (s : State) (f : Door → Door) : (s.modDoor f).straps = s.straps := rfl
@[simp] theorem State.modDoor_pwr (s : State) (f : Door → Door) : (s.modDoor f).pwr = s.pwr := rfl
@[simp] theorem State.modDoor_boot (s : State) (f : Door → Door) : (s.modDoor f).boot = s.boot := rfl
@[simp] theorem State.modDoor_rom (s : State) (f : Door → Door) : (s.modDoor f).rom = s.rom := rfl
@[simp] theorem State.modDoor_rope (s : State) (f : Door → Door) : (s.modDoor f).rope = s.rope := rfl
@[simp] theorem State.modDoor_wired (s : State) (f : Door → Door) : (s.modDoor f).wired = s.wired := rfl
@[simp] theorem State.modDoor_pass (s : State) (f : Door → Door) : (s.modDoor f).pass = s.pass := rfl
@[simp] theorem State.modDoor_inq (s : State) (f : Door → Door) : (s.modDoor f).inq = s.inq := rfl
@[simp] theorem State.modDoor_xl (s : State) (f : Door → Door) : (s.modDoor f).xl = s.xl := rfl
@[simp] theorem State.modDoor_plain (s : State) (f : Door → Door) : (s.modDoor f).plain = s.plain := rfl
@[simp] theorem State.modDoor_bel (s : State) (f : Door → Door) : (s.modDoor f).bel = s.bel := rfl
@[simp] theorem State.modDoor_tgt (s : State) (f : Door → Door) : (s.modDoor f).tgt = s.tgt := rfl
@[simp] theorem State.modDoor_pair (s : State) (f : Door → Door) : (s.modDoor f).pair = s.pair := rfl
@[simp] theorem State.modDoor_frame (s : State) (f : Door → Door) : (s.modDoor f).frame = s.frame := rfl
@[simp] theorem State.modDoor_grp (s : State) (f : Door → Door) : (s.modDoor f).grp = s.grp := rfl
@[simp] theorem State.modDoor_vt (s : State) (f : Door → Door) : (s.modDoor f).vt = s.vt := rfl
@[simp] theorem State.modDoor_ctx (s : State) (f : Door → Door) : (s.modDoor f).ctx = s.ctx := rfl
@[simp] theorem State.modDoor_log (s : State) (f : Door → Door) : (s.modDoor f).log = s.log := rfl
@[simp] theorem State.modDoor_logFull (s : State) (f : Door → Door) : (s.modDoor f).logFull = s.logFull := rfl
@[simp] theorem State.modDoor_links (s : State) (f : Door → Door) : (s.modDoor f).links = s.links := rfl
@[simp] theorem State.modDoor_partner (s : State) (f : Door → Door) : (s.modDoor f).partner = s.partner := rfl
@[simp] theorem State.modDoor_quads (s : State) (f : Door → Door) : (s.modDoor f).quads = s.quads := rfl
@[simp] theorem State.modDoor_lanes (s : State) (f : Door → Door) : (s.modDoor f).lanes = s.lanes := rfl
@[simp] theorem State.modDoor_camp (s : State) (f : Door → Door) : (s.modDoor f).camp = s.camp := rfl
@[simp] theorem State.modDoor_mbx (s : State) (f : Door → Door) : (s.modDoor f).mbx = s.mbx := rfl
@[simp] theorem State.modDoor_rat (s : State) (f : Door → Door) : (s.modDoor f).rat = s.rat := rfl
@[simp] theorem State.modDoor_mem (s : State) (f : Door → Door) : (s.modDoor f).mem = s.mem := rfl
@[simp] theorem State.modDoor_arb (s : State) (f : Door → Door) : (s.modDoor f).arb = s.arb := rfl
@[simp] theorem State.modDoor_cairn (s : State) (f : Door → Door) : (s.modDoor f).cairn = s.cairn := rfl
@[simp] theorem State.modDoor_wear (s : State) (f : Door → Door) : (s.modDoor f).wear = s.wear := rfl
@[simp] theorem State.modDoor_acc (s : State) (f : Door → Door) : (s.modDoor f).acc = s.acc := rfl
@[simp] theorem State.modDoor_cp (s : State) (f : Door → Door) : (s.modDoor f).cp = s.cp := rfl
@[simp] theorem State.modDoor_passAt (s : State) (f : Door → Door) (k : Nat) : (s.modDoor f).passAt k = s.passAt k := rfl
@[simp] theorem State.modDoor_plainAt (s : State) (f : Door → Door) (k : Nat) : (s.modDoor f).plainAt k = s.plainAt k := rfl
@[simp] theorem State.modDoor_belAt (s : State) (f : Door → Door) (k : Nat) : (s.modDoor f).belAt k = s.belAt k := rfl
@[simp] theorem State.modDoor_tgtAt (s : State) (f : Door → Door) (k : Nat) : (s.modDoor f).tgtAt k = s.tgtAt k := rfl
@[simp] theorem State.modDoor_pairAt (s : State) (f : Door → Door) (k : Nat) : (s.modDoor f).pairAt k = s.pairAt k := rfl
@[simp] theorem State.modDoor_frameAt (s : State) (f : Door → Door) (k : Nat) : (s.modDoor f).frameAt k = s.frameAt k := rfl
@[simp] theorem State.modDoor_grpAt (s : State) (f : Door → Door) (k : Nat) : (s.modDoor f).grpAt k = s.grpAt k := rfl
@[simp] theorem State.modDoor_vtAt (s : State) (f : Door → Door) (k : Nat) : (s.modDoor f).vtAt k = s.vtAt k := rfl
@[simp] theorem State.modDoor_ctxAt (s : State) (f : Door → Door) (k : Nat) : (s.modDoor f).ctxAt k = s.ctxAt k := rfl
@[simp] theorem State.modDoor_logAt (s : State) (f : Door → Door) (k : Nat) : (s.modDoor f).logAt k = s.logAt k := rfl
@[simp] theorem State.modDoor_linkAt (s : State) (f : Door → Door) (k : Nat) : (s.modDoor f).linkAt k = s.linkAt k := rfl
@[simp] theorem State.modDoor_quadAt (s : State) (f : Door → Door) (k : Nat) : (s.modDoor f).quadAt k = s.quadAt k := rfl
@[simp] theorem State.modDoor_laneAt (s : State) (f : Door → Door) (k : Nat) : (s.modDoor f).laneAt k = s.laneAt k := rfl
@[simp] theorem State.modDoor_mbxAt (s : State) (f : Door → Door) (k : Nat) : (s.modDoor f).mbxAt k = s.mbxAt k := rfl
@[simp] theorem State.modDoor_inqAt (s : State) (f : Door → Door) (k : Nat) : (s.modDoor f).inqAt k = s.inqAt k := rfl
@[simp] theorem State.modDoor_srcAt (s : State) (f : Door → Door) (k : Nat) : (s.modDoor f).srcAt k = s.srcAt k := rfl
@[simp] theorem State.modDoor_bankAt (s : State) (f : Door → Door) (k : Nat) : (s.modDoor f).bankAt k = s.bankAt k := rfl
@[simp] theorem State.modDoor_posAt (s : State) (f : Door → Door) (k : Nat) : (s.modDoor f).posAt k = s.posAt k := rfl
@[simp] theorem State.modDoor_ridgeAt (s : State) (f : Door → Door) (k : Nat) : (s.modDoor f).ridgeAt k = s.ridgeAt k := rfl
@[simp] theorem State.modDoor_ridgeOf (s : State) (f : Door → Door) (k : Nat) : (s.modDoor f).ridgeOf k = s.ridgeOf k := rfl
@[simp] theorem State.modDoor_arbAt (s : State) (f : Door → Door) (k : Nat) : (s.modDoor f).arbAt k = s.arbAt k := rfl
@[simp] theorem State.modDoor_running (s : State) (f : Door → Door) : (s.modDoor f).running = s.running := rfl
@[simp] theorem State.modDoor_linksAlive (s : State) (f : Door → Door) : (s.modDoor f).linksAlive = s.linksAlive := rfl
@[simp] theorem State.modDoor_aon (s : State) (f : Door → Door) : (s.modDoor f).aon = s.aon := rfl
@[simp] theorem State.modDoor_now48 (s : State) (f : Door → Door) : (s.modDoor f).now48 = s.now48 := rfl
@[simp] theorem State.modDoor_now32 (s : State) (f : Door → Door) : (s.modDoor f).now32 = s.now32 := rfl

@[simp] theorem State.modXl_pending (s : State) (f : Xlat → Xlat) : (s.modXl f).pending = s.pending := rfl
@[simp] theorem State.modXl_freeCtr (s : State) (f : Xlat → Xlat) : (s.modXl f).freeCtr = s.freeCtr := rfl
@[simp] theorem State.modXl_clk (s : State) (f : Xlat → Xlat) : (s.modXl f).clk = s.clk := rfl
@[simp] theorem State.modXl_straps (s : State) (f : Xlat → Xlat) : (s.modXl f).straps = s.straps := rfl
@[simp] theorem State.modXl_pwr (s : State) (f : Xlat → Xlat) : (s.modXl f).pwr = s.pwr := rfl
@[simp] theorem State.modXl_boot (s : State) (f : Xlat → Xlat) : (s.modXl f).boot = s.boot := rfl
@[simp] theorem State.modXl_rom (s : State) (f : Xlat → Xlat) : (s.modXl f).rom = s.rom := rfl
@[simp] theorem State.modXl_rope (s : State) (f : Xlat → Xlat) : (s.modXl f).rope = s.rope := rfl
@[simp] theorem State.modXl_wired (s : State) (f : Xlat → Xlat) : (s.modXl f).wired = s.wired := rfl
@[simp] theorem State.modXl_pass (s : State) (f : Xlat → Xlat) : (s.modXl f).pass = s.pass := rfl
@[simp] theorem State.modXl_door (s : State) (f : Xlat → Xlat) : (s.modXl f).door = s.door := rfl
@[simp] theorem State.modXl_inq (s : State) (f : Xlat → Xlat) : (s.modXl f).inq = s.inq := rfl
@[simp] theorem State.modXl_plain (s : State) (f : Xlat → Xlat) : (s.modXl f).plain = s.plain := rfl
@[simp] theorem State.modXl_bel (s : State) (f : Xlat → Xlat) : (s.modXl f).bel = s.bel := rfl
@[simp] theorem State.modXl_tgt (s : State) (f : Xlat → Xlat) : (s.modXl f).tgt = s.tgt := rfl
@[simp] theorem State.modXl_pair (s : State) (f : Xlat → Xlat) : (s.modXl f).pair = s.pair := rfl
@[simp] theorem State.modXl_frame (s : State) (f : Xlat → Xlat) : (s.modXl f).frame = s.frame := rfl
@[simp] theorem State.modXl_grp (s : State) (f : Xlat → Xlat) : (s.modXl f).grp = s.grp := rfl
@[simp] theorem State.modXl_vt (s : State) (f : Xlat → Xlat) : (s.modXl f).vt = s.vt := rfl
@[simp] theorem State.modXl_ctx (s : State) (f : Xlat → Xlat) : (s.modXl f).ctx = s.ctx := rfl
@[simp] theorem State.modXl_log (s : State) (f : Xlat → Xlat) : (s.modXl f).log = s.log := rfl
@[simp] theorem State.modXl_logFull (s : State) (f : Xlat → Xlat) : (s.modXl f).logFull = s.logFull := rfl
@[simp] theorem State.modXl_links (s : State) (f : Xlat → Xlat) : (s.modXl f).links = s.links := rfl
@[simp] theorem State.modXl_partner (s : State) (f : Xlat → Xlat) : (s.modXl f).partner = s.partner := rfl
@[simp] theorem State.modXl_quads (s : State) (f : Xlat → Xlat) : (s.modXl f).quads = s.quads := rfl
@[simp] theorem State.modXl_lanes (s : State) (f : Xlat → Xlat) : (s.modXl f).lanes = s.lanes := rfl
@[simp] theorem State.modXl_camp (s : State) (f : Xlat → Xlat) : (s.modXl f).camp = s.camp := rfl
@[simp] theorem State.modXl_mbx (s : State) (f : Xlat → Xlat) : (s.modXl f).mbx = s.mbx := rfl
@[simp] theorem State.modXl_rat (s : State) (f : Xlat → Xlat) : (s.modXl f).rat = s.rat := rfl
@[simp] theorem State.modXl_mem (s : State) (f : Xlat → Xlat) : (s.modXl f).mem = s.mem := rfl
@[simp] theorem State.modXl_arb (s : State) (f : Xlat → Xlat) : (s.modXl f).arb = s.arb := rfl
@[simp] theorem State.modXl_cairn (s : State) (f : Xlat → Xlat) : (s.modXl f).cairn = s.cairn := rfl
@[simp] theorem State.modXl_wear (s : State) (f : Xlat → Xlat) : (s.modXl f).wear = s.wear := rfl
@[simp] theorem State.modXl_acc (s : State) (f : Xlat → Xlat) : (s.modXl f).acc = s.acc := rfl
@[simp] theorem State.modXl_cp (s : State) (f : Xlat → Xlat) : (s.modXl f).cp = s.cp := rfl
@[simp] theorem State.modXl_passAt (s : State) (f : Xlat → Xlat) (k : Nat) : (s.modXl f).passAt k = s.passAt k := rfl
@[simp] theorem State.modXl_plainAt (s : State) (f : Xlat → Xlat) (k : Nat) : (s.modXl f).plainAt k = s.plainAt k := rfl
@[simp] theorem State.modXl_belAt (s : State) (f : Xlat → Xlat) (k : Nat) : (s.modXl f).belAt k = s.belAt k := rfl
@[simp] theorem State.modXl_tgtAt (s : State) (f : Xlat → Xlat) (k : Nat) : (s.modXl f).tgtAt k = s.tgtAt k := rfl
@[simp] theorem State.modXl_pairAt (s : State) (f : Xlat → Xlat) (k : Nat) : (s.modXl f).pairAt k = s.pairAt k := rfl
@[simp] theorem State.modXl_frameAt (s : State) (f : Xlat → Xlat) (k : Nat) : (s.modXl f).frameAt k = s.frameAt k := rfl
@[simp] theorem State.modXl_grpAt (s : State) (f : Xlat → Xlat) (k : Nat) : (s.modXl f).grpAt k = s.grpAt k := rfl
@[simp] theorem State.modXl_vtAt (s : State) (f : Xlat → Xlat) (k : Nat) : (s.modXl f).vtAt k = s.vtAt k := rfl
@[simp] theorem State.modXl_ctxAt (s : State) (f : Xlat → Xlat) (k : Nat) : (s.modXl f).ctxAt k = s.ctxAt k := rfl
@[simp] theorem State.modXl_logAt (s : State) (f : Xlat → Xlat) (k : Nat) : (s.modXl f).logAt k = s.logAt k := rfl
@[simp] theorem State.modXl_linkAt (s : State) (f : Xlat → Xlat) (k : Nat) : (s.modXl f).linkAt k = s.linkAt k := rfl
@[simp] theorem State.modXl_quadAt (s : State) (f : Xlat → Xlat) (k : Nat) : (s.modXl f).quadAt k = s.quadAt k := rfl
@[simp] theorem State.modXl_laneAt (s : State) (f : Xlat → Xlat) (k : Nat) : (s.modXl f).laneAt k = s.laneAt k := rfl
@[simp] theorem State.modXl_mbxAt (s : State) (f : Xlat → Xlat) (k : Nat) : (s.modXl f).mbxAt k = s.mbxAt k := rfl
@[simp] theorem State.modXl_inqAt (s : State) (f : Xlat → Xlat) (k : Nat) : (s.modXl f).inqAt k = s.inqAt k := rfl
@[simp] theorem State.modXl_srcAt (s : State) (f : Xlat → Xlat) (k : Nat) : (s.modXl f).srcAt k = s.srcAt k := rfl
@[simp] theorem State.modXl_bankAt (s : State) (f : Xlat → Xlat) (k : Nat) : (s.modXl f).bankAt k = s.bankAt k := rfl
@[simp] theorem State.modXl_arbAt (s : State) (f : Xlat → Xlat) (k : Nat) : (s.modXl f).arbAt k = s.arbAt k := rfl
@[simp] theorem State.modXl_running (s : State) (f : Xlat → Xlat) : (s.modXl f).running = s.running := rfl
@[simp] theorem State.modXl_linksAlive (s : State) (f : Xlat → Xlat) : (s.modXl f).linksAlive = s.linksAlive := rfl
@[simp] theorem State.modXl_aon (s : State) (f : Xlat → Xlat) : (s.modXl f).aon = s.aon := rfl
@[simp] theorem State.modXl_now48 (s : State) (f : Xlat → Xlat) : (s.modXl f).now48 = s.now48 := rfl
@[simp] theorem State.modXl_now32 (s : State) (f : Xlat → Xlat) : (s.modXl f).now32 = s.now32 := rfl

@[simp] theorem State.modPartner_pending (s : State) (f : Partner → Partner) : (s.modPartner f).pending = s.pending := rfl
@[simp] theorem State.modPartner_freeCtr (s : State) (f : Partner → Partner) : (s.modPartner f).freeCtr = s.freeCtr := rfl
@[simp] theorem State.modPartner_clk (s : State) (f : Partner → Partner) : (s.modPartner f).clk = s.clk := rfl
@[simp] theorem State.modPartner_straps (s : State) (f : Partner → Partner) : (s.modPartner f).straps = s.straps := rfl
@[simp] theorem State.modPartner_pwr (s : State) (f : Partner → Partner) : (s.modPartner f).pwr = s.pwr := rfl
@[simp] theorem State.modPartner_boot (s : State) (f : Partner → Partner) : (s.modPartner f).boot = s.boot := rfl
@[simp] theorem State.modPartner_rom (s : State) (f : Partner → Partner) : (s.modPartner f).rom = s.rom := rfl
@[simp] theorem State.modPartner_rope (s : State) (f : Partner → Partner) : (s.modPartner f).rope = s.rope := rfl
@[simp] theorem State.modPartner_wired (s : State) (f : Partner → Partner) : (s.modPartner f).wired = s.wired := rfl
@[simp] theorem State.modPartner_pass (s : State) (f : Partner → Partner) : (s.modPartner f).pass = s.pass := rfl
@[simp] theorem State.modPartner_door (s : State) (f : Partner → Partner) : (s.modPartner f).door = s.door := rfl
@[simp] theorem State.modPartner_inq (s : State) (f : Partner → Partner) : (s.modPartner f).inq = s.inq := rfl
@[simp] theorem State.modPartner_xl (s : State) (f : Partner → Partner) : (s.modPartner f).xl = s.xl := rfl
@[simp] theorem State.modPartner_plain (s : State) (f : Partner → Partner) : (s.modPartner f).plain = s.plain := rfl
@[simp] theorem State.modPartner_bel (s : State) (f : Partner → Partner) : (s.modPartner f).bel = s.bel := rfl
@[simp] theorem State.modPartner_tgt (s : State) (f : Partner → Partner) : (s.modPartner f).tgt = s.tgt := rfl
@[simp] theorem State.modPartner_pair (s : State) (f : Partner → Partner) : (s.modPartner f).pair = s.pair := rfl
@[simp] theorem State.modPartner_frame (s : State) (f : Partner → Partner) : (s.modPartner f).frame = s.frame := rfl
@[simp] theorem State.modPartner_grp (s : State) (f : Partner → Partner) : (s.modPartner f).grp = s.grp := rfl
@[simp] theorem State.modPartner_vt (s : State) (f : Partner → Partner) : (s.modPartner f).vt = s.vt := rfl
@[simp] theorem State.modPartner_ctx (s : State) (f : Partner → Partner) : (s.modPartner f).ctx = s.ctx := rfl
@[simp] theorem State.modPartner_log (s : State) (f : Partner → Partner) : (s.modPartner f).log = s.log := rfl
@[simp] theorem State.modPartner_logFull (s : State) (f : Partner → Partner) : (s.modPartner f).logFull = s.logFull := rfl
@[simp] theorem State.modPartner_links (s : State) (f : Partner → Partner) : (s.modPartner f).links = s.links := rfl
@[simp] theorem State.modPartner_quads (s : State) (f : Partner → Partner) : (s.modPartner f).quads = s.quads := rfl
@[simp] theorem State.modPartner_lanes (s : State) (f : Partner → Partner) : (s.modPartner f).lanes = s.lanes := rfl
@[simp] theorem State.modPartner_camp (s : State) (f : Partner → Partner) : (s.modPartner f).camp = s.camp := rfl
@[simp] theorem State.modPartner_mbx (s : State) (f : Partner → Partner) : (s.modPartner f).mbx = s.mbx := rfl
@[simp] theorem State.modPartner_rat (s : State) (f : Partner → Partner) : (s.modPartner f).rat = s.rat := rfl
@[simp] theorem State.modPartner_mem (s : State) (f : Partner → Partner) : (s.modPartner f).mem = s.mem := rfl
@[simp] theorem State.modPartner_arb (s : State) (f : Partner → Partner) : (s.modPartner f).arb = s.arb := rfl
@[simp] theorem State.modPartner_cairn (s : State) (f : Partner → Partner) : (s.modPartner f).cairn = s.cairn := rfl
@[simp] theorem State.modPartner_wear (s : State) (f : Partner → Partner) : (s.modPartner f).wear = s.wear := rfl
@[simp] theorem State.modPartner_acc (s : State) (f : Partner → Partner) : (s.modPartner f).acc = s.acc := rfl
@[simp] theorem State.modPartner_cp (s : State) (f : Partner → Partner) : (s.modPartner f).cp = s.cp := rfl
@[simp] theorem State.modPartner_passAt (s : State) (f : Partner → Partner) (k : Nat) : (s.modPartner f).passAt k = s.passAt k := rfl
@[simp] theorem State.modPartner_plainAt (s : State) (f : Partner → Partner) (k : Nat) : (s.modPartner f).plainAt k = s.plainAt k := rfl
@[simp] theorem State.modPartner_belAt (s : State) (f : Partner → Partner) (k : Nat) : (s.modPartner f).belAt k = s.belAt k := rfl
@[simp] theorem State.modPartner_tgtAt (s : State) (f : Partner → Partner) (k : Nat) : (s.modPartner f).tgtAt k = s.tgtAt k := rfl
@[simp] theorem State.modPartner_pairAt (s : State) (f : Partner → Partner) (k : Nat) : (s.modPartner f).pairAt k = s.pairAt k := rfl
@[simp] theorem State.modPartner_frameAt (s : State) (f : Partner → Partner) (k : Nat) : (s.modPartner f).frameAt k = s.frameAt k := rfl
@[simp] theorem State.modPartner_grpAt (s : State) (f : Partner → Partner) (k : Nat) : (s.modPartner f).grpAt k = s.grpAt k := rfl
@[simp] theorem State.modPartner_vtAt (s : State) (f : Partner → Partner) (k : Nat) : (s.modPartner f).vtAt k = s.vtAt k := rfl
@[simp] theorem State.modPartner_ctxAt (s : State) (f : Partner → Partner) (k : Nat) : (s.modPartner f).ctxAt k = s.ctxAt k := rfl
@[simp] theorem State.modPartner_logAt (s : State) (f : Partner → Partner) (k : Nat) : (s.modPartner f).logAt k = s.logAt k := rfl
@[simp] theorem State.modPartner_linkAt (s : State) (f : Partner → Partner) (k : Nat) : (s.modPartner f).linkAt k = s.linkAt k := rfl
@[simp] theorem State.modPartner_quadAt (s : State) (f : Partner → Partner) (k : Nat) : (s.modPartner f).quadAt k = s.quadAt k := rfl
@[simp] theorem State.modPartner_laneAt (s : State) (f : Partner → Partner) (k : Nat) : (s.modPartner f).laneAt k = s.laneAt k := rfl
@[simp] theorem State.modPartner_mbxAt (s : State) (f : Partner → Partner) (k : Nat) : (s.modPartner f).mbxAt k = s.mbxAt k := rfl
@[simp] theorem State.modPartner_inqAt (s : State) (f : Partner → Partner) (k : Nat) : (s.modPartner f).inqAt k = s.inqAt k := rfl
@[simp] theorem State.modPartner_srcAt (s : State) (f : Partner → Partner) (k : Nat) : (s.modPartner f).srcAt k = s.srcAt k := rfl
@[simp] theorem State.modPartner_bankAt (s : State) (f : Partner → Partner) (k : Nat) : (s.modPartner f).bankAt k = s.bankAt k := rfl
@[simp] theorem State.modPartner_posAt (s : State) (f : Partner → Partner) (k : Nat) : (s.modPartner f).posAt k = s.posAt k := rfl
@[simp] theorem State.modPartner_ridgeAt (s : State) (f : Partner → Partner) (k : Nat) : (s.modPartner f).ridgeAt k = s.ridgeAt k := rfl
@[simp] theorem State.modPartner_ridgeOf (s : State) (f : Partner → Partner) (k : Nat) : (s.modPartner f).ridgeOf k = s.ridgeOf k := rfl
@[simp] theorem State.modPartner_arbAt (s : State) (f : Partner → Partner) (k : Nat) : (s.modPartner f).arbAt k = s.arbAt k := rfl
@[simp] theorem State.modPartner_running (s : State) (f : Partner → Partner) : (s.modPartner f).running = s.running := rfl
@[simp] theorem State.modPartner_linksAlive (s : State) (f : Partner → Partner) : (s.modPartner f).linksAlive = s.linksAlive := rfl
@[simp] theorem State.modPartner_aon (s : State) (f : Partner → Partner) : (s.modPartner f).aon = s.aon := rfl
@[simp] theorem State.modPartner_now48 (s : State) (f : Partner → Partner) : (s.modPartner f).now48 = s.now48 := rfl
@[simp] theorem State.modPartner_now32 (s : State) (f : Partner → Partner) : (s.modPartner f).now32 = s.now32 := rfl

@[simp] theorem State.modCamp_pending (s : State) (f : Camp → Camp) : (s.modCamp f).pending = s.pending := rfl
@[simp] theorem State.modCamp_freeCtr (s : State) (f : Camp → Camp) : (s.modCamp f).freeCtr = s.freeCtr := rfl
@[simp] theorem State.modCamp_clk (s : State) (f : Camp → Camp) : (s.modCamp f).clk = s.clk := rfl
@[simp] theorem State.modCamp_straps (s : State) (f : Camp → Camp) : (s.modCamp f).straps = s.straps := rfl
@[simp] theorem State.modCamp_pwr (s : State) (f : Camp → Camp) : (s.modCamp f).pwr = s.pwr := rfl
@[simp] theorem State.modCamp_boot (s : State) (f : Camp → Camp) : (s.modCamp f).boot = s.boot := rfl
@[simp] theorem State.modCamp_rom (s : State) (f : Camp → Camp) : (s.modCamp f).rom = s.rom := rfl
@[simp] theorem State.modCamp_rope (s : State) (f : Camp → Camp) : (s.modCamp f).rope = s.rope := rfl
@[simp] theorem State.modCamp_wired (s : State) (f : Camp → Camp) : (s.modCamp f).wired = s.wired := rfl
@[simp] theorem State.modCamp_pass (s : State) (f : Camp → Camp) : (s.modCamp f).pass = s.pass := rfl
@[simp] theorem State.modCamp_door (s : State) (f : Camp → Camp) : (s.modCamp f).door = s.door := rfl
@[simp] theorem State.modCamp_inq (s : State) (f : Camp → Camp) : (s.modCamp f).inq = s.inq := rfl
@[simp] theorem State.modCamp_xl (s : State) (f : Camp → Camp) : (s.modCamp f).xl = s.xl := rfl
@[simp] theorem State.modCamp_plain (s : State) (f : Camp → Camp) : (s.modCamp f).plain = s.plain := rfl
@[simp] theorem State.modCamp_bel (s : State) (f : Camp → Camp) : (s.modCamp f).bel = s.bel := rfl
@[simp] theorem State.modCamp_tgt (s : State) (f : Camp → Camp) : (s.modCamp f).tgt = s.tgt := rfl
@[simp] theorem State.modCamp_pair (s : State) (f : Camp → Camp) : (s.modCamp f).pair = s.pair := rfl
@[simp] theorem State.modCamp_frame (s : State) (f : Camp → Camp) : (s.modCamp f).frame = s.frame := rfl
@[simp] theorem State.modCamp_grp (s : State) (f : Camp → Camp) : (s.modCamp f).grp = s.grp := rfl
@[simp] theorem State.modCamp_vt (s : State) (f : Camp → Camp) : (s.modCamp f).vt = s.vt := rfl
@[simp] theorem State.modCamp_ctx (s : State) (f : Camp → Camp) : (s.modCamp f).ctx = s.ctx := rfl
@[simp] theorem State.modCamp_log (s : State) (f : Camp → Camp) : (s.modCamp f).log = s.log := rfl
@[simp] theorem State.modCamp_logFull (s : State) (f : Camp → Camp) : (s.modCamp f).logFull = s.logFull := rfl
@[simp] theorem State.modCamp_links (s : State) (f : Camp → Camp) : (s.modCamp f).links = s.links := rfl
@[simp] theorem State.modCamp_partner (s : State) (f : Camp → Camp) : (s.modCamp f).partner = s.partner := rfl
@[simp] theorem State.modCamp_quads (s : State) (f : Camp → Camp) : (s.modCamp f).quads = s.quads := rfl
@[simp] theorem State.modCamp_lanes (s : State) (f : Camp → Camp) : (s.modCamp f).lanes = s.lanes := rfl
@[simp] theorem State.modCamp_mbx (s : State) (f : Camp → Camp) : (s.modCamp f).mbx = s.mbx := rfl
@[simp] theorem State.modCamp_rat (s : State) (f : Camp → Camp) : (s.modCamp f).rat = s.rat := rfl
@[simp] theorem State.modCamp_mem (s : State) (f : Camp → Camp) : (s.modCamp f).mem = s.mem := rfl
@[simp] theorem State.modCamp_arb (s : State) (f : Camp → Camp) : (s.modCamp f).arb = s.arb := rfl
@[simp] theorem State.modCamp_cairn (s : State) (f : Camp → Camp) : (s.modCamp f).cairn = s.cairn := rfl
@[simp] theorem State.modCamp_wear (s : State) (f : Camp → Camp) : (s.modCamp f).wear = s.wear := rfl
@[simp] theorem State.modCamp_acc (s : State) (f : Camp → Camp) : (s.modCamp f).acc = s.acc := rfl
@[simp] theorem State.modCamp_cp (s : State) (f : Camp → Camp) : (s.modCamp f).cp = s.cp := rfl
@[simp] theorem State.modCamp_passAt (s : State) (f : Camp → Camp) (k : Nat) : (s.modCamp f).passAt k = s.passAt k := rfl
@[simp] theorem State.modCamp_plainAt (s : State) (f : Camp → Camp) (k : Nat) : (s.modCamp f).plainAt k = s.plainAt k := rfl
@[simp] theorem State.modCamp_belAt (s : State) (f : Camp → Camp) (k : Nat) : (s.modCamp f).belAt k = s.belAt k := rfl
@[simp] theorem State.modCamp_tgtAt (s : State) (f : Camp → Camp) (k : Nat) : (s.modCamp f).tgtAt k = s.tgtAt k := rfl
@[simp] theorem State.modCamp_pairAt (s : State) (f : Camp → Camp) (k : Nat) : (s.modCamp f).pairAt k = s.pairAt k := rfl
@[simp] theorem State.modCamp_frameAt (s : State) (f : Camp → Camp) (k : Nat) : (s.modCamp f).frameAt k = s.frameAt k := rfl
@[simp] theorem State.modCamp_grpAt (s : State) (f : Camp → Camp) (k : Nat) : (s.modCamp f).grpAt k = s.grpAt k := rfl
@[simp] theorem State.modCamp_vtAt (s : State) (f : Camp → Camp) (k : Nat) : (s.modCamp f).vtAt k = s.vtAt k := rfl
@[simp] theorem State.modCamp_ctxAt (s : State) (f : Camp → Camp) (k : Nat) : (s.modCamp f).ctxAt k = s.ctxAt k := rfl
@[simp] theorem State.modCamp_logAt (s : State) (f : Camp → Camp) (k : Nat) : (s.modCamp f).logAt k = s.logAt k := rfl
@[simp] theorem State.modCamp_linkAt (s : State) (f : Camp → Camp) (k : Nat) : (s.modCamp f).linkAt k = s.linkAt k := rfl
@[simp] theorem State.modCamp_quadAt (s : State) (f : Camp → Camp) (k : Nat) : (s.modCamp f).quadAt k = s.quadAt k := rfl
@[simp] theorem State.modCamp_laneAt (s : State) (f : Camp → Camp) (k : Nat) : (s.modCamp f).laneAt k = s.laneAt k := rfl
@[simp] theorem State.modCamp_mbxAt (s : State) (f : Camp → Camp) (k : Nat) : (s.modCamp f).mbxAt k = s.mbxAt k := rfl
@[simp] theorem State.modCamp_inqAt (s : State) (f : Camp → Camp) (k : Nat) : (s.modCamp f).inqAt k = s.inqAt k := rfl
@[simp] theorem State.modCamp_srcAt (s : State) (f : Camp → Camp) (k : Nat) : (s.modCamp f).srcAt k = s.srcAt k := rfl
@[simp] theorem State.modCamp_bankAt (s : State) (f : Camp → Camp) (k : Nat) : (s.modCamp f).bankAt k = s.bankAt k := rfl
@[simp] theorem State.modCamp_posAt (s : State) (f : Camp → Camp) (k : Nat) : (s.modCamp f).posAt k = s.posAt k := rfl
@[simp] theorem State.modCamp_ridgeAt (s : State) (f : Camp → Camp) (k : Nat) : (s.modCamp f).ridgeAt k = s.ridgeAt k := rfl
@[simp] theorem State.modCamp_ridgeOf (s : State) (f : Camp → Camp) (k : Nat) : (s.modCamp f).ridgeOf k = s.ridgeOf k := rfl
@[simp] theorem State.modCamp_arbAt (s : State) (f : Camp → Camp) (k : Nat) : (s.modCamp f).arbAt k = s.arbAt k := rfl
@[simp] theorem State.modCamp_running (s : State) (f : Camp → Camp) : (s.modCamp f).running = s.running := rfl
@[simp] theorem State.modCamp_linksAlive (s : State) (f : Camp → Camp) : (s.modCamp f).linksAlive = s.linksAlive := rfl
@[simp] theorem State.modCamp_aon (s : State) (f : Camp → Camp) : (s.modCamp f).aon = s.aon := rfl
@[simp] theorem State.modCamp_now48 (s : State) (f : Camp → Camp) : (s.modCamp f).now48 = s.now48 := rfl
@[simp] theorem State.modCamp_now32 (s : State) (f : Camp → Camp) : (s.modCamp f).now32 = s.now32 := rfl

@[simp] theorem State.modRat_pending (s : State) (f : Rations → Rations) : (s.modRat f).pending = s.pending := rfl
@[simp] theorem State.modRat_freeCtr (s : State) (f : Rations → Rations) : (s.modRat f).freeCtr = s.freeCtr := rfl
@[simp] theorem State.modRat_clk (s : State) (f : Rations → Rations) : (s.modRat f).clk = s.clk := rfl
@[simp] theorem State.modRat_straps (s : State) (f : Rations → Rations) : (s.modRat f).straps = s.straps := rfl
@[simp] theorem State.modRat_pwr (s : State) (f : Rations → Rations) : (s.modRat f).pwr = s.pwr := rfl
@[simp] theorem State.modRat_boot (s : State) (f : Rations → Rations) : (s.modRat f).boot = s.boot := rfl
@[simp] theorem State.modRat_rom (s : State) (f : Rations → Rations) : (s.modRat f).rom = s.rom := rfl
@[simp] theorem State.modRat_rope (s : State) (f : Rations → Rations) : (s.modRat f).rope = s.rope := rfl
@[simp] theorem State.modRat_wired (s : State) (f : Rations → Rations) : (s.modRat f).wired = s.wired := rfl
@[simp] theorem State.modRat_pass (s : State) (f : Rations → Rations) : (s.modRat f).pass = s.pass := rfl
@[simp] theorem State.modRat_door (s : State) (f : Rations → Rations) : (s.modRat f).door = s.door := rfl
@[simp] theorem State.modRat_inq (s : State) (f : Rations → Rations) : (s.modRat f).inq = s.inq := rfl
@[simp] theorem State.modRat_xl (s : State) (f : Rations → Rations) : (s.modRat f).xl = s.xl := rfl
@[simp] theorem State.modRat_plain (s : State) (f : Rations → Rations) : (s.modRat f).plain = s.plain := rfl
@[simp] theorem State.modRat_bel (s : State) (f : Rations → Rations) : (s.modRat f).bel = s.bel := rfl
@[simp] theorem State.modRat_tgt (s : State) (f : Rations → Rations) : (s.modRat f).tgt = s.tgt := rfl
@[simp] theorem State.modRat_pair (s : State) (f : Rations → Rations) : (s.modRat f).pair = s.pair := rfl
@[simp] theorem State.modRat_frame (s : State) (f : Rations → Rations) : (s.modRat f).frame = s.frame := rfl
@[simp] theorem State.modRat_grp (s : State) (f : Rations → Rations) : (s.modRat f).grp = s.grp := rfl
@[simp] theorem State.modRat_vt (s : State) (f : Rations → Rations) : (s.modRat f).vt = s.vt := rfl
@[simp] theorem State.modRat_ctx (s : State) (f : Rations → Rations) : (s.modRat f).ctx = s.ctx := rfl
@[simp] theorem State.modRat_log (s : State) (f : Rations → Rations) : (s.modRat f).log = s.log := rfl
@[simp] theorem State.modRat_logFull (s : State) (f : Rations → Rations) : (s.modRat f).logFull = s.logFull := rfl
@[simp] theorem State.modRat_links (s : State) (f : Rations → Rations) : (s.modRat f).links = s.links := rfl
@[simp] theorem State.modRat_partner (s : State) (f : Rations → Rations) : (s.modRat f).partner = s.partner := rfl
@[simp] theorem State.modRat_quads (s : State) (f : Rations → Rations) : (s.modRat f).quads = s.quads := rfl
@[simp] theorem State.modRat_lanes (s : State) (f : Rations → Rations) : (s.modRat f).lanes = s.lanes := rfl
@[simp] theorem State.modRat_camp (s : State) (f : Rations → Rations) : (s.modRat f).camp = s.camp := rfl
@[simp] theorem State.modRat_mbx (s : State) (f : Rations → Rations) : (s.modRat f).mbx = s.mbx := rfl
@[simp] theorem State.modRat_mem (s : State) (f : Rations → Rations) : (s.modRat f).mem = s.mem := rfl
@[simp] theorem State.modRat_arb (s : State) (f : Rations → Rations) : (s.modRat f).arb = s.arb := rfl
@[simp] theorem State.modRat_cairn (s : State) (f : Rations → Rations) : (s.modRat f).cairn = s.cairn := rfl
@[simp] theorem State.modRat_wear (s : State) (f : Rations → Rations) : (s.modRat f).wear = s.wear := rfl
@[simp] theorem State.modRat_acc (s : State) (f : Rations → Rations) : (s.modRat f).acc = s.acc := rfl
@[simp] theorem State.modRat_cp (s : State) (f : Rations → Rations) : (s.modRat f).cp = s.cp := rfl
@[simp] theorem State.modRat_passAt (s : State) (f : Rations → Rations) (k : Nat) : (s.modRat f).passAt k = s.passAt k := rfl
@[simp] theorem State.modRat_plainAt (s : State) (f : Rations → Rations) (k : Nat) : (s.modRat f).plainAt k = s.plainAt k := rfl
@[simp] theorem State.modRat_belAt (s : State) (f : Rations → Rations) (k : Nat) : (s.modRat f).belAt k = s.belAt k := rfl
@[simp] theorem State.modRat_tgtAt (s : State) (f : Rations → Rations) (k : Nat) : (s.modRat f).tgtAt k = s.tgtAt k := rfl
@[simp] theorem State.modRat_pairAt (s : State) (f : Rations → Rations) (k : Nat) : (s.modRat f).pairAt k = s.pairAt k := rfl
@[simp] theorem State.modRat_frameAt (s : State) (f : Rations → Rations) (k : Nat) : (s.modRat f).frameAt k = s.frameAt k := rfl
@[simp] theorem State.modRat_grpAt (s : State) (f : Rations → Rations) (k : Nat) : (s.modRat f).grpAt k = s.grpAt k := rfl
@[simp] theorem State.modRat_vtAt (s : State) (f : Rations → Rations) (k : Nat) : (s.modRat f).vtAt k = s.vtAt k := rfl
@[simp] theorem State.modRat_ctxAt (s : State) (f : Rations → Rations) (k : Nat) : (s.modRat f).ctxAt k = s.ctxAt k := rfl
@[simp] theorem State.modRat_logAt (s : State) (f : Rations → Rations) (k : Nat) : (s.modRat f).logAt k = s.logAt k := rfl
@[simp] theorem State.modRat_linkAt (s : State) (f : Rations → Rations) (k : Nat) : (s.modRat f).linkAt k = s.linkAt k := rfl
@[simp] theorem State.modRat_quadAt (s : State) (f : Rations → Rations) (k : Nat) : (s.modRat f).quadAt k = s.quadAt k := rfl
@[simp] theorem State.modRat_laneAt (s : State) (f : Rations → Rations) (k : Nat) : (s.modRat f).laneAt k = s.laneAt k := rfl
@[simp] theorem State.modRat_mbxAt (s : State) (f : Rations → Rations) (k : Nat) : (s.modRat f).mbxAt k = s.mbxAt k := rfl
@[simp] theorem State.modRat_inqAt (s : State) (f : Rations → Rations) (k : Nat) : (s.modRat f).inqAt k = s.inqAt k := rfl
@[simp] theorem State.modRat_srcAt (s : State) (f : Rations → Rations) (k : Nat) : (s.modRat f).srcAt k = s.srcAt k := rfl
@[simp] theorem State.modRat_bankAt (s : State) (f : Rations → Rations) (k : Nat) : (s.modRat f).bankAt k = s.bankAt k := rfl
@[simp] theorem State.modRat_posAt (s : State) (f : Rations → Rations) (k : Nat) : (s.modRat f).posAt k = s.posAt k := rfl
@[simp] theorem State.modRat_ridgeAt (s : State) (f : Rations → Rations) (k : Nat) : (s.modRat f).ridgeAt k = s.ridgeAt k := rfl
@[simp] theorem State.modRat_ridgeOf (s : State) (f : Rations → Rations) (k : Nat) : (s.modRat f).ridgeOf k = s.ridgeOf k := rfl
@[simp] theorem State.modRat_arbAt (s : State) (f : Rations → Rations) (k : Nat) : (s.modRat f).arbAt k = s.arbAt k := rfl
@[simp] theorem State.modRat_running (s : State) (f : Rations → Rations) : (s.modRat f).running = s.running := rfl
@[simp] theorem State.modRat_linksAlive (s : State) (f : Rations → Rations) : (s.modRat f).linksAlive = s.linksAlive := rfl
@[simp] theorem State.modRat_aon (s : State) (f : Rations → Rations) : (s.modRat f).aon = s.aon := rfl
@[simp] theorem State.modRat_now48 (s : State) (f : Rations → Rations) : (s.modRat f).now48 = s.now48 := rfl
@[simp] theorem State.modRat_now32 (s : State) (f : Rations → Rations) : (s.modRat f).now32 = s.now32 := rfl

@[simp] theorem State.modMem_pending (s : State) (f : Mem → Mem) : (s.modMem f).pending = s.pending := rfl
@[simp] theorem State.modMem_freeCtr (s : State) (f : Mem → Mem) : (s.modMem f).freeCtr = s.freeCtr := rfl
@[simp] theorem State.modMem_clk (s : State) (f : Mem → Mem) : (s.modMem f).clk = s.clk := rfl
@[simp] theorem State.modMem_straps (s : State) (f : Mem → Mem) : (s.modMem f).straps = s.straps := rfl
@[simp] theorem State.modMem_pwr (s : State) (f : Mem → Mem) : (s.modMem f).pwr = s.pwr := rfl
@[simp] theorem State.modMem_boot (s : State) (f : Mem → Mem) : (s.modMem f).boot = s.boot := rfl
@[simp] theorem State.modMem_rom (s : State) (f : Mem → Mem) : (s.modMem f).rom = s.rom := rfl
@[simp] theorem State.modMem_rope (s : State) (f : Mem → Mem) : (s.modMem f).rope = s.rope := rfl
@[simp] theorem State.modMem_wired (s : State) (f : Mem → Mem) : (s.modMem f).wired = s.wired := rfl
@[simp] theorem State.modMem_pass (s : State) (f : Mem → Mem) : (s.modMem f).pass = s.pass := rfl
@[simp] theorem State.modMem_door (s : State) (f : Mem → Mem) : (s.modMem f).door = s.door := rfl
@[simp] theorem State.modMem_inq (s : State) (f : Mem → Mem) : (s.modMem f).inq = s.inq := rfl
@[simp] theorem State.modMem_xl (s : State) (f : Mem → Mem) : (s.modMem f).xl = s.xl := rfl
@[simp] theorem State.modMem_plain (s : State) (f : Mem → Mem) : (s.modMem f).plain = s.plain := rfl
@[simp] theorem State.modMem_bel (s : State) (f : Mem → Mem) : (s.modMem f).bel = s.bel := rfl
@[simp] theorem State.modMem_tgt (s : State) (f : Mem → Mem) : (s.modMem f).tgt = s.tgt := rfl
@[simp] theorem State.modMem_pair (s : State) (f : Mem → Mem) : (s.modMem f).pair = s.pair := rfl
@[simp] theorem State.modMem_frame (s : State) (f : Mem → Mem) : (s.modMem f).frame = s.frame := rfl
@[simp] theorem State.modMem_grp (s : State) (f : Mem → Mem) : (s.modMem f).grp = s.grp := rfl
@[simp] theorem State.modMem_vt (s : State) (f : Mem → Mem) : (s.modMem f).vt = s.vt := rfl
@[simp] theorem State.modMem_ctx (s : State) (f : Mem → Mem) : (s.modMem f).ctx = s.ctx := rfl
@[simp] theorem State.modMem_log (s : State) (f : Mem → Mem) : (s.modMem f).log = s.log := rfl
@[simp] theorem State.modMem_logFull (s : State) (f : Mem → Mem) : (s.modMem f).logFull = s.logFull := rfl
@[simp] theorem State.modMem_links (s : State) (f : Mem → Mem) : (s.modMem f).links = s.links := rfl
@[simp] theorem State.modMem_partner (s : State) (f : Mem → Mem) : (s.modMem f).partner = s.partner := rfl
@[simp] theorem State.modMem_quads (s : State) (f : Mem → Mem) : (s.modMem f).quads = s.quads := rfl
@[simp] theorem State.modMem_lanes (s : State) (f : Mem → Mem) : (s.modMem f).lanes = s.lanes := rfl
@[simp] theorem State.modMem_camp (s : State) (f : Mem → Mem) : (s.modMem f).camp = s.camp := rfl
@[simp] theorem State.modMem_mbx (s : State) (f : Mem → Mem) : (s.modMem f).mbx = s.mbx := rfl
@[simp] theorem State.modMem_rat (s : State) (f : Mem → Mem) : (s.modMem f).rat = s.rat := rfl
@[simp] theorem State.modMem_arb (s : State) (f : Mem → Mem) : (s.modMem f).arb = s.arb := rfl
@[simp] theorem State.modMem_cairn (s : State) (f : Mem → Mem) : (s.modMem f).cairn = s.cairn := rfl
@[simp] theorem State.modMem_wear (s : State) (f : Mem → Mem) : (s.modMem f).wear = s.wear := rfl
@[simp] theorem State.modMem_acc (s : State) (f : Mem → Mem) : (s.modMem f).acc = s.acc := rfl
@[simp] theorem State.modMem_cp (s : State) (f : Mem → Mem) : (s.modMem f).cp = s.cp := rfl
@[simp] theorem State.modMem_passAt (s : State) (f : Mem → Mem) (k : Nat) : (s.modMem f).passAt k = s.passAt k := rfl
@[simp] theorem State.modMem_plainAt (s : State) (f : Mem → Mem) (k : Nat) : (s.modMem f).plainAt k = s.plainAt k := rfl
@[simp] theorem State.modMem_belAt (s : State) (f : Mem → Mem) (k : Nat) : (s.modMem f).belAt k = s.belAt k := rfl
@[simp] theorem State.modMem_tgtAt (s : State) (f : Mem → Mem) (k : Nat) : (s.modMem f).tgtAt k = s.tgtAt k := rfl
@[simp] theorem State.modMem_pairAt (s : State) (f : Mem → Mem) (k : Nat) : (s.modMem f).pairAt k = s.pairAt k := rfl
@[simp] theorem State.modMem_frameAt (s : State) (f : Mem → Mem) (k : Nat) : (s.modMem f).frameAt k = s.frameAt k := rfl
@[simp] theorem State.modMem_grpAt (s : State) (f : Mem → Mem) (k : Nat) : (s.modMem f).grpAt k = s.grpAt k := rfl
@[simp] theorem State.modMem_vtAt (s : State) (f : Mem → Mem) (k : Nat) : (s.modMem f).vtAt k = s.vtAt k := rfl
@[simp] theorem State.modMem_ctxAt (s : State) (f : Mem → Mem) (k : Nat) : (s.modMem f).ctxAt k = s.ctxAt k := rfl
@[simp] theorem State.modMem_logAt (s : State) (f : Mem → Mem) (k : Nat) : (s.modMem f).logAt k = s.logAt k := rfl
@[simp] theorem State.modMem_linkAt (s : State) (f : Mem → Mem) (k : Nat) : (s.modMem f).linkAt k = s.linkAt k := rfl
@[simp] theorem State.modMem_quadAt (s : State) (f : Mem → Mem) (k : Nat) : (s.modMem f).quadAt k = s.quadAt k := rfl
@[simp] theorem State.modMem_laneAt (s : State) (f : Mem → Mem) (k : Nat) : (s.modMem f).laneAt k = s.laneAt k := rfl
@[simp] theorem State.modMem_mbxAt (s : State) (f : Mem → Mem) (k : Nat) : (s.modMem f).mbxAt k = s.mbxAt k := rfl
@[simp] theorem State.modMem_inqAt (s : State) (f : Mem → Mem) (k : Nat) : (s.modMem f).inqAt k = s.inqAt k := rfl
@[simp] theorem State.modMem_srcAt (s : State) (f : Mem → Mem) (k : Nat) : (s.modMem f).srcAt k = s.srcAt k := rfl
@[simp] theorem State.modMem_bankAt (s : State) (f : Mem → Mem) (k : Nat) : (s.modMem f).bankAt k = s.bankAt k := rfl
@[simp] theorem State.modMem_posAt (s : State) (f : Mem → Mem) (k : Nat) : (s.modMem f).posAt k = s.posAt k := rfl
@[simp] theorem State.modMem_ridgeAt (s : State) (f : Mem → Mem) (k : Nat) : (s.modMem f).ridgeAt k = s.ridgeAt k := rfl
@[simp] theorem State.modMem_ridgeOf (s : State) (f : Mem → Mem) (k : Nat) : (s.modMem f).ridgeOf k = s.ridgeOf k := rfl
@[simp] theorem State.modMem_arbAt (s : State) (f : Mem → Mem) (k : Nat) : (s.modMem f).arbAt k = s.arbAt k := rfl
@[simp] theorem State.modMem_running (s : State) (f : Mem → Mem) : (s.modMem f).running = s.running := rfl
@[simp] theorem State.modMem_linksAlive (s : State) (f : Mem → Mem) : (s.modMem f).linksAlive = s.linksAlive := rfl
@[simp] theorem State.modMem_aon (s : State) (f : Mem → Mem) : (s.modMem f).aon = s.aon := rfl
@[simp] theorem State.modMem_now48 (s : State) (f : Mem → Mem) : (s.modMem f).now48 = s.now48 := rfl
@[simp] theorem State.modMem_now32 (s : State) (f : Mem → Mem) : (s.modMem f).now32 = s.now32 := rfl

@[simp] theorem State.modArb_pending (s : State) (f : Arb → Arb) : (s.modArb f).pending = s.pending := rfl
@[simp] theorem State.modArb_freeCtr (s : State) (f : Arb → Arb) : (s.modArb f).freeCtr = s.freeCtr := rfl
@[simp] theorem State.modArb_clk (s : State) (f : Arb → Arb) : (s.modArb f).clk = s.clk := rfl
@[simp] theorem State.modArb_straps (s : State) (f : Arb → Arb) : (s.modArb f).straps = s.straps := rfl
@[simp] theorem State.modArb_pwr (s : State) (f : Arb → Arb) : (s.modArb f).pwr = s.pwr := rfl
@[simp] theorem State.modArb_boot (s : State) (f : Arb → Arb) : (s.modArb f).boot = s.boot := rfl
@[simp] theorem State.modArb_rom (s : State) (f : Arb → Arb) : (s.modArb f).rom = s.rom := rfl
@[simp] theorem State.modArb_rope (s : State) (f : Arb → Arb) : (s.modArb f).rope = s.rope := rfl
@[simp] theorem State.modArb_wired (s : State) (f : Arb → Arb) : (s.modArb f).wired = s.wired := rfl
@[simp] theorem State.modArb_pass (s : State) (f : Arb → Arb) : (s.modArb f).pass = s.pass := rfl
@[simp] theorem State.modArb_door (s : State) (f : Arb → Arb) : (s.modArb f).door = s.door := rfl
@[simp] theorem State.modArb_inq (s : State) (f : Arb → Arb) : (s.modArb f).inq = s.inq := rfl
@[simp] theorem State.modArb_xl (s : State) (f : Arb → Arb) : (s.modArb f).xl = s.xl := rfl
@[simp] theorem State.modArb_plain (s : State) (f : Arb → Arb) : (s.modArb f).plain = s.plain := rfl
@[simp] theorem State.modArb_bel (s : State) (f : Arb → Arb) : (s.modArb f).bel = s.bel := rfl
@[simp] theorem State.modArb_tgt (s : State) (f : Arb → Arb) : (s.modArb f).tgt = s.tgt := rfl
@[simp] theorem State.modArb_pair (s : State) (f : Arb → Arb) : (s.modArb f).pair = s.pair := rfl
@[simp] theorem State.modArb_frame (s : State) (f : Arb → Arb) : (s.modArb f).frame = s.frame := rfl
@[simp] theorem State.modArb_grp (s : State) (f : Arb → Arb) : (s.modArb f).grp = s.grp := rfl
@[simp] theorem State.modArb_vt (s : State) (f : Arb → Arb) : (s.modArb f).vt = s.vt := rfl
@[simp] theorem State.modArb_ctx (s : State) (f : Arb → Arb) : (s.modArb f).ctx = s.ctx := rfl
@[simp] theorem State.modArb_log (s : State) (f : Arb → Arb) : (s.modArb f).log = s.log := rfl
@[simp] theorem State.modArb_logFull (s : State) (f : Arb → Arb) : (s.modArb f).logFull = s.logFull := rfl
@[simp] theorem State.modArb_links (s : State) (f : Arb → Arb) : (s.modArb f).links = s.links := rfl
@[simp] theorem State.modArb_partner (s : State) (f : Arb → Arb) : (s.modArb f).partner = s.partner := rfl
@[simp] theorem State.modArb_quads (s : State) (f : Arb → Arb) : (s.modArb f).quads = s.quads := rfl
@[simp] theorem State.modArb_lanes (s : State) (f : Arb → Arb) : (s.modArb f).lanes = s.lanes := rfl
@[simp] theorem State.modArb_camp (s : State) (f : Arb → Arb) : (s.modArb f).camp = s.camp := rfl
@[simp] theorem State.modArb_mbx (s : State) (f : Arb → Arb) : (s.modArb f).mbx = s.mbx := rfl
@[simp] theorem State.modArb_rat (s : State) (f : Arb → Arb) : (s.modArb f).rat = s.rat := rfl
@[simp] theorem State.modArb_mem (s : State) (f : Arb → Arb) : (s.modArb f).mem = s.mem := rfl
@[simp] theorem State.modArb_cairn (s : State) (f : Arb → Arb) : (s.modArb f).cairn = s.cairn := rfl
@[simp] theorem State.modArb_wear (s : State) (f : Arb → Arb) : (s.modArb f).wear = s.wear := rfl
@[simp] theorem State.modArb_acc (s : State) (f : Arb → Arb) : (s.modArb f).acc = s.acc := rfl
@[simp] theorem State.modArb_cp (s : State) (f : Arb → Arb) : (s.modArb f).cp = s.cp := rfl
@[simp] theorem State.modArb_passAt (s : State) (f : Arb → Arb) (k : Nat) : (s.modArb f).passAt k = s.passAt k := rfl
@[simp] theorem State.modArb_plainAt (s : State) (f : Arb → Arb) (k : Nat) : (s.modArb f).plainAt k = s.plainAt k := rfl
@[simp] theorem State.modArb_belAt (s : State) (f : Arb → Arb) (k : Nat) : (s.modArb f).belAt k = s.belAt k := rfl
@[simp] theorem State.modArb_tgtAt (s : State) (f : Arb → Arb) (k : Nat) : (s.modArb f).tgtAt k = s.tgtAt k := rfl
@[simp] theorem State.modArb_pairAt (s : State) (f : Arb → Arb) (k : Nat) : (s.modArb f).pairAt k = s.pairAt k := rfl
@[simp] theorem State.modArb_frameAt (s : State) (f : Arb → Arb) (k : Nat) : (s.modArb f).frameAt k = s.frameAt k := rfl
@[simp] theorem State.modArb_grpAt (s : State) (f : Arb → Arb) (k : Nat) : (s.modArb f).grpAt k = s.grpAt k := rfl
@[simp] theorem State.modArb_vtAt (s : State) (f : Arb → Arb) (k : Nat) : (s.modArb f).vtAt k = s.vtAt k := rfl
@[simp] theorem State.modArb_ctxAt (s : State) (f : Arb → Arb) (k : Nat) : (s.modArb f).ctxAt k = s.ctxAt k := rfl
@[simp] theorem State.modArb_logAt (s : State) (f : Arb → Arb) (k : Nat) : (s.modArb f).logAt k = s.logAt k := rfl
@[simp] theorem State.modArb_linkAt (s : State) (f : Arb → Arb) (k : Nat) : (s.modArb f).linkAt k = s.linkAt k := rfl
@[simp] theorem State.modArb_quadAt (s : State) (f : Arb → Arb) (k : Nat) : (s.modArb f).quadAt k = s.quadAt k := rfl
@[simp] theorem State.modArb_laneAt (s : State) (f : Arb → Arb) (k : Nat) : (s.modArb f).laneAt k = s.laneAt k := rfl
@[simp] theorem State.modArb_mbxAt (s : State) (f : Arb → Arb) (k : Nat) : (s.modArb f).mbxAt k = s.mbxAt k := rfl
@[simp] theorem State.modArb_inqAt (s : State) (f : Arb → Arb) (k : Nat) : (s.modArb f).inqAt k = s.inqAt k := rfl
@[simp] theorem State.modArb_srcAt (s : State) (f : Arb → Arb) (k : Nat) : (s.modArb f).srcAt k = s.srcAt k := rfl
@[simp] theorem State.modArb_bankAt (s : State) (f : Arb → Arb) (k : Nat) : (s.modArb f).bankAt k = s.bankAt k := rfl
@[simp] theorem State.modArb_posAt (s : State) (f : Arb → Arb) (k : Nat) : (s.modArb f).posAt k = s.posAt k := rfl
@[simp] theorem State.modArb_ridgeAt (s : State) (f : Arb → Arb) (k : Nat) : (s.modArb f).ridgeAt k = s.ridgeAt k := rfl
@[simp] theorem State.modArb_ridgeOf (s : State) (f : Arb → Arb) (k : Nat) : (s.modArb f).ridgeOf k = s.ridgeOf k := rfl
@[simp] theorem State.modArb_running (s : State) (f : Arb → Arb) : (s.modArb f).running = s.running := rfl
@[simp] theorem State.modArb_linksAlive (s : State) (f : Arb → Arb) : (s.modArb f).linksAlive = s.linksAlive := rfl
@[simp] theorem State.modArb_aon (s : State) (f : Arb → Arb) : (s.modArb f).aon = s.aon := rfl
@[simp] theorem State.modArb_now48 (s : State) (f : Arb → Arb) : (s.modArb f).now48 = s.now48 := rfl
@[simp] theorem State.modArb_now32 (s : State) (f : Arb → Arb) : (s.modArb f).now32 = s.now32 := rfl

@[simp] theorem State.modCairn_pending (s : State) (f : Cairns → Cairns) : (s.modCairn f).pending = s.pending := rfl
@[simp] theorem State.modCairn_freeCtr (s : State) (f : Cairns → Cairns) : (s.modCairn f).freeCtr = s.freeCtr := rfl
@[simp] theorem State.modCairn_clk (s : State) (f : Cairns → Cairns) : (s.modCairn f).clk = s.clk := rfl
@[simp] theorem State.modCairn_straps (s : State) (f : Cairns → Cairns) : (s.modCairn f).straps = s.straps := rfl
@[simp] theorem State.modCairn_pwr (s : State) (f : Cairns → Cairns) : (s.modCairn f).pwr = s.pwr := rfl
@[simp] theorem State.modCairn_boot (s : State) (f : Cairns → Cairns) : (s.modCairn f).boot = s.boot := rfl
@[simp] theorem State.modCairn_rom (s : State) (f : Cairns → Cairns) : (s.modCairn f).rom = s.rom := rfl
@[simp] theorem State.modCairn_rope (s : State) (f : Cairns → Cairns) : (s.modCairn f).rope = s.rope := rfl
@[simp] theorem State.modCairn_wired (s : State) (f : Cairns → Cairns) : (s.modCairn f).wired = s.wired := rfl
@[simp] theorem State.modCairn_pass (s : State) (f : Cairns → Cairns) : (s.modCairn f).pass = s.pass := rfl
@[simp] theorem State.modCairn_door (s : State) (f : Cairns → Cairns) : (s.modCairn f).door = s.door := rfl
@[simp] theorem State.modCairn_inq (s : State) (f : Cairns → Cairns) : (s.modCairn f).inq = s.inq := rfl
@[simp] theorem State.modCairn_xl (s : State) (f : Cairns → Cairns) : (s.modCairn f).xl = s.xl := rfl
@[simp] theorem State.modCairn_plain (s : State) (f : Cairns → Cairns) : (s.modCairn f).plain = s.plain := rfl
@[simp] theorem State.modCairn_bel (s : State) (f : Cairns → Cairns) : (s.modCairn f).bel = s.bel := rfl
@[simp] theorem State.modCairn_tgt (s : State) (f : Cairns → Cairns) : (s.modCairn f).tgt = s.tgt := rfl
@[simp] theorem State.modCairn_pair (s : State) (f : Cairns → Cairns) : (s.modCairn f).pair = s.pair := rfl
@[simp] theorem State.modCairn_frame (s : State) (f : Cairns → Cairns) : (s.modCairn f).frame = s.frame := rfl
@[simp] theorem State.modCairn_grp (s : State) (f : Cairns → Cairns) : (s.modCairn f).grp = s.grp := rfl
@[simp] theorem State.modCairn_vt (s : State) (f : Cairns → Cairns) : (s.modCairn f).vt = s.vt := rfl
@[simp] theorem State.modCairn_ctx (s : State) (f : Cairns → Cairns) : (s.modCairn f).ctx = s.ctx := rfl
@[simp] theorem State.modCairn_log (s : State) (f : Cairns → Cairns) : (s.modCairn f).log = s.log := rfl
@[simp] theorem State.modCairn_logFull (s : State) (f : Cairns → Cairns) : (s.modCairn f).logFull = s.logFull := rfl
@[simp] theorem State.modCairn_links (s : State) (f : Cairns → Cairns) : (s.modCairn f).links = s.links := rfl
@[simp] theorem State.modCairn_partner (s : State) (f : Cairns → Cairns) : (s.modCairn f).partner = s.partner := rfl
@[simp] theorem State.modCairn_quads (s : State) (f : Cairns → Cairns) : (s.modCairn f).quads = s.quads := rfl
@[simp] theorem State.modCairn_lanes (s : State) (f : Cairns → Cairns) : (s.modCairn f).lanes = s.lanes := rfl
@[simp] theorem State.modCairn_camp (s : State) (f : Cairns → Cairns) : (s.modCairn f).camp = s.camp := rfl
@[simp] theorem State.modCairn_mbx (s : State) (f : Cairns → Cairns) : (s.modCairn f).mbx = s.mbx := rfl
@[simp] theorem State.modCairn_rat (s : State) (f : Cairns → Cairns) : (s.modCairn f).rat = s.rat := rfl
@[simp] theorem State.modCairn_mem (s : State) (f : Cairns → Cairns) : (s.modCairn f).mem = s.mem := rfl
@[simp] theorem State.modCairn_arb (s : State) (f : Cairns → Cairns) : (s.modCairn f).arb = s.arb := rfl
@[simp] theorem State.modCairn_wear (s : State) (f : Cairns → Cairns) : (s.modCairn f).wear = s.wear := rfl
@[simp] theorem State.modCairn_acc (s : State) (f : Cairns → Cairns) : (s.modCairn f).acc = s.acc := rfl
@[simp] theorem State.modCairn_cp (s : State) (f : Cairns → Cairns) : (s.modCairn f).cp = s.cp := rfl
@[simp] theorem State.modCairn_passAt (s : State) (f : Cairns → Cairns) (k : Nat) : (s.modCairn f).passAt k = s.passAt k := rfl
@[simp] theorem State.modCairn_plainAt (s : State) (f : Cairns → Cairns) (k : Nat) : (s.modCairn f).plainAt k = s.plainAt k := rfl
@[simp] theorem State.modCairn_belAt (s : State) (f : Cairns → Cairns) (k : Nat) : (s.modCairn f).belAt k = s.belAt k := rfl
@[simp] theorem State.modCairn_tgtAt (s : State) (f : Cairns → Cairns) (k : Nat) : (s.modCairn f).tgtAt k = s.tgtAt k := rfl
@[simp] theorem State.modCairn_pairAt (s : State) (f : Cairns → Cairns) (k : Nat) : (s.modCairn f).pairAt k = s.pairAt k := rfl
@[simp] theorem State.modCairn_frameAt (s : State) (f : Cairns → Cairns) (k : Nat) : (s.modCairn f).frameAt k = s.frameAt k := rfl
@[simp] theorem State.modCairn_grpAt (s : State) (f : Cairns → Cairns) (k : Nat) : (s.modCairn f).grpAt k = s.grpAt k := rfl
@[simp] theorem State.modCairn_vtAt (s : State) (f : Cairns → Cairns) (k : Nat) : (s.modCairn f).vtAt k = s.vtAt k := rfl
@[simp] theorem State.modCairn_ctxAt (s : State) (f : Cairns → Cairns) (k : Nat) : (s.modCairn f).ctxAt k = s.ctxAt k := rfl
@[simp] theorem State.modCairn_logAt (s : State) (f : Cairns → Cairns) (k : Nat) : (s.modCairn f).logAt k = s.logAt k := rfl
@[simp] theorem State.modCairn_linkAt (s : State) (f : Cairns → Cairns) (k : Nat) : (s.modCairn f).linkAt k = s.linkAt k := rfl
@[simp] theorem State.modCairn_quadAt (s : State) (f : Cairns → Cairns) (k : Nat) : (s.modCairn f).quadAt k = s.quadAt k := rfl
@[simp] theorem State.modCairn_laneAt (s : State) (f : Cairns → Cairns) (k : Nat) : (s.modCairn f).laneAt k = s.laneAt k := rfl
@[simp] theorem State.modCairn_mbxAt (s : State) (f : Cairns → Cairns) (k : Nat) : (s.modCairn f).mbxAt k = s.mbxAt k := rfl
@[simp] theorem State.modCairn_inqAt (s : State) (f : Cairns → Cairns) (k : Nat) : (s.modCairn f).inqAt k = s.inqAt k := rfl
@[simp] theorem State.modCairn_srcAt (s : State) (f : Cairns → Cairns) (k : Nat) : (s.modCairn f).srcAt k = s.srcAt k := rfl
@[simp] theorem State.modCairn_bankAt (s : State) (f : Cairns → Cairns) (k : Nat) : (s.modCairn f).bankAt k = s.bankAt k := rfl
@[simp] theorem State.modCairn_posAt (s : State) (f : Cairns → Cairns) (k : Nat) : (s.modCairn f).posAt k = s.posAt k := rfl
@[simp] theorem State.modCairn_ridgeAt (s : State) (f : Cairns → Cairns) (k : Nat) : (s.modCairn f).ridgeAt k = s.ridgeAt k := rfl
@[simp] theorem State.modCairn_ridgeOf (s : State) (f : Cairns → Cairns) (k : Nat) : (s.modCairn f).ridgeOf k = s.ridgeOf k := rfl
@[simp] theorem State.modCairn_arbAt (s : State) (f : Cairns → Cairns) (k : Nat) : (s.modCairn f).arbAt k = s.arbAt k := rfl
@[simp] theorem State.modCairn_running (s : State) (f : Cairns → Cairns) : (s.modCairn f).running = s.running := rfl
@[simp] theorem State.modCairn_linksAlive (s : State) (f : Cairns → Cairns) : (s.modCairn f).linksAlive = s.linksAlive := rfl
@[simp] theorem State.modCairn_aon (s : State) (f : Cairns → Cairns) : (s.modCairn f).aon = s.aon := rfl
@[simp] theorem State.modCairn_now48 (s : State) (f : Cairns → Cairns) : (s.modCairn f).now48 = s.now48 := rfl
@[simp] theorem State.modCairn_now32 (s : State) (f : Cairns → Cairns) : (s.modCairn f).now32 = s.now32 := rfl

@[simp] theorem State.modWear_pending (s : State) (f : Wear → Wear) : (s.modWear f).pending = s.pending := rfl
@[simp] theorem State.modWear_freeCtr (s : State) (f : Wear → Wear) : (s.modWear f).freeCtr = s.freeCtr := rfl
@[simp] theorem State.modWear_clk (s : State) (f : Wear → Wear) : (s.modWear f).clk = s.clk := rfl
@[simp] theorem State.modWear_straps (s : State) (f : Wear → Wear) : (s.modWear f).straps = s.straps := rfl
@[simp] theorem State.modWear_pwr (s : State) (f : Wear → Wear) : (s.modWear f).pwr = s.pwr := rfl
@[simp] theorem State.modWear_boot (s : State) (f : Wear → Wear) : (s.modWear f).boot = s.boot := rfl
@[simp] theorem State.modWear_rom (s : State) (f : Wear → Wear) : (s.modWear f).rom = s.rom := rfl
@[simp] theorem State.modWear_rope (s : State) (f : Wear → Wear) : (s.modWear f).rope = s.rope := rfl
@[simp] theorem State.modWear_wired (s : State) (f : Wear → Wear) : (s.modWear f).wired = s.wired := rfl
@[simp] theorem State.modWear_pass (s : State) (f : Wear → Wear) : (s.modWear f).pass = s.pass := rfl
@[simp] theorem State.modWear_door (s : State) (f : Wear → Wear) : (s.modWear f).door = s.door := rfl
@[simp] theorem State.modWear_inq (s : State) (f : Wear → Wear) : (s.modWear f).inq = s.inq := rfl
@[simp] theorem State.modWear_xl (s : State) (f : Wear → Wear) : (s.modWear f).xl = s.xl := rfl
@[simp] theorem State.modWear_plain (s : State) (f : Wear → Wear) : (s.modWear f).plain = s.plain := rfl
@[simp] theorem State.modWear_bel (s : State) (f : Wear → Wear) : (s.modWear f).bel = s.bel := rfl
@[simp] theorem State.modWear_tgt (s : State) (f : Wear → Wear) : (s.modWear f).tgt = s.tgt := rfl
@[simp] theorem State.modWear_pair (s : State) (f : Wear → Wear) : (s.modWear f).pair = s.pair := rfl
@[simp] theorem State.modWear_frame (s : State) (f : Wear → Wear) : (s.modWear f).frame = s.frame := rfl
@[simp] theorem State.modWear_grp (s : State) (f : Wear → Wear) : (s.modWear f).grp = s.grp := rfl
@[simp] theorem State.modWear_vt (s : State) (f : Wear → Wear) : (s.modWear f).vt = s.vt := rfl
@[simp] theorem State.modWear_ctx (s : State) (f : Wear → Wear) : (s.modWear f).ctx = s.ctx := rfl
@[simp] theorem State.modWear_log (s : State) (f : Wear → Wear) : (s.modWear f).log = s.log := rfl
@[simp] theorem State.modWear_logFull (s : State) (f : Wear → Wear) : (s.modWear f).logFull = s.logFull := rfl
@[simp] theorem State.modWear_links (s : State) (f : Wear → Wear) : (s.modWear f).links = s.links := rfl
@[simp] theorem State.modWear_partner (s : State) (f : Wear → Wear) : (s.modWear f).partner = s.partner := rfl
@[simp] theorem State.modWear_quads (s : State) (f : Wear → Wear) : (s.modWear f).quads = s.quads := rfl
@[simp] theorem State.modWear_lanes (s : State) (f : Wear → Wear) : (s.modWear f).lanes = s.lanes := rfl
@[simp] theorem State.modWear_camp (s : State) (f : Wear → Wear) : (s.modWear f).camp = s.camp := rfl
@[simp] theorem State.modWear_mbx (s : State) (f : Wear → Wear) : (s.modWear f).mbx = s.mbx := rfl
@[simp] theorem State.modWear_rat (s : State) (f : Wear → Wear) : (s.modWear f).rat = s.rat := rfl
@[simp] theorem State.modWear_mem (s : State) (f : Wear → Wear) : (s.modWear f).mem = s.mem := rfl
@[simp] theorem State.modWear_arb (s : State) (f : Wear → Wear) : (s.modWear f).arb = s.arb := rfl
@[simp] theorem State.modWear_cairn (s : State) (f : Wear → Wear) : (s.modWear f).cairn = s.cairn := rfl
@[simp] theorem State.modWear_acc (s : State) (f : Wear → Wear) : (s.modWear f).acc = s.acc := rfl
@[simp] theorem State.modWear_cp (s : State) (f : Wear → Wear) : (s.modWear f).cp = s.cp := rfl
@[simp] theorem State.modWear_passAt (s : State) (f : Wear → Wear) (k : Nat) : (s.modWear f).passAt k = s.passAt k := rfl
@[simp] theorem State.modWear_plainAt (s : State) (f : Wear → Wear) (k : Nat) : (s.modWear f).plainAt k = s.plainAt k := rfl
@[simp] theorem State.modWear_belAt (s : State) (f : Wear → Wear) (k : Nat) : (s.modWear f).belAt k = s.belAt k := rfl
@[simp] theorem State.modWear_tgtAt (s : State) (f : Wear → Wear) (k : Nat) : (s.modWear f).tgtAt k = s.tgtAt k := rfl
@[simp] theorem State.modWear_pairAt (s : State) (f : Wear → Wear) (k : Nat) : (s.modWear f).pairAt k = s.pairAt k := rfl
@[simp] theorem State.modWear_frameAt (s : State) (f : Wear → Wear) (k : Nat) : (s.modWear f).frameAt k = s.frameAt k := rfl
@[simp] theorem State.modWear_grpAt (s : State) (f : Wear → Wear) (k : Nat) : (s.modWear f).grpAt k = s.grpAt k := rfl
@[simp] theorem State.modWear_vtAt (s : State) (f : Wear → Wear) (k : Nat) : (s.modWear f).vtAt k = s.vtAt k := rfl
@[simp] theorem State.modWear_ctxAt (s : State) (f : Wear → Wear) (k : Nat) : (s.modWear f).ctxAt k = s.ctxAt k := rfl
@[simp] theorem State.modWear_logAt (s : State) (f : Wear → Wear) (k : Nat) : (s.modWear f).logAt k = s.logAt k := rfl
@[simp] theorem State.modWear_linkAt (s : State) (f : Wear → Wear) (k : Nat) : (s.modWear f).linkAt k = s.linkAt k := rfl
@[simp] theorem State.modWear_quadAt (s : State) (f : Wear → Wear) (k : Nat) : (s.modWear f).quadAt k = s.quadAt k := rfl
@[simp] theorem State.modWear_laneAt (s : State) (f : Wear → Wear) (k : Nat) : (s.modWear f).laneAt k = s.laneAt k := rfl
@[simp] theorem State.modWear_mbxAt (s : State) (f : Wear → Wear) (k : Nat) : (s.modWear f).mbxAt k = s.mbxAt k := rfl
@[simp] theorem State.modWear_inqAt (s : State) (f : Wear → Wear) (k : Nat) : (s.modWear f).inqAt k = s.inqAt k := rfl
@[simp] theorem State.modWear_srcAt (s : State) (f : Wear → Wear) (k : Nat) : (s.modWear f).srcAt k = s.srcAt k := rfl
@[simp] theorem State.modWear_bankAt (s : State) (f : Wear → Wear) (k : Nat) : (s.modWear f).bankAt k = s.bankAt k := rfl
@[simp] theorem State.modWear_posAt (s : State) (f : Wear → Wear) (k : Nat) : (s.modWear f).posAt k = s.posAt k := rfl
@[simp] theorem State.modWear_ridgeAt (s : State) (f : Wear → Wear) (k : Nat) : (s.modWear f).ridgeAt k = s.ridgeAt k := rfl
@[simp] theorem State.modWear_ridgeOf (s : State) (f : Wear → Wear) (k : Nat) : (s.modWear f).ridgeOf k = s.ridgeOf k := rfl
@[simp] theorem State.modWear_arbAt (s : State) (f : Wear → Wear) (k : Nat) : (s.modWear f).arbAt k = s.arbAt k := rfl
@[simp] theorem State.modWear_running (s : State) (f : Wear → Wear) : (s.modWear f).running = s.running := rfl
@[simp] theorem State.modWear_linksAlive (s : State) (f : Wear → Wear) : (s.modWear f).linksAlive = s.linksAlive := rfl
@[simp] theorem State.modWear_aon (s : State) (f : Wear → Wear) : (s.modWear f).aon = s.aon := rfl
@[simp] theorem State.modWear_now48 (s : State) (f : Wear → Wear) : (s.modWear f).now48 = s.now48 := rfl
@[simp] theorem State.modWear_now32 (s : State) (f : Wear → Wear) : (s.modWear f).now32 = s.now32 := rfl

@[simp] theorem State.modAcc_pending (s : State) (f : AccessCheck → AccessCheck) : (s.modAcc f).pending = s.pending := rfl
@[simp] theorem State.modAcc_freeCtr (s : State) (f : AccessCheck → AccessCheck) : (s.modAcc f).freeCtr = s.freeCtr := rfl
@[simp] theorem State.modAcc_clk (s : State) (f : AccessCheck → AccessCheck) : (s.modAcc f).clk = s.clk := rfl
@[simp] theorem State.modAcc_straps (s : State) (f : AccessCheck → AccessCheck) : (s.modAcc f).straps = s.straps := rfl
@[simp] theorem State.modAcc_pwr (s : State) (f : AccessCheck → AccessCheck) : (s.modAcc f).pwr = s.pwr := rfl
@[simp] theorem State.modAcc_boot (s : State) (f : AccessCheck → AccessCheck) : (s.modAcc f).boot = s.boot := rfl
@[simp] theorem State.modAcc_rom (s : State) (f : AccessCheck → AccessCheck) : (s.modAcc f).rom = s.rom := rfl
@[simp] theorem State.modAcc_rope (s : State) (f : AccessCheck → AccessCheck) : (s.modAcc f).rope = s.rope := rfl
@[simp] theorem State.modAcc_wired (s : State) (f : AccessCheck → AccessCheck) : (s.modAcc f).wired = s.wired := rfl
@[simp] theorem State.modAcc_pass (s : State) (f : AccessCheck → AccessCheck) : (s.modAcc f).pass = s.pass := rfl
@[simp] theorem State.modAcc_door (s : State) (f : AccessCheck → AccessCheck) : (s.modAcc f).door = s.door := rfl
@[simp] theorem State.modAcc_inq (s : State) (f : AccessCheck → AccessCheck) : (s.modAcc f).inq = s.inq := rfl
@[simp] theorem State.modAcc_xl (s : State) (f : AccessCheck → AccessCheck) : (s.modAcc f).xl = s.xl := rfl
@[simp] theorem State.modAcc_plain (s : State) (f : AccessCheck → AccessCheck) : (s.modAcc f).plain = s.plain := rfl
@[simp] theorem State.modAcc_bel (s : State) (f : AccessCheck → AccessCheck) : (s.modAcc f).bel = s.bel := rfl
@[simp] theorem State.modAcc_tgt (s : State) (f : AccessCheck → AccessCheck) : (s.modAcc f).tgt = s.tgt := rfl
@[simp] theorem State.modAcc_pair (s : State) (f : AccessCheck → AccessCheck) : (s.modAcc f).pair = s.pair := rfl
@[simp] theorem State.modAcc_frame (s : State) (f : AccessCheck → AccessCheck) : (s.modAcc f).frame = s.frame := rfl
@[simp] theorem State.modAcc_grp (s : State) (f : AccessCheck → AccessCheck) : (s.modAcc f).grp = s.grp := rfl
@[simp] theorem State.modAcc_vt (s : State) (f : AccessCheck → AccessCheck) : (s.modAcc f).vt = s.vt := rfl
@[simp] theorem State.modAcc_ctx (s : State) (f : AccessCheck → AccessCheck) : (s.modAcc f).ctx = s.ctx := rfl
@[simp] theorem State.modAcc_log (s : State) (f : AccessCheck → AccessCheck) : (s.modAcc f).log = s.log := rfl
@[simp] theorem State.modAcc_logFull (s : State) (f : AccessCheck → AccessCheck) : (s.modAcc f).logFull = s.logFull := rfl
@[simp] theorem State.modAcc_links (s : State) (f : AccessCheck → AccessCheck) : (s.modAcc f).links = s.links := rfl
@[simp] theorem State.modAcc_partner (s : State) (f : AccessCheck → AccessCheck) : (s.modAcc f).partner = s.partner := rfl
@[simp] theorem State.modAcc_quads (s : State) (f : AccessCheck → AccessCheck) : (s.modAcc f).quads = s.quads := rfl
@[simp] theorem State.modAcc_lanes (s : State) (f : AccessCheck → AccessCheck) : (s.modAcc f).lanes = s.lanes := rfl
@[simp] theorem State.modAcc_camp (s : State) (f : AccessCheck → AccessCheck) : (s.modAcc f).camp = s.camp := rfl
@[simp] theorem State.modAcc_mbx (s : State) (f : AccessCheck → AccessCheck) : (s.modAcc f).mbx = s.mbx := rfl
@[simp] theorem State.modAcc_rat (s : State) (f : AccessCheck → AccessCheck) : (s.modAcc f).rat = s.rat := rfl
@[simp] theorem State.modAcc_mem (s : State) (f : AccessCheck → AccessCheck) : (s.modAcc f).mem = s.mem := rfl
@[simp] theorem State.modAcc_arb (s : State) (f : AccessCheck → AccessCheck) : (s.modAcc f).arb = s.arb := rfl
@[simp] theorem State.modAcc_cairn (s : State) (f : AccessCheck → AccessCheck) : (s.modAcc f).cairn = s.cairn := rfl
@[simp] theorem State.modAcc_wear (s : State) (f : AccessCheck → AccessCheck) : (s.modAcc f).wear = s.wear := rfl
@[simp] theorem State.modAcc_cp (s : State) (f : AccessCheck → AccessCheck) : (s.modAcc f).cp = s.cp := rfl
@[simp] theorem State.modAcc_passAt (s : State) (f : AccessCheck → AccessCheck) (k : Nat) : (s.modAcc f).passAt k = s.passAt k := rfl
@[simp] theorem State.modAcc_plainAt (s : State) (f : AccessCheck → AccessCheck) (k : Nat) : (s.modAcc f).plainAt k = s.plainAt k := rfl
@[simp] theorem State.modAcc_belAt (s : State) (f : AccessCheck → AccessCheck) (k : Nat) : (s.modAcc f).belAt k = s.belAt k := rfl
@[simp] theorem State.modAcc_tgtAt (s : State) (f : AccessCheck → AccessCheck) (k : Nat) : (s.modAcc f).tgtAt k = s.tgtAt k := rfl
@[simp] theorem State.modAcc_pairAt (s : State) (f : AccessCheck → AccessCheck) (k : Nat) : (s.modAcc f).pairAt k = s.pairAt k := rfl
@[simp] theorem State.modAcc_frameAt (s : State) (f : AccessCheck → AccessCheck) (k : Nat) : (s.modAcc f).frameAt k = s.frameAt k := rfl
@[simp] theorem State.modAcc_grpAt (s : State) (f : AccessCheck → AccessCheck) (k : Nat) : (s.modAcc f).grpAt k = s.grpAt k := rfl
@[simp] theorem State.modAcc_vtAt (s : State) (f : AccessCheck → AccessCheck) (k : Nat) : (s.modAcc f).vtAt k = s.vtAt k := rfl
@[simp] theorem State.modAcc_ctxAt (s : State) (f : AccessCheck → AccessCheck) (k : Nat) : (s.modAcc f).ctxAt k = s.ctxAt k := rfl
@[simp] theorem State.modAcc_logAt (s : State) (f : AccessCheck → AccessCheck) (k : Nat) : (s.modAcc f).logAt k = s.logAt k := rfl
@[simp] theorem State.modAcc_linkAt (s : State) (f : AccessCheck → AccessCheck) (k : Nat) : (s.modAcc f).linkAt k = s.linkAt k := rfl
@[simp] theorem State.modAcc_quadAt (s : State) (f : AccessCheck → AccessCheck) (k : Nat) : (s.modAcc f).quadAt k = s.quadAt k := rfl
@[simp] theorem State.modAcc_laneAt (s : State) (f : AccessCheck → AccessCheck) (k : Nat) : (s.modAcc f).laneAt k = s.laneAt k := rfl
@[simp] theorem State.modAcc_mbxAt (s : State) (f : AccessCheck → AccessCheck) (k : Nat) : (s.modAcc f).mbxAt k = s.mbxAt k := rfl
@[simp] theorem State.modAcc_inqAt (s : State) (f : AccessCheck → AccessCheck) (k : Nat) : (s.modAcc f).inqAt k = s.inqAt k := rfl
@[simp] theorem State.modAcc_srcAt (s : State) (f : AccessCheck → AccessCheck) (k : Nat) : (s.modAcc f).srcAt k = s.srcAt k := rfl
@[simp] theorem State.modAcc_bankAt (s : State) (f : AccessCheck → AccessCheck) (k : Nat) : (s.modAcc f).bankAt k = s.bankAt k := rfl
@[simp] theorem State.modAcc_posAt (s : State) (f : AccessCheck → AccessCheck) (k : Nat) : (s.modAcc f).posAt k = s.posAt k := rfl
@[simp] theorem State.modAcc_ridgeAt (s : State) (f : AccessCheck → AccessCheck) (k : Nat) : (s.modAcc f).ridgeAt k = s.ridgeAt k := rfl
@[simp] theorem State.modAcc_ridgeOf (s : State) (f : AccessCheck → AccessCheck) (k : Nat) : (s.modAcc f).ridgeOf k = s.ridgeOf k := rfl
@[simp] theorem State.modAcc_arbAt (s : State) (f : AccessCheck → AccessCheck) (k : Nat) : (s.modAcc f).arbAt k = s.arbAt k := rfl
@[simp] theorem State.modAcc_running (s : State) (f : AccessCheck → AccessCheck) : (s.modAcc f).running = s.running := rfl
@[simp] theorem State.modAcc_linksAlive (s : State) (f : AccessCheck → AccessCheck) : (s.modAcc f).linksAlive = s.linksAlive := rfl
@[simp] theorem State.modAcc_aon (s : State) (f : AccessCheck → AccessCheck) : (s.modAcc f).aon = s.aon := rfl
@[simp] theorem State.modAcc_now48 (s : State) (f : AccessCheck → AccessCheck) : (s.modAcc f).now48 = s.now48 := rfl
@[simp] theorem State.modAcc_now32 (s : State) (f : AccessCheck → AccessCheck) : (s.modAcc f).now32 = s.now32 := rfl

@[simp] theorem State.modCp_pending (s : State) (f : ControlPort → ControlPort) : (s.modCp f).pending = s.pending := rfl
@[simp] theorem State.modCp_freeCtr (s : State) (f : ControlPort → ControlPort) : (s.modCp f).freeCtr = s.freeCtr := rfl
@[simp] theorem State.modCp_clk (s : State) (f : ControlPort → ControlPort) : (s.modCp f).clk = s.clk := rfl
@[simp] theorem State.modCp_straps (s : State) (f : ControlPort → ControlPort) : (s.modCp f).straps = s.straps := rfl
@[simp] theorem State.modCp_pwr (s : State) (f : ControlPort → ControlPort) : (s.modCp f).pwr = s.pwr := rfl
@[simp] theorem State.modCp_boot (s : State) (f : ControlPort → ControlPort) : (s.modCp f).boot = s.boot := rfl
@[simp] theorem State.modCp_rom (s : State) (f : ControlPort → ControlPort) : (s.modCp f).rom = s.rom := rfl
@[simp] theorem State.modCp_rope (s : State) (f : ControlPort → ControlPort) : (s.modCp f).rope = s.rope := rfl
@[simp] theorem State.modCp_wired (s : State) (f : ControlPort → ControlPort) : (s.modCp f).wired = s.wired := rfl
@[simp] theorem State.modCp_pass (s : State) (f : ControlPort → ControlPort) : (s.modCp f).pass = s.pass := rfl
@[simp] theorem State.modCp_door (s : State) (f : ControlPort → ControlPort) : (s.modCp f).door = s.door := rfl
@[simp] theorem State.modCp_inq (s : State) (f : ControlPort → ControlPort) : (s.modCp f).inq = s.inq := rfl
@[simp] theorem State.modCp_xl (s : State) (f : ControlPort → ControlPort) : (s.modCp f).xl = s.xl := rfl
@[simp] theorem State.modCp_plain (s : State) (f : ControlPort → ControlPort) : (s.modCp f).plain = s.plain := rfl
@[simp] theorem State.modCp_bel (s : State) (f : ControlPort → ControlPort) : (s.modCp f).bel = s.bel := rfl
@[simp] theorem State.modCp_tgt (s : State) (f : ControlPort → ControlPort) : (s.modCp f).tgt = s.tgt := rfl
@[simp] theorem State.modCp_pair (s : State) (f : ControlPort → ControlPort) : (s.modCp f).pair = s.pair := rfl
@[simp] theorem State.modCp_frame (s : State) (f : ControlPort → ControlPort) : (s.modCp f).frame = s.frame := rfl
@[simp] theorem State.modCp_grp (s : State) (f : ControlPort → ControlPort) : (s.modCp f).grp = s.grp := rfl
@[simp] theorem State.modCp_vt (s : State) (f : ControlPort → ControlPort) : (s.modCp f).vt = s.vt := rfl
@[simp] theorem State.modCp_ctx (s : State) (f : ControlPort → ControlPort) : (s.modCp f).ctx = s.ctx := rfl
@[simp] theorem State.modCp_log (s : State) (f : ControlPort → ControlPort) : (s.modCp f).log = s.log := rfl
@[simp] theorem State.modCp_logFull (s : State) (f : ControlPort → ControlPort) : (s.modCp f).logFull = s.logFull := rfl
@[simp] theorem State.modCp_links (s : State) (f : ControlPort → ControlPort) : (s.modCp f).links = s.links := rfl
@[simp] theorem State.modCp_partner (s : State) (f : ControlPort → ControlPort) : (s.modCp f).partner = s.partner := rfl
@[simp] theorem State.modCp_quads (s : State) (f : ControlPort → ControlPort) : (s.modCp f).quads = s.quads := rfl
@[simp] theorem State.modCp_lanes (s : State) (f : ControlPort → ControlPort) : (s.modCp f).lanes = s.lanes := rfl
@[simp] theorem State.modCp_camp (s : State) (f : ControlPort → ControlPort) : (s.modCp f).camp = s.camp := rfl
@[simp] theorem State.modCp_mbx (s : State) (f : ControlPort → ControlPort) : (s.modCp f).mbx = s.mbx := rfl
@[simp] theorem State.modCp_rat (s : State) (f : ControlPort → ControlPort) : (s.modCp f).rat = s.rat := rfl
@[simp] theorem State.modCp_mem (s : State) (f : ControlPort → ControlPort) : (s.modCp f).mem = s.mem := rfl
@[simp] theorem State.modCp_arb (s : State) (f : ControlPort → ControlPort) : (s.modCp f).arb = s.arb := rfl
@[simp] theorem State.modCp_cairn (s : State) (f : ControlPort → ControlPort) : (s.modCp f).cairn = s.cairn := rfl
@[simp] theorem State.modCp_wear (s : State) (f : ControlPort → ControlPort) : (s.modCp f).wear = s.wear := rfl
@[simp] theorem State.modCp_acc (s : State) (f : ControlPort → ControlPort) : (s.modCp f).acc = s.acc := rfl
@[simp] theorem State.modCp_passAt (s : State) (f : ControlPort → ControlPort) (k : Nat) : (s.modCp f).passAt k = s.passAt k := rfl
@[simp] theorem State.modCp_plainAt (s : State) (f : ControlPort → ControlPort) (k : Nat) : (s.modCp f).plainAt k = s.plainAt k := rfl
@[simp] theorem State.modCp_belAt (s : State) (f : ControlPort → ControlPort) (k : Nat) : (s.modCp f).belAt k = s.belAt k := rfl
@[simp] theorem State.modCp_tgtAt (s : State) (f : ControlPort → ControlPort) (k : Nat) : (s.modCp f).tgtAt k = s.tgtAt k := rfl
@[simp] theorem State.modCp_pairAt (s : State) (f : ControlPort → ControlPort) (k : Nat) : (s.modCp f).pairAt k = s.pairAt k := rfl
@[simp] theorem State.modCp_frameAt (s : State) (f : ControlPort → ControlPort) (k : Nat) : (s.modCp f).frameAt k = s.frameAt k := rfl
@[simp] theorem State.modCp_grpAt (s : State) (f : ControlPort → ControlPort) (k : Nat) : (s.modCp f).grpAt k = s.grpAt k := rfl
@[simp] theorem State.modCp_vtAt (s : State) (f : ControlPort → ControlPort) (k : Nat) : (s.modCp f).vtAt k = s.vtAt k := rfl
@[simp] theorem State.modCp_ctxAt (s : State) (f : ControlPort → ControlPort) (k : Nat) : (s.modCp f).ctxAt k = s.ctxAt k := rfl
@[simp] theorem State.modCp_logAt (s : State) (f : ControlPort → ControlPort) (k : Nat) : (s.modCp f).logAt k = s.logAt k := rfl
@[simp] theorem State.modCp_linkAt (s : State) (f : ControlPort → ControlPort) (k : Nat) : (s.modCp f).linkAt k = s.linkAt k := rfl
@[simp] theorem State.modCp_quadAt (s : State) (f : ControlPort → ControlPort) (k : Nat) : (s.modCp f).quadAt k = s.quadAt k := rfl
@[simp] theorem State.modCp_laneAt (s : State) (f : ControlPort → ControlPort) (k : Nat) : (s.modCp f).laneAt k = s.laneAt k := rfl
@[simp] theorem State.modCp_mbxAt (s : State) (f : ControlPort → ControlPort) (k : Nat) : (s.modCp f).mbxAt k = s.mbxAt k := rfl
@[simp] theorem State.modCp_inqAt (s : State) (f : ControlPort → ControlPort) (k : Nat) : (s.modCp f).inqAt k = s.inqAt k := rfl
@[simp] theorem State.modCp_srcAt (s : State) (f : ControlPort → ControlPort) (k : Nat) : (s.modCp f).srcAt k = s.srcAt k := rfl
@[simp] theorem State.modCp_bankAt (s : State) (f : ControlPort → ControlPort) (k : Nat) : (s.modCp f).bankAt k = s.bankAt k := rfl
@[simp] theorem State.modCp_posAt (s : State) (f : ControlPort → ControlPort) (k : Nat) : (s.modCp f).posAt k = s.posAt k := rfl
@[simp] theorem State.modCp_ridgeAt (s : State) (f : ControlPort → ControlPort) (k : Nat) : (s.modCp f).ridgeAt k = s.ridgeAt k := rfl
@[simp] theorem State.modCp_ridgeOf (s : State) (f : ControlPort → ControlPort) (k : Nat) : (s.modCp f).ridgeOf k = s.ridgeOf k := rfl
@[simp] theorem State.modCp_arbAt (s : State) (f : ControlPort → ControlPort) (k : Nat) : (s.modCp f).arbAt k = s.arbAt k := rfl
@[simp] theorem State.modCp_running (s : State) (f : ControlPort → ControlPort) : (s.modCp f).running = s.running := rfl
@[simp] theorem State.modCp_linksAlive (s : State) (f : ControlPort → ControlPort) : (s.modCp f).linksAlive = s.linksAlive := rfl
@[simp] theorem State.modCp_aon (s : State) (f : ControlPort → ControlPort) : (s.modCp f).aon = s.aon := rfl
@[simp] theorem State.modCp_now48 (s : State) (f : ControlPort → ControlPort) : (s.modCp f).now48 = s.now48 := rfl
@[simp] theorem State.modCp_now32 (s : State) (f : ControlPort → ControlPort) : (s.modCp f).now32 = s.now32 := rfl

@[simp] theorem State.updSrc_pending (s : State) (n : Nat) (f : Source → Source) : (s.updSrc n f).pending = s.pending := rfl
@[simp] theorem State.updSrc_freeCtr (s : State) (n : Nat) (f : Source → Source) : (s.updSrc n f).freeCtr = s.freeCtr := rfl
@[simp] theorem State.updSrc_clk (s : State) (n : Nat) (f : Source → Source) : (s.updSrc n f).clk = s.clk := rfl
@[simp] theorem State.updSrc_straps (s : State) (n : Nat) (f : Source → Source) : (s.updSrc n f).straps = s.straps := rfl
@[simp] theorem State.updSrc_pwr (s : State) (n : Nat) (f : Source → Source) : (s.updSrc n f).pwr = s.pwr := rfl
@[simp] theorem State.updSrc_boot (s : State) (n : Nat) (f : Source → Source) : (s.updSrc n f).boot = s.boot := rfl
@[simp] theorem State.updSrc_rom (s : State) (n : Nat) (f : Source → Source) : (s.updSrc n f).rom = s.rom := rfl
@[simp] theorem State.updSrc_rope (s : State) (n : Nat) (f : Source → Source) : (s.updSrc n f).rope = s.rope := rfl
@[simp] theorem State.updSrc_pass (s : State) (n : Nat) (f : Source → Source) : (s.updSrc n f).pass = s.pass := rfl
@[simp] theorem State.updSrc_door (s : State) (n : Nat) (f : Source → Source) : (s.updSrc n f).door = s.door := rfl
@[simp] theorem State.updSrc_inq (s : State) (n : Nat) (f : Source → Source) : (s.updSrc n f).inq = s.inq := rfl
@[simp] theorem State.updSrc_xl (s : State) (n : Nat) (f : Source → Source) : (s.updSrc n f).xl = s.xl := rfl
@[simp] theorem State.updSrc_plain (s : State) (n : Nat) (f : Source → Source) : (s.updSrc n f).plain = s.plain := rfl
@[simp] theorem State.updSrc_bel (s : State) (n : Nat) (f : Source → Source) : (s.updSrc n f).bel = s.bel := rfl
@[simp] theorem State.updSrc_tgt (s : State) (n : Nat) (f : Source → Source) : (s.updSrc n f).tgt = s.tgt := rfl
@[simp] theorem State.updSrc_pair (s : State) (n : Nat) (f : Source → Source) : (s.updSrc n f).pair = s.pair := rfl
@[simp] theorem State.updSrc_frame (s : State) (n : Nat) (f : Source → Source) : (s.updSrc n f).frame = s.frame := rfl
@[simp] theorem State.updSrc_grp (s : State) (n : Nat) (f : Source → Source) : (s.updSrc n f).grp = s.grp := rfl
@[simp] theorem State.updSrc_vt (s : State) (n : Nat) (f : Source → Source) : (s.updSrc n f).vt = s.vt := rfl
@[simp] theorem State.updSrc_ctx (s : State) (n : Nat) (f : Source → Source) : (s.updSrc n f).ctx = s.ctx := rfl
@[simp] theorem State.updSrc_log (s : State) (n : Nat) (f : Source → Source) : (s.updSrc n f).log = s.log := rfl
@[simp] theorem State.updSrc_logFull (s : State) (n : Nat) (f : Source → Source) : (s.updSrc n f).logFull = s.logFull := rfl
@[simp] theorem State.updSrc_links (s : State) (n : Nat) (f : Source → Source) : (s.updSrc n f).links = s.links := rfl
@[simp] theorem State.updSrc_partner (s : State) (n : Nat) (f : Source → Source) : (s.updSrc n f).partner = s.partner := rfl
@[simp] theorem State.updSrc_quads (s : State) (n : Nat) (f : Source → Source) : (s.updSrc n f).quads = s.quads := rfl
@[simp] theorem State.updSrc_lanes (s : State) (n : Nat) (f : Source → Source) : (s.updSrc n f).lanes = s.lanes := rfl
@[simp] theorem State.updSrc_camp (s : State) (n : Nat) (f : Source → Source) : (s.updSrc n f).camp = s.camp := rfl
@[simp] theorem State.updSrc_mbx (s : State) (n : Nat) (f : Source → Source) : (s.updSrc n f).mbx = s.mbx := rfl
@[simp] theorem State.updSrc_rat (s : State) (n : Nat) (f : Source → Source) : (s.updSrc n f).rat = s.rat := rfl
@[simp] theorem State.updSrc_mem (s : State) (n : Nat) (f : Source → Source) : (s.updSrc n f).mem = s.mem := rfl
@[simp] theorem State.updSrc_arb (s : State) (n : Nat) (f : Source → Source) : (s.updSrc n f).arb = s.arb := rfl
@[simp] theorem State.updSrc_cairn (s : State) (n : Nat) (f : Source → Source) : (s.updSrc n f).cairn = s.cairn := rfl
@[simp] theorem State.updSrc_wear (s : State) (n : Nat) (f : Source → Source) : (s.updSrc n f).wear = s.wear := rfl
@[simp] theorem State.updSrc_acc (s : State) (n : Nat) (f : Source → Source) : (s.updSrc n f).acc = s.acc := rfl
@[simp] theorem State.updSrc_cp (s : State) (n : Nat) (f : Source → Source) : (s.updSrc n f).cp = s.cp := rfl
@[simp] theorem State.updSrc_passAt (s : State) (n : Nat) (f : Source → Source) (k : Nat) : (s.updSrc n f).passAt k = s.passAt k := rfl
@[simp] theorem State.updSrc_plainAt (s : State) (n : Nat) (f : Source → Source) (k : Nat) : (s.updSrc n f).plainAt k = s.plainAt k := rfl
@[simp] theorem State.updSrc_belAt (s : State) (n : Nat) (f : Source → Source) (k : Nat) : (s.updSrc n f).belAt k = s.belAt k := rfl
@[simp] theorem State.updSrc_tgtAt (s : State) (n : Nat) (f : Source → Source) (k : Nat) : (s.updSrc n f).tgtAt k = s.tgtAt k := rfl
@[simp] theorem State.updSrc_pairAt (s : State) (n : Nat) (f : Source → Source) (k : Nat) : (s.updSrc n f).pairAt k = s.pairAt k := rfl
@[simp] theorem State.updSrc_frameAt (s : State) (n : Nat) (f : Source → Source) (k : Nat) : (s.updSrc n f).frameAt k = s.frameAt k := rfl
@[simp] theorem State.updSrc_grpAt (s : State) (n : Nat) (f : Source → Source) (k : Nat) : (s.updSrc n f).grpAt k = s.grpAt k := rfl
@[simp] theorem State.updSrc_vtAt (s : State) (n : Nat) (f : Source → Source) (k : Nat) : (s.updSrc n f).vtAt k = s.vtAt k := rfl
@[simp] theorem State.updSrc_ctxAt (s : State) (n : Nat) (f : Source → Source) (k : Nat) : (s.updSrc n f).ctxAt k = s.ctxAt k := rfl
@[simp] theorem State.updSrc_logAt (s : State) (n : Nat) (f : Source → Source) (k : Nat) : (s.updSrc n f).logAt k = s.logAt k := rfl
@[simp] theorem State.updSrc_linkAt (s : State) (n : Nat) (f : Source → Source) (k : Nat) : (s.updSrc n f).linkAt k = s.linkAt k := rfl
@[simp] theorem State.updSrc_quadAt (s : State) (n : Nat) (f : Source → Source) (k : Nat) : (s.updSrc n f).quadAt k = s.quadAt k := rfl
@[simp] theorem State.updSrc_laneAt (s : State) (n : Nat) (f : Source → Source) (k : Nat) : (s.updSrc n f).laneAt k = s.laneAt k := rfl
@[simp] theorem State.updSrc_mbxAt (s : State) (n : Nat) (f : Source → Source) (k : Nat) : (s.updSrc n f).mbxAt k = s.mbxAt k := rfl
@[simp] theorem State.updSrc_inqAt (s : State) (n : Nat) (f : Source → Source) (k : Nat) : (s.updSrc n f).inqAt k = s.inqAt k := rfl
@[simp] theorem State.updSrc_posAt (s : State) (n : Nat) (f : Source → Source) (k : Nat) : (s.updSrc n f).posAt k = s.posAt k := rfl
@[simp] theorem State.updSrc_ridgeAt (s : State) (n : Nat) (f : Source → Source) (k : Nat) : (s.updSrc n f).ridgeAt k = s.ridgeAt k := rfl
@[simp] theorem State.updSrc_ridgeOf (s : State) (n : Nat) (f : Source → Source) (k : Nat) : (s.updSrc n f).ridgeOf k = s.ridgeOf k := rfl
@[simp] theorem State.updSrc_arbAt (s : State) (n : Nat) (f : Source → Source) (k : Nat) : (s.updSrc n f).arbAt k = s.arbAt k := rfl
@[simp] theorem State.updSrc_running (s : State) (n : Nat) (f : Source → Source) : (s.updSrc n f).running = s.running := rfl
@[simp] theorem State.updSrc_linksAlive (s : State) (n : Nat) (f : Source → Source) : (s.updSrc n f).linksAlive = s.linksAlive := rfl
@[simp] theorem State.updSrc_aon (s : State) (n : Nat) (f : Source → Source) : (s.updSrc n f).aon = s.aon := rfl
@[simp] theorem State.updSrc_now48 (s : State) (n : Nat) (f : Source → Source) : (s.updSrc n f).now48 = s.now48 := rfl
@[simp] theorem State.updSrc_now32 (s : State) (n : Nat) (f : Source → Source) : (s.updSrc n f).now32 = s.now32 := rfl

@[simp] theorem State.updPos_pending (s : State) (n : Nat) (f : Pos → Pos) : (s.updPos n f).pending = s.pending := rfl
@[simp] theorem State.updPos_freeCtr (s : State) (n : Nat) (f : Pos → Pos) : (s.updPos n f).freeCtr = s.freeCtr := rfl
@[simp] theorem State.updPos_clk (s : State) (n : Nat) (f : Pos → Pos) : (s.updPos n f).clk = s.clk := rfl
@[simp] theorem State.updPos_straps (s : State) (n : Nat) (f : Pos → Pos) : (s.updPos n f).straps = s.straps := rfl
@[simp] theorem State.updPos_pwr (s : State) (n : Nat) (f : Pos → Pos) : (s.updPos n f).pwr = s.pwr := rfl
@[simp] theorem State.updPos_boot (s : State) (n : Nat) (f : Pos → Pos) : (s.updPos n f).boot = s.boot := rfl
@[simp] theorem State.updPos_rom (s : State) (n : Nat) (f : Pos → Pos) : (s.updPos n f).rom = s.rom := rfl
@[simp] theorem State.updPos_rope (s : State) (n : Nat) (f : Pos → Pos) : (s.updPos n f).rope = s.rope := rfl
@[simp] theorem State.updPos_wired (s : State) (n : Nat) (f : Pos → Pos) : (s.updPos n f).wired = s.wired := rfl
@[simp] theorem State.updPos_pass (s : State) (n : Nat) (f : Pos → Pos) : (s.updPos n f).pass = s.pass := rfl
@[simp] theorem State.updPos_door (s : State) (n : Nat) (f : Pos → Pos) : (s.updPos n f).door = s.door := rfl
@[simp] theorem State.updPos_inq (s : State) (n : Nat) (f : Pos → Pos) : (s.updPos n f).inq = s.inq := rfl
@[simp] theorem State.updPos_plain (s : State) (n : Nat) (f : Pos → Pos) : (s.updPos n f).plain = s.plain := rfl
@[simp] theorem State.updPos_bel (s : State) (n : Nat) (f : Pos → Pos) : (s.updPos n f).bel = s.bel := rfl
@[simp] theorem State.updPos_tgt (s : State) (n : Nat) (f : Pos → Pos) : (s.updPos n f).tgt = s.tgt := rfl
@[simp] theorem State.updPos_pair (s : State) (n : Nat) (f : Pos → Pos) : (s.updPos n f).pair = s.pair := rfl
@[simp] theorem State.updPos_frame (s : State) (n : Nat) (f : Pos → Pos) : (s.updPos n f).frame = s.frame := rfl
@[simp] theorem State.updPos_grp (s : State) (n : Nat) (f : Pos → Pos) : (s.updPos n f).grp = s.grp := rfl
@[simp] theorem State.updPos_vt (s : State) (n : Nat) (f : Pos → Pos) : (s.updPos n f).vt = s.vt := rfl
@[simp] theorem State.updPos_ctx (s : State) (n : Nat) (f : Pos → Pos) : (s.updPos n f).ctx = s.ctx := rfl
@[simp] theorem State.updPos_log (s : State) (n : Nat) (f : Pos → Pos) : (s.updPos n f).log = s.log := rfl
@[simp] theorem State.updPos_logFull (s : State) (n : Nat) (f : Pos → Pos) : (s.updPos n f).logFull = s.logFull := rfl
@[simp] theorem State.updPos_links (s : State) (n : Nat) (f : Pos → Pos) : (s.updPos n f).links = s.links := rfl
@[simp] theorem State.updPos_partner (s : State) (n : Nat) (f : Pos → Pos) : (s.updPos n f).partner = s.partner := rfl
@[simp] theorem State.updPos_quads (s : State) (n : Nat) (f : Pos → Pos) : (s.updPos n f).quads = s.quads := rfl
@[simp] theorem State.updPos_lanes (s : State) (n : Nat) (f : Pos → Pos) : (s.updPos n f).lanes = s.lanes := rfl
@[simp] theorem State.updPos_camp (s : State) (n : Nat) (f : Pos → Pos) : (s.updPos n f).camp = s.camp := rfl
@[simp] theorem State.updPos_mbx (s : State) (n : Nat) (f : Pos → Pos) : (s.updPos n f).mbx = s.mbx := rfl
@[simp] theorem State.updPos_rat (s : State) (n : Nat) (f : Pos → Pos) : (s.updPos n f).rat = s.rat := rfl
@[simp] theorem State.updPos_mem (s : State) (n : Nat) (f : Pos → Pos) : (s.updPos n f).mem = s.mem := rfl
@[simp] theorem State.updPos_arb (s : State) (n : Nat) (f : Pos → Pos) : (s.updPos n f).arb = s.arb := rfl
@[simp] theorem State.updPos_cairn (s : State) (n : Nat) (f : Pos → Pos) : (s.updPos n f).cairn = s.cairn := rfl
@[simp] theorem State.updPos_wear (s : State) (n : Nat) (f : Pos → Pos) : (s.updPos n f).wear = s.wear := rfl
@[simp] theorem State.updPos_acc (s : State) (n : Nat) (f : Pos → Pos) : (s.updPos n f).acc = s.acc := rfl
@[simp] theorem State.updPos_cp (s : State) (n : Nat) (f : Pos → Pos) : (s.updPos n f).cp = s.cp := rfl
@[simp] theorem State.updPos_passAt (s : State) (n : Nat) (f : Pos → Pos) (k : Nat) : (s.updPos n f).passAt k = s.passAt k := rfl
@[simp] theorem State.updPos_plainAt (s : State) (n : Nat) (f : Pos → Pos) (k : Nat) : (s.updPos n f).plainAt k = s.plainAt k := rfl
@[simp] theorem State.updPos_belAt (s : State) (n : Nat) (f : Pos → Pos) (k : Nat) : (s.updPos n f).belAt k = s.belAt k := rfl
@[simp] theorem State.updPos_tgtAt (s : State) (n : Nat) (f : Pos → Pos) (k : Nat) : (s.updPos n f).tgtAt k = s.tgtAt k := rfl
@[simp] theorem State.updPos_pairAt (s : State) (n : Nat) (f : Pos → Pos) (k : Nat) : (s.updPos n f).pairAt k = s.pairAt k := rfl
@[simp] theorem State.updPos_frameAt (s : State) (n : Nat) (f : Pos → Pos) (k : Nat) : (s.updPos n f).frameAt k = s.frameAt k := rfl
@[simp] theorem State.updPos_grpAt (s : State) (n : Nat) (f : Pos → Pos) (k : Nat) : (s.updPos n f).grpAt k = s.grpAt k := rfl
@[simp] theorem State.updPos_vtAt (s : State) (n : Nat) (f : Pos → Pos) (k : Nat) : (s.updPos n f).vtAt k = s.vtAt k := rfl
@[simp] theorem State.updPos_ctxAt (s : State) (n : Nat) (f : Pos → Pos) (k : Nat) : (s.updPos n f).ctxAt k = s.ctxAt k := rfl
@[simp] theorem State.updPos_logAt (s : State) (n : Nat) (f : Pos → Pos) (k : Nat) : (s.updPos n f).logAt k = s.logAt k := rfl
@[simp] theorem State.updPos_linkAt (s : State) (n : Nat) (f : Pos → Pos) (k : Nat) : (s.updPos n f).linkAt k = s.linkAt k := rfl
@[simp] theorem State.updPos_quadAt (s : State) (n : Nat) (f : Pos → Pos) (k : Nat) : (s.updPos n f).quadAt k = s.quadAt k := rfl
@[simp] theorem State.updPos_laneAt (s : State) (n : Nat) (f : Pos → Pos) (k : Nat) : (s.updPos n f).laneAt k = s.laneAt k := rfl
@[simp] theorem State.updPos_mbxAt (s : State) (n : Nat) (f : Pos → Pos) (k : Nat) : (s.updPos n f).mbxAt k = s.mbxAt k := rfl
@[simp] theorem State.updPos_inqAt (s : State) (n : Nat) (f : Pos → Pos) (k : Nat) : (s.updPos n f).inqAt k = s.inqAt k := rfl
@[simp] theorem State.updPos_srcAt (s : State) (n : Nat) (f : Pos → Pos) (k : Nat) : (s.updPos n f).srcAt k = s.srcAt k := rfl
@[simp] theorem State.updPos_bankAt (s : State) (n : Nat) (f : Pos → Pos) (k : Nat) : (s.updPos n f).bankAt k = s.bankAt k := rfl
@[simp] theorem State.updPos_arbAt (s : State) (n : Nat) (f : Pos → Pos) (k : Nat) : (s.updPos n f).arbAt k = s.arbAt k := rfl
@[simp] theorem State.updPos_running (s : State) (n : Nat) (f : Pos → Pos) : (s.updPos n f).running = s.running := rfl
@[simp] theorem State.updPos_linksAlive (s : State) (n : Nat) (f : Pos → Pos) : (s.updPos n f).linksAlive = s.linksAlive := rfl
@[simp] theorem State.updPos_aon (s : State) (n : Nat) (f : Pos → Pos) : (s.updPos n f).aon = s.aon := rfl
@[simp] theorem State.updPos_now48 (s : State) (n : Nat) (f : Pos → Pos) : (s.updPos n f).now48 = s.now48 := rfl
@[simp] theorem State.updPos_now32 (s : State) (n : Nat) (f : Pos → Pos) : (s.updPos n f).now32 = s.now32 := rfl

@[simp] theorem State.updRidge_pending (s : State) (n : Nat) (f : Ridge → Ridge) : (s.updRidge n f).pending = s.pending := rfl
@[simp] theorem State.updRidge_freeCtr (s : State) (n : Nat) (f : Ridge → Ridge) : (s.updRidge n f).freeCtr = s.freeCtr := rfl
@[simp] theorem State.updRidge_clk (s : State) (n : Nat) (f : Ridge → Ridge) : (s.updRidge n f).clk = s.clk := rfl
@[simp] theorem State.updRidge_straps (s : State) (n : Nat) (f : Ridge → Ridge) : (s.updRidge n f).straps = s.straps := rfl
@[simp] theorem State.updRidge_pwr (s : State) (n : Nat) (f : Ridge → Ridge) : (s.updRidge n f).pwr = s.pwr := rfl
@[simp] theorem State.updRidge_boot (s : State) (n : Nat) (f : Ridge → Ridge) : (s.updRidge n f).boot = s.boot := rfl
@[simp] theorem State.updRidge_rom (s : State) (n : Nat) (f : Ridge → Ridge) : (s.updRidge n f).rom = s.rom := rfl
@[simp] theorem State.updRidge_rope (s : State) (n : Nat) (f : Ridge → Ridge) : (s.updRidge n f).rope = s.rope := rfl
@[simp] theorem State.updRidge_wired (s : State) (n : Nat) (f : Ridge → Ridge) : (s.updRidge n f).wired = s.wired := rfl
@[simp] theorem State.updRidge_pass (s : State) (n : Nat) (f : Ridge → Ridge) : (s.updRidge n f).pass = s.pass := rfl
@[simp] theorem State.updRidge_door (s : State) (n : Nat) (f : Ridge → Ridge) : (s.updRidge n f).door = s.door := rfl
@[simp] theorem State.updRidge_inq (s : State) (n : Nat) (f : Ridge → Ridge) : (s.updRidge n f).inq = s.inq := rfl
@[simp] theorem State.updRidge_plain (s : State) (n : Nat) (f : Ridge → Ridge) : (s.updRidge n f).plain = s.plain := rfl
@[simp] theorem State.updRidge_bel (s : State) (n : Nat) (f : Ridge → Ridge) : (s.updRidge n f).bel = s.bel := rfl
@[simp] theorem State.updRidge_tgt (s : State) (n : Nat) (f : Ridge → Ridge) : (s.updRidge n f).tgt = s.tgt := rfl
@[simp] theorem State.updRidge_pair (s : State) (n : Nat) (f : Ridge → Ridge) : (s.updRidge n f).pair = s.pair := rfl
@[simp] theorem State.updRidge_frame (s : State) (n : Nat) (f : Ridge → Ridge) : (s.updRidge n f).frame = s.frame := rfl
@[simp] theorem State.updRidge_grp (s : State) (n : Nat) (f : Ridge → Ridge) : (s.updRidge n f).grp = s.grp := rfl
@[simp] theorem State.updRidge_vt (s : State) (n : Nat) (f : Ridge → Ridge) : (s.updRidge n f).vt = s.vt := rfl
@[simp] theorem State.updRidge_ctx (s : State) (n : Nat) (f : Ridge → Ridge) : (s.updRidge n f).ctx = s.ctx := rfl
@[simp] theorem State.updRidge_log (s : State) (n : Nat) (f : Ridge → Ridge) : (s.updRidge n f).log = s.log := rfl
@[simp] theorem State.updRidge_logFull (s : State) (n : Nat) (f : Ridge → Ridge) : (s.updRidge n f).logFull = s.logFull := rfl
@[simp] theorem State.updRidge_links (s : State) (n : Nat) (f : Ridge → Ridge) : (s.updRidge n f).links = s.links := rfl
@[simp] theorem State.updRidge_partner (s : State) (n : Nat) (f : Ridge → Ridge) : (s.updRidge n f).partner = s.partner := rfl
@[simp] theorem State.updRidge_quads (s : State) (n : Nat) (f : Ridge → Ridge) : (s.updRidge n f).quads = s.quads := rfl
@[simp] theorem State.updRidge_lanes (s : State) (n : Nat) (f : Ridge → Ridge) : (s.updRidge n f).lanes = s.lanes := rfl
@[simp] theorem State.updRidge_camp (s : State) (n : Nat) (f : Ridge → Ridge) : (s.updRidge n f).camp = s.camp := rfl
@[simp] theorem State.updRidge_mbx (s : State) (n : Nat) (f : Ridge → Ridge) : (s.updRidge n f).mbx = s.mbx := rfl
@[simp] theorem State.updRidge_rat (s : State) (n : Nat) (f : Ridge → Ridge) : (s.updRidge n f).rat = s.rat := rfl
@[simp] theorem State.updRidge_mem (s : State) (n : Nat) (f : Ridge → Ridge) : (s.updRidge n f).mem = s.mem := rfl
@[simp] theorem State.updRidge_arb (s : State) (n : Nat) (f : Ridge → Ridge) : (s.updRidge n f).arb = s.arb := rfl
@[simp] theorem State.updRidge_cairn (s : State) (n : Nat) (f : Ridge → Ridge) : (s.updRidge n f).cairn = s.cairn := rfl
@[simp] theorem State.updRidge_wear (s : State) (n : Nat) (f : Ridge → Ridge) : (s.updRidge n f).wear = s.wear := rfl
@[simp] theorem State.updRidge_acc (s : State) (n : Nat) (f : Ridge → Ridge) : (s.updRidge n f).acc = s.acc := rfl
@[simp] theorem State.updRidge_cp (s : State) (n : Nat) (f : Ridge → Ridge) : (s.updRidge n f).cp = s.cp := rfl
@[simp] theorem State.updRidge_passAt (s : State) (n : Nat) (f : Ridge → Ridge) (k : Nat) : (s.updRidge n f).passAt k = s.passAt k := rfl
@[simp] theorem State.updRidge_plainAt (s : State) (n : Nat) (f : Ridge → Ridge) (k : Nat) : (s.updRidge n f).plainAt k = s.plainAt k := rfl
@[simp] theorem State.updRidge_belAt (s : State) (n : Nat) (f : Ridge → Ridge) (k : Nat) : (s.updRidge n f).belAt k = s.belAt k := rfl
@[simp] theorem State.updRidge_tgtAt (s : State) (n : Nat) (f : Ridge → Ridge) (k : Nat) : (s.updRidge n f).tgtAt k = s.tgtAt k := rfl
@[simp] theorem State.updRidge_pairAt (s : State) (n : Nat) (f : Ridge → Ridge) (k : Nat) : (s.updRidge n f).pairAt k = s.pairAt k := rfl
@[simp] theorem State.updRidge_frameAt (s : State) (n : Nat) (f : Ridge → Ridge) (k : Nat) : (s.updRidge n f).frameAt k = s.frameAt k := rfl
@[simp] theorem State.updRidge_grpAt (s : State) (n : Nat) (f : Ridge → Ridge) (k : Nat) : (s.updRidge n f).grpAt k = s.grpAt k := rfl
@[simp] theorem State.updRidge_vtAt (s : State) (n : Nat) (f : Ridge → Ridge) (k : Nat) : (s.updRidge n f).vtAt k = s.vtAt k := rfl
@[simp] theorem State.updRidge_ctxAt (s : State) (n : Nat) (f : Ridge → Ridge) (k : Nat) : (s.updRidge n f).ctxAt k = s.ctxAt k := rfl
@[simp] theorem State.updRidge_logAt (s : State) (n : Nat) (f : Ridge → Ridge) (k : Nat) : (s.updRidge n f).logAt k = s.logAt k := rfl
@[simp] theorem State.updRidge_linkAt (s : State) (n : Nat) (f : Ridge → Ridge) (k : Nat) : (s.updRidge n f).linkAt k = s.linkAt k := rfl
@[simp] theorem State.updRidge_quadAt (s : State) (n : Nat) (f : Ridge → Ridge) (k : Nat) : (s.updRidge n f).quadAt k = s.quadAt k := rfl
@[simp] theorem State.updRidge_laneAt (s : State) (n : Nat) (f : Ridge → Ridge) (k : Nat) : (s.updRidge n f).laneAt k = s.laneAt k := rfl
@[simp] theorem State.updRidge_mbxAt (s : State) (n : Nat) (f : Ridge → Ridge) (k : Nat) : (s.updRidge n f).mbxAt k = s.mbxAt k := rfl
@[simp] theorem State.updRidge_inqAt (s : State) (n : Nat) (f : Ridge → Ridge) (k : Nat) : (s.updRidge n f).inqAt k = s.inqAt k := rfl
@[simp] theorem State.updRidge_srcAt (s : State) (n : Nat) (f : Ridge → Ridge) (k : Nat) : (s.updRidge n f).srcAt k = s.srcAt k := rfl
@[simp] theorem State.updRidge_bankAt (s : State) (n : Nat) (f : Ridge → Ridge) (k : Nat) : (s.updRidge n f).bankAt k = s.bankAt k := rfl
@[simp] theorem State.updRidge_arbAt (s : State) (n : Nat) (f : Ridge → Ridge) (k : Nat) : (s.updRidge n f).arbAt k = s.arbAt k := rfl
@[simp] theorem State.updRidge_running (s : State) (n : Nat) (f : Ridge → Ridge) : (s.updRidge n f).running = s.running := rfl
@[simp] theorem State.updRidge_linksAlive (s : State) (n : Nat) (f : Ridge → Ridge) : (s.updRidge n f).linksAlive = s.linksAlive := rfl
@[simp] theorem State.updRidge_aon (s : State) (n : Nat) (f : Ridge → Ridge) : (s.updRidge n f).aon = s.aon := rfl
@[simp] theorem State.updRidge_now48 (s : State) (n : Nat) (f : Ridge → Ridge) : (s.updRidge n f).now48 = s.now48 := rfl
@[simp] theorem State.updRidge_now32 (s : State) (n : Nat) (f : Ridge → Ridge) : (s.updRidge n f).now32 = s.now32 := rfl

@[simp] theorem State.updArb_pending (s : State) (n : Nat) (f : ArbReq → ArbReq) : (s.updArb n f).pending = s.pending := rfl
@[simp] theorem State.updArb_freeCtr (s : State) (n : Nat) (f : ArbReq → ArbReq) : (s.updArb n f).freeCtr = s.freeCtr := rfl
@[simp] theorem State.updArb_clk (s : State) (n : Nat) (f : ArbReq → ArbReq) : (s.updArb n f).clk = s.clk := rfl
@[simp] theorem State.updArb_straps (s : State) (n : Nat) (f : ArbReq → ArbReq) : (s.updArb n f).straps = s.straps := rfl
@[simp] theorem State.updArb_pwr (s : State) (n : Nat) (f : ArbReq → ArbReq) : (s.updArb n f).pwr = s.pwr := rfl
@[simp] theorem State.updArb_boot (s : State) (n : Nat) (f : ArbReq → ArbReq) : (s.updArb n f).boot = s.boot := rfl
@[simp] theorem State.updArb_rom (s : State) (n : Nat) (f : ArbReq → ArbReq) : (s.updArb n f).rom = s.rom := rfl
@[simp] theorem State.updArb_rope (s : State) (n : Nat) (f : ArbReq → ArbReq) : (s.updArb n f).rope = s.rope := rfl
@[simp] theorem State.updArb_wired (s : State) (n : Nat) (f : ArbReq → ArbReq) : (s.updArb n f).wired = s.wired := rfl
@[simp] theorem State.updArb_pass (s : State) (n : Nat) (f : ArbReq → ArbReq) : (s.updArb n f).pass = s.pass := rfl
@[simp] theorem State.updArb_door (s : State) (n : Nat) (f : ArbReq → ArbReq) : (s.updArb n f).door = s.door := rfl
@[simp] theorem State.updArb_inq (s : State) (n : Nat) (f : ArbReq → ArbReq) : (s.updArb n f).inq = s.inq := rfl
@[simp] theorem State.updArb_xl (s : State) (n : Nat) (f : ArbReq → ArbReq) : (s.updArb n f).xl = s.xl := rfl
@[simp] theorem State.updArb_plain (s : State) (n : Nat) (f : ArbReq → ArbReq) : (s.updArb n f).plain = s.plain := rfl
@[simp] theorem State.updArb_bel (s : State) (n : Nat) (f : ArbReq → ArbReq) : (s.updArb n f).bel = s.bel := rfl
@[simp] theorem State.updArb_tgt (s : State) (n : Nat) (f : ArbReq → ArbReq) : (s.updArb n f).tgt = s.tgt := rfl
@[simp] theorem State.updArb_pair (s : State) (n : Nat) (f : ArbReq → ArbReq) : (s.updArb n f).pair = s.pair := rfl
@[simp] theorem State.updArb_frame (s : State) (n : Nat) (f : ArbReq → ArbReq) : (s.updArb n f).frame = s.frame := rfl
@[simp] theorem State.updArb_grp (s : State) (n : Nat) (f : ArbReq → ArbReq) : (s.updArb n f).grp = s.grp := rfl
@[simp] theorem State.updArb_vt (s : State) (n : Nat) (f : ArbReq → ArbReq) : (s.updArb n f).vt = s.vt := rfl
@[simp] theorem State.updArb_ctx (s : State) (n : Nat) (f : ArbReq → ArbReq) : (s.updArb n f).ctx = s.ctx := rfl
@[simp] theorem State.updArb_log (s : State) (n : Nat) (f : ArbReq → ArbReq) : (s.updArb n f).log = s.log := rfl
@[simp] theorem State.updArb_logFull (s : State) (n : Nat) (f : ArbReq → ArbReq) : (s.updArb n f).logFull = s.logFull := rfl
@[simp] theorem State.updArb_links (s : State) (n : Nat) (f : ArbReq → ArbReq) : (s.updArb n f).links = s.links := rfl
@[simp] theorem State.updArb_partner (s : State) (n : Nat) (f : ArbReq → ArbReq) : (s.updArb n f).partner = s.partner := rfl
@[simp] theorem State.updArb_quads (s : State) (n : Nat) (f : ArbReq → ArbReq) : (s.updArb n f).quads = s.quads := rfl
@[simp] theorem State.updArb_lanes (s : State) (n : Nat) (f : ArbReq → ArbReq) : (s.updArb n f).lanes = s.lanes := rfl
@[simp] theorem State.updArb_camp (s : State) (n : Nat) (f : ArbReq → ArbReq) : (s.updArb n f).camp = s.camp := rfl
@[simp] theorem State.updArb_mbx (s : State) (n : Nat) (f : ArbReq → ArbReq) : (s.updArb n f).mbx = s.mbx := rfl
@[simp] theorem State.updArb_rat (s : State) (n : Nat) (f : ArbReq → ArbReq) : (s.updArb n f).rat = s.rat := rfl
@[simp] theorem State.updArb_mem (s : State) (n : Nat) (f : ArbReq → ArbReq) : (s.updArb n f).mem = s.mem := rfl
@[simp] theorem State.updArb_cairn (s : State) (n : Nat) (f : ArbReq → ArbReq) : (s.updArb n f).cairn = s.cairn := rfl
@[simp] theorem State.updArb_wear (s : State) (n : Nat) (f : ArbReq → ArbReq) : (s.updArb n f).wear = s.wear := rfl
@[simp] theorem State.updArb_acc (s : State) (n : Nat) (f : ArbReq → ArbReq) : (s.updArb n f).acc = s.acc := rfl
@[simp] theorem State.updArb_cp (s : State) (n : Nat) (f : ArbReq → ArbReq) : (s.updArb n f).cp = s.cp := rfl
@[simp] theorem State.updArb_passAt (s : State) (n : Nat) (f : ArbReq → ArbReq) (k : Nat) : (s.updArb n f).passAt k = s.passAt k := rfl
@[simp] theorem State.updArb_plainAt (s : State) (n : Nat) (f : ArbReq → ArbReq) (k : Nat) : (s.updArb n f).plainAt k = s.plainAt k := rfl
@[simp] theorem State.updArb_belAt (s : State) (n : Nat) (f : ArbReq → ArbReq) (k : Nat) : (s.updArb n f).belAt k = s.belAt k := rfl
@[simp] theorem State.updArb_tgtAt (s : State) (n : Nat) (f : ArbReq → ArbReq) (k : Nat) : (s.updArb n f).tgtAt k = s.tgtAt k := rfl
@[simp] theorem State.updArb_pairAt (s : State) (n : Nat) (f : ArbReq → ArbReq) (k : Nat) : (s.updArb n f).pairAt k = s.pairAt k := rfl
@[simp] theorem State.updArb_frameAt (s : State) (n : Nat) (f : ArbReq → ArbReq) (k : Nat) : (s.updArb n f).frameAt k = s.frameAt k := rfl
@[simp] theorem State.updArb_grpAt (s : State) (n : Nat) (f : ArbReq → ArbReq) (k : Nat) : (s.updArb n f).grpAt k = s.grpAt k := rfl
@[simp] theorem State.updArb_vtAt (s : State) (n : Nat) (f : ArbReq → ArbReq) (k : Nat) : (s.updArb n f).vtAt k = s.vtAt k := rfl
@[simp] theorem State.updArb_ctxAt (s : State) (n : Nat) (f : ArbReq → ArbReq) (k : Nat) : (s.updArb n f).ctxAt k = s.ctxAt k := rfl
@[simp] theorem State.updArb_logAt (s : State) (n : Nat) (f : ArbReq → ArbReq) (k : Nat) : (s.updArb n f).logAt k = s.logAt k := rfl
@[simp] theorem State.updArb_linkAt (s : State) (n : Nat) (f : ArbReq → ArbReq) (k : Nat) : (s.updArb n f).linkAt k = s.linkAt k := rfl
@[simp] theorem State.updArb_quadAt (s : State) (n : Nat) (f : ArbReq → ArbReq) (k : Nat) : (s.updArb n f).quadAt k = s.quadAt k := rfl
@[simp] theorem State.updArb_laneAt (s : State) (n : Nat) (f : ArbReq → ArbReq) (k : Nat) : (s.updArb n f).laneAt k = s.laneAt k := rfl
@[simp] theorem State.updArb_mbxAt (s : State) (n : Nat) (f : ArbReq → ArbReq) (k : Nat) : (s.updArb n f).mbxAt k = s.mbxAt k := rfl
@[simp] theorem State.updArb_inqAt (s : State) (n : Nat) (f : ArbReq → ArbReq) (k : Nat) : (s.updArb n f).inqAt k = s.inqAt k := rfl
@[simp] theorem State.updArb_srcAt (s : State) (n : Nat) (f : ArbReq → ArbReq) (k : Nat) : (s.updArb n f).srcAt k = s.srcAt k := rfl
@[simp] theorem State.updArb_bankAt (s : State) (n : Nat) (f : ArbReq → ArbReq) (k : Nat) : (s.updArb n f).bankAt k = s.bankAt k := rfl
@[simp] theorem State.updArb_posAt (s : State) (n : Nat) (f : ArbReq → ArbReq) (k : Nat) : (s.updArb n f).posAt k = s.posAt k := rfl
@[simp] theorem State.updArb_ridgeAt (s : State) (n : Nat) (f : ArbReq → ArbReq) (k : Nat) : (s.updArb n f).ridgeAt k = s.ridgeAt k := rfl
@[simp] theorem State.updArb_ridgeOf (s : State) (n : Nat) (f : ArbReq → ArbReq) (k : Nat) : (s.updArb n f).ridgeOf k = s.ridgeOf k := rfl
@[simp] theorem State.updArb_running (s : State) (n : Nat) (f : ArbReq → ArbReq) : (s.updArb n f).running = s.running := rfl
@[simp] theorem State.updArb_linksAlive (s : State) (n : Nat) (f : ArbReq → ArbReq) : (s.updArb n f).linksAlive = s.linksAlive := rfl
@[simp] theorem State.updArb_aon (s : State) (n : Nat) (f : ArbReq → ArbReq) : (s.updArb n f).aon = s.aon := rfl
@[simp] theorem State.updArb_now48 (s : State) (n : Nat) (f : ArbReq → ArbReq) : (s.updArb n f).now48 = s.now48 := rfl
@[simp] theorem State.updArb_now32 (s : State) (n : Nat) (f : ArbReq → ArbReq) : (s.updArb n f).now32 = s.now32 := rfl

@[simp] theorem State.updPass_passAt_same (s : State) (n : Nat) (f : PassPort → PassPort) : (s.updPass n f).passAt n = f (s.passAt n) := Tbl.get_upd_same _ _ _ _
theorem State.updPass_passAt_other (s : State) (n : Nat) (f : PassPort → PassPort) {k : Nat} (h : k ≠ n) : (s.updPass n f).passAt k = s.passAt k := Tbl.get_upd_other _ _ _ h
theorem State.updPass_passAt (s : State) (n : Nat) (f : PassPort → PassPort) (k : Nat) : (s.updPass n f).passAt k = if k = n then f (s.passAt n) else s.passAt k := Tbl.get_upd _ _ _ _ _
@[simp] theorem State.updPlain_plainAt_same (s : State) (n : Nat) (f : PathCopy → PathCopy) : (s.updPlain n f).plainAt n = f (s.plainAt n) := Tbl.get_upd_same _ _ _ _
theorem State.updPlain_plainAt_other (s : State) (n : Nat) (f : PathCopy → PathCopy) {k : Nat} (h : k ≠ n) : (s.updPlain n f).plainAt k = s.plainAt k := Tbl.get_upd_other _ _ _ h
theorem State.updPlain_plainAt (s : State) (n : Nat) (f : PathCopy → PathCopy) (k : Nat) : (s.updPlain n f).plainAt k = if k = n then f (s.plainAt n) else s.plainAt k := Tbl.get_upd _ _ _ _ _
@[simp] theorem State.updBel_belAt_same (s : State) (n : Nat) (f : Belay → Belay) : (s.updBel n f).belAt n = f (s.belAt n) := Tbl.get_upd_same _ _ _ _
theorem State.updBel_belAt_other (s : State) (n : Nat) (f : Belay → Belay) {k : Nat} (h : k ≠ n) : (s.updBel n f).belAt k = s.belAt k := Tbl.get_upd_other _ _ _ h
theorem State.updBel_belAt (s : State) (n : Nat) (f : Belay → Belay) (k : Nat) : (s.updBel n f).belAt k = if k = n then f (s.belAt n) else s.belAt k := Tbl.get_upd _ _ _ _ _
@[simp] theorem State.updTgt_tgtAt_same (s : State) (n : Nat) (f : Target → Target) : (s.updTgt n f).tgtAt n = f (s.tgtAt n) := Tbl.get_upd_same _ _ _ _
theorem State.updTgt_tgtAt_other (s : State) (n : Nat) (f : Target → Target) {k : Nat} (h : k ≠ n) : (s.updTgt n f).tgtAt k = s.tgtAt k := Tbl.get_upd_other _ _ _ h
theorem State.updTgt_tgtAt (s : State) (n : Nat) (f : Target → Target) (k : Nat) : (s.updTgt n f).tgtAt k = if k = n then f (s.tgtAt n) else s.tgtAt k := Tbl.get_upd _ _ _ _ _
@[simp] theorem State.updPair_pairAt_same (s : State) (n : Nat) (f : Pair → Pair) : (s.updPair n f).pairAt n = f (s.pairAt n) := Tbl.get_upd_same _ _ _ _
theorem State.updPair_pairAt_other (s : State) (n : Nat) (f : Pair → Pair) {k : Nat} (h : k ≠ n) : (s.updPair n f).pairAt k = s.pairAt k := Tbl.get_upd_other _ _ _ h
theorem State.updPair_pairAt (s : State) (n : Nat) (f : Pair → Pair) (k : Nat) : (s.updPair n f).pairAt k = if k = n then f (s.pairAt n) else s.pairAt k := Tbl.get_upd _ _ _ _ _
@[simp] theorem State.updFrame_frameAt_same (s : State) (n : Nat) (f : Frame → Frame) : (s.updFrame n f).frameAt n = f (s.frameAt n) := Tbl.get_upd_same _ _ _ _
theorem State.updFrame_frameAt_other (s : State) (n : Nat) (f : Frame → Frame) {k : Nat} (h : k ≠ n) : (s.updFrame n f).frameAt k = s.frameAt k := Tbl.get_upd_other _ _ _ h
theorem State.updFrame_frameAt (s : State) (n : Nat) (f : Frame → Frame) (k : Nat) : (s.updFrame n f).frameAt k = if k = n then f (s.frameAt n) else s.frameAt k := Tbl.get_upd _ _ _ _ _
@[simp] theorem State.updGrp_grpAt_same (s : State) (n : Nat) (f : Group → Group) : (s.updGrp n f).grpAt n = f (s.grpAt n) := Tbl.get_upd_same _ _ _ _
theorem State.updGrp_grpAt_other (s : State) (n : Nat) (f : Group → Group) {k : Nat} (h : k ≠ n) : (s.updGrp n f).grpAt k = s.grpAt k := Tbl.get_upd_other _ _ _ h
theorem State.updGrp_grpAt (s : State) (n : Nat) (f : Group → Group) (k : Nat) : (s.updGrp n f).grpAt k = if k = n then f (s.grpAt n) else s.grpAt k := Tbl.get_upd _ _ _ _ _
@[simp] theorem State.updVt_vtAt_same (s : State) (n : Nat) (f : Vt → Vt) : (s.updVt n f).vtAt n = f (s.vtAt n) := Tbl.get_upd_same _ _ _ _
theorem State.updVt_vtAt_other (s : State) (n : Nat) (f : Vt → Vt) {k : Nat} (h : k ≠ n) : (s.updVt n f).vtAt k = s.vtAt k := Tbl.get_upd_other _ _ _ h
theorem State.updVt_vtAt (s : State) (n : Nat) (f : Vt → Vt) (k : Nat) : (s.updVt n f).vtAt k = if k = n then f (s.vtAt n) else s.vtAt k := Tbl.get_upd _ _ _ _ _
@[simp] theorem State.updCtx_ctxAt_same (s : State) (n : Nat) (f : Ctx → Ctx) : (s.updCtx n f).ctxAt n = f (s.ctxAt n) := Tbl.get_upd_same _ _ _ _
theorem State.updCtx_ctxAt_other (s : State) (n : Nat) (f : Ctx → Ctx) {k : Nat} (h : k ≠ n) : (s.updCtx n f).ctxAt k = s.ctxAt k := Tbl.get_upd_other _ _ _ h
theorem State.updCtx_ctxAt (s : State) (n : Nat) (f : Ctx → Ctx) (k : Nat) : (s.updCtx n f).ctxAt k = if k = n then f (s.ctxAt n) else s.ctxAt k := Tbl.get_upd _ _ _ _ _
@[simp] theorem State.updLog_logAt_same (s : State) (n : Nat) (f : LogEntry → LogEntry) : (s.updLog n f).logAt n = f (s.logAt n) := Tbl.get_upd_same _ _ _ _
theorem State.updLog_logAt_other (s : State) (n : Nat) (f : LogEntry → LogEntry) {k : Nat} (h : k ≠ n) : (s.updLog n f).logAt k = s.logAt k := Tbl.get_upd_other _ _ _ h
theorem State.updLog_logAt (s : State) (n : Nat) (f : LogEntry → LogEntry) (k : Nat) : (s.updLog n f).logAt k = if k = n then f (s.logAt n) else s.logAt k := Tbl.get_upd _ _ _ _ _
@[simp] theorem State.updLink_linkAt_same (s : State) (n : Nat) (f : Link → Link) : (s.updLink n f).linkAt n = f (s.linkAt n) := Tbl.get_upd_same _ _ _ _
theorem State.updLink_linkAt_other (s : State) (n : Nat) (f : Link → Link) {k : Nat} (h : k ≠ n) : (s.updLink n f).linkAt k = s.linkAt k := Tbl.get_upd_other _ _ _ h
theorem State.updLink_linkAt (s : State) (n : Nat) (f : Link → Link) (k : Nat) : (s.updLink n f).linkAt k = if k = n then f (s.linkAt n) else s.linkAt k := Tbl.get_upd _ _ _ _ _
@[simp] theorem State.updQuad_quadAt_same (s : State) (n : Nat) (f : Quad → Quad) : (s.updQuad n f).quadAt n = f (s.quadAt n) := Tbl.get_upd_same _ _ _ _
theorem State.updQuad_quadAt_other (s : State) (n : Nat) (f : Quad → Quad) {k : Nat} (h : k ≠ n) : (s.updQuad n f).quadAt k = s.quadAt k := Tbl.get_upd_other _ _ _ h
theorem State.updQuad_quadAt (s : State) (n : Nat) (f : Quad → Quad) (k : Nat) : (s.updQuad n f).quadAt k = if k = n then f (s.quadAt n) else s.quadAt k := Tbl.get_upd _ _ _ _ _
@[simp] theorem State.updLane_laneAt_same (s : State) (n : Nat) (f : Lane → Lane) : (s.updLane n f).laneAt n = f (s.laneAt n) := Tbl.get_upd_same _ _ _ _
theorem State.updLane_laneAt_other (s : State) (n : Nat) (f : Lane → Lane) {k : Nat} (h : k ≠ n) : (s.updLane n f).laneAt k = s.laneAt k := Tbl.get_upd_other _ _ _ h
theorem State.updLane_laneAt (s : State) (n : Nat) (f : Lane → Lane) (k : Nat) : (s.updLane n f).laneAt k = if k = n then f (s.laneAt n) else s.laneAt k := Tbl.get_upd _ _ _ _ _
@[simp] theorem State.updMbx_mbxAt_same (s : State) (n : Nat) (f : Mbox → Mbox) : (s.updMbx n f).mbxAt n = f (s.mbxAt n) := Tbl.get_upd_same _ _ _ _
theorem State.updMbx_mbxAt_other (s : State) (n : Nat) (f : Mbox → Mbox) {k : Nat} (h : k ≠ n) : (s.updMbx n f).mbxAt k = s.mbxAt k := Tbl.get_upd_other _ _ _ h
theorem State.updMbx_mbxAt (s : State) (n : Nat) (f : Mbox → Mbox) (k : Nat) : (s.updMbx n f).mbxAt k = if k = n then f (s.mbxAt n) else s.mbxAt k := Tbl.get_upd _ _ _ _ _
@[simp] theorem State.updInq_inqAt_same (s : State) (n : Nat) (f : List Rec → List Rec) : (s.updInq n f).inqAt n = f (s.inqAt n) := Tbl.get_upd_same _ _ _ _
theorem State.updInq_inqAt_other (s : State) (n : Nat) (f : List Rec → List Rec) {k : Nat} (h : k ≠ n) : (s.updInq n f).inqAt k = s.inqAt k := Tbl.get_upd_other _ _ _ h
theorem State.updInq_inqAt (s : State) (n : Nat) (f : List Rec → List Rec) (k : Nat) : (s.updInq n f).inqAt k = if k = n then f (s.inqAt n) else s.inqAt k := Tbl.get_upd _ _ _ _ _

@[simp] theorem State.updSrc_srcAt_same (s : State) (n : Nat) (f : Source → Source) : (s.updSrc n f).srcAt n = f (s.srcAt n) := Tbl.get_upd_same _ _ _ _
theorem State.updSrc_srcAt_other (s : State) (n : Nat) (f : Source → Source) {k : Nat} (h : k ≠ n) : (s.updSrc n f).srcAt k = s.srcAt k := Tbl.get_upd_other _ _ _ h
theorem State.updSrc_srcAt (s : State) (n : Nat) (f : Source → Source) (k : Nat) : (s.updSrc n f).srcAt k = if k = n then f (s.srcAt n) else s.srcAt k := Tbl.get_upd _ _ _ _ _
@[simp] theorem State.updSrc_bankAt (s : State) (n : Nat) (f : Source → Source) (k : Nat) : (s.updSrc n f).bankAt k = s.bankAt k := rfl
@[simp] theorem State.updSrc_wired_bank (s : State) (n : Nat) (f : Source → Source) : (s.updSrc n f).wired.bank = s.wired.bank := rfl
@[simp] theorem State.updSrc_wired_waiting (s : State) (n : Nat) (f : Source → Source) : (s.updSrc n f).wired.waiting = s.wired.waiting := rfl
@[simp] theorem State.updSrc_wired_live (s : State) (n : Nat) (f : Source → Source) : (s.updSrc n f).wired.live = s.wired.live := rfl
@[simp] theorem State.modClk_clk (s : State) (f : Clocks → Clocks) : (s.modClk f).clk = f s.clk := rfl
@[simp] theorem State.modPwr_pwr (s : State) (f : Power → Power) : (s.modPwr f).pwr = f s.pwr := rfl
@[simp] theorem State.modBoot_boot (s : State) (f : Boot → Boot) : (s.modBoot f).boot = f s.boot := rfl
@[simp] theorem State.modRope_rope (s : State) (f : Rope → Rope) : (s.modRope f).rope = f s.rope := rfl
@[simp] theorem State.modWired_wired (s : State) (f : Wired → Wired) : (s.modWired f).wired = f s.wired := rfl
@[simp] theorem State.modDoor_door (s : State) (f : Door → Door) : (s.modDoor f).door = f s.door := rfl
@[simp] theorem State.modXl_xl (s : State) (f : Xlat → Xlat) : (s.modXl f).xl = f s.xl := rfl
@[simp] theorem State.modPartner_partner (s : State) (f : Partner → Partner) : (s.modPartner f).partner = f s.partner := rfl
@[simp] theorem State.modCamp_camp (s : State) (f : Camp → Camp) : (s.modCamp f).camp = f s.camp := rfl
@[simp] theorem State.modRat_rat (s : State) (f : Rations → Rations) : (s.modRat f).rat = f s.rat := rfl
@[simp] theorem State.modMem_mem (s : State) (f : Mem → Mem) : (s.modMem f).mem = f s.mem := rfl
@[simp] theorem State.modArb_arb (s : State) (f : Arb → Arb) : (s.modArb f).arb = f s.arb := rfl
@[simp] theorem State.modCairn_cairn (s : State) (f : Cairns → Cairns) : (s.modCairn f).cairn = f s.cairn := rfl
@[simp] theorem State.modWear_wear (s : State) (f : Wear → Wear) : (s.modWear f).wear = f s.wear := rfl
@[simp] theorem State.modAcc_acc (s : State) (f : AccessCheck → AccessCheck) : (s.modAcc f).acc = f s.acc := rfl
@[simp] theorem State.modCp_cp (s : State) (f : ControlPort → ControlPort) : (s.modCp f).cp = f s.cp := rfl

theorem updList_getD {α : Type} (f : α → α) (d : α) (l : List α) (n k : Nat) (h : n < l.length) :
    (updList f l n).getD k d = if k = n then f (l.getD n d) else l.getD k d := by
  induction l generalizing n k with
  | nil => simp at h
  | cons a as ih =>
    cases n with
    | zero => cases k <;> simp [updList]
    | succ n =>
      cases k with
      | zero => simp [updList]
      | succ k => simpa [updList] using ih n k (by simpa using h)

@[simp] theorem updList_length {α : Type} (f : α → α) (l : List α) (n : Nat) : (updList f l n).length = l.length := by
  induction l generalizing n with
  | nil => rfl
  | cons a as ih => cases n <;> simp [updList, ih]

/-- A position read after a position is changed, where the list has the position. -/
theorem State.updPos_posAt (s : State) (n : Nat) (f : Pos → Pos) (k : Nat) (h : n < s.xl.pos.length) :
    (s.updPos n f).posAt k = if k = n then f (s.posAt n) else s.posAt k := updList_getD f Pos.reset s.xl.pos n k h

end Sys2Proof.Machine
end

