-- ==== Sys2Proof/Laws/Ops.lean ====
section
/-! SUPPORT. What each shared operation can do: which parts of the state it may change, said once. -/

namespace Sys2Proof.Machine

theorem State.countFault_frame (s : State) (c k : BitVec 8) (u : BitVec 16) (v : BitVec 2) :
    s.countFault c k u v = { s with cairn := (s.countFault c k u v).cairn } := by
  unfold State.countFault; split <;> rfl

theorem State.countFault_minor (s : State) (c k : BitVec 8) (u : BitVec 16) (v : BitVec 2) (h : v ≠ 2) : s.countFault c k u v = s := by
  simp only [State.countFault, countsAsFault, beq_eq_false_iff_ne.mpr h, Bool.false_and, Bool.false_eq_true, if_false]

theorem State.queueReport_frame (s : State) (b : Reporter) (r : Report) :
    s.queueReport b r = { s with cairn := (s.queueReport b r).cairn } := by
  unfold State.queueReport; (repeat' split) <;> rfl

/-- A report whose key nothing waiting has, with room in the queue, is the queue's last. -/
theorem State.queueReport_room (s : State) (n : Nat) (r : Report) (hk : (s.cairn.queue.any fun q => q.sameKey r) = false)
    (hl : s.cairn.queue.length < 64) :
    s.queueReport (.other n) r = { s with cairn := { s.cairn with queue := s.cairn.queue ++ [r] } } := by
  simp [State.queueReport, hk, hl, State.faultMasked]

/-- A report of a unit without a FAULT ration changes the cairn table's waiting reports and nothing outside it. -/
theorem State.report_other_frame (s : State) (n : Nat) (c k : BitVec 8) (u : BitVec 16) (v : BitVec 2) (d : BitVec 32) :
    s.report (.other n) c k u v d = { s with cairn := (s.report (.other n) c k u v d).cairn } := by
  simp only [State.report, State.chargeFault]
  rw [State.queueReport_frame, State.countFault_frame]

theorem State.exhaust_keeps (r : Rations) (s : State) (act scope unit : Nat) :
    ({ s.exhaust act scope unit with rat := r } : State) = { s with rat := r } := by
  unfold State.exhaust
  split <;> rfl

theorem State.charge_keeps (r : Rations) (s : State) (act scope unit : Nat) :
    ({ s.charge act scope unit with rat := r } : State) = { s with rat := r } := by
  unfold State.charge
  simp only
  split
  · exact State.exhaust_keeps r _ act scope unit
  · rfl

/-- A cycle charged changes the rations alone. -/
theorem State.charge_frame (s : State) (act scope unit : Nat) : s.charge act scope unit = { s with rat := (s.charge act scope unit).rat } :=
  (State.charge_keeps (s.charge act scope unit).rat s act scope unit).symm ▸ rfl

/-- A report changes what waits for the cairn table and its unit's FAULT budget, and nothing else. -/
theorem State.report_frame (s : State) (b : Reporter) (c k : BitVec 8) (u : BitVec 16) (v : BitVec 2) (d : BitVec 32) :
    s.report b c k u v d = { s with cairn := (s.report b c k u v d).cairn, rat := (s.report b c k u v d).rat } := by
  simp only [State.report]
  unfold State.chargeFault
  split <;> (try rw [State.charge_frame]) <;> rw [State.queueReport_frame, State.countFault_frame]

theorem State.passCode_frame (s : State) (b : Reporter) (n code : Nat) :
    s.passCode b n code =
      { s.updPass n (fun p => { p with err := setBit p.err code true }) with
        cairn := (s.passCode b n code).cairn, rat := (s.passCode b n code).rat } := by
  unfold State.passCode; exact State.report_frame ..

theorem State.doorCode_frame (s : State) (b : Reporter) (code : Nat) :
    s.doorCode b code =
      { s.modDoor (fun d => { d with err := setBit d.err code true }) with cairn := (s.doorCode b code).cairn, rat := (s.doorCode b code).rat } := by
  unfold State.doorCode; exact State.report_frame ..

theorem State.openWrite_first (s : State) (tag : BitVec 8) (frame left : Nat) (h : s.cp.wbuf = []) (hl : left ≠ 0) :
    s.openWrite tag frame left =
      s.modCp (fun c => { c with wbuf := [{ wid := c.nextWid, tag := tag, frame := frame, left := left, err := 0 }], nextWid := c.nextWid + 1 }) := by
  simp [State.openWrite, State.answerWrites, h, drainOwed, hl, foldList, State.modCp]

/-- A refused write with nothing before it is answered at once. -/
theorem State.refuseWrite_first (s : State) (tag : BitVec 8) (err : BitVec 2) (h : s.cp.wbuf = []) :
    s.refuseWrite tag err = (s.modCp (fun c => { c with nextWid := c.nextWid + 1 })).respond false tag err 0 := by
  simp [State.refuseWrite, State.answerWrites, h, drainOwed, foldList, State.modCp, State.respond]

theorem State.openWrite_answered (s : State) (tag : BitVec 8) (frame : Nat) (h : s.cp.wbuf = []) :
    s.openWrite tag frame 0 =
      (s.modCp (fun c => { c with nextWid := c.nextWid + 1 })).respond false tag 0 0 := by
  simp [State.openWrite, State.answerWrites, h, drainOwed, foldList, State.modCp, State.respond]

theorem State.devTouch_frame (s : State) (q : BitVec 16) :
    s.devTouch q = { s with xl := { s.xl with devCache := (s.devTouch q).xl.devCache } } := by
  unfold State.devTouch; (repeat' split) <;> rfl

/-- Evaluating pairs afresh changes levels alone. -/
theorem State.evalPair_frame (s : State) (t n : Nat) : s.evalPair t n = { s with pair := (s.evalPair t n).pair } := rfl

theorem State.evalPair_stack (s : State) (t n k : Nat) : ((s.evalPair t n).pairAt k).stack = (s.pairAt k).stack := by
  simp only [State.evalPair, State.updPair_pairAt]; split <;> simp_all

theorem foldList_keeps {α β : Type} (f : α → State → State) (p : State → β) (h : ∀ a s, p (f a s) = p s) (l : List α) (s : State) :
    p (foldList f l s) = p s := by
  induction l generalizing s with
  | nil => rfl
  | cons a as ih => simp [foldList, ih, h]

theorem foldFrom_keeps {β : Type} (f : Nat → State → State) (p : State → β) (h : ∀ i s, p (f i s) = p s) (i n : Nat) (s : State) :
    p (foldFrom f i n s) = p s := by
  induction n generalizing i s with
  | zero => rfl
  | succ n ih => simp [foldFrom, ih, h]

theorem foldBelow_keeps {β : Type} (f : Nat → State → State) (p : State → β) (h : ∀ i s, p (f i s) = p s) (n : Nat) (s : State) :
    p (foldBelow n f s) = p s := foldFrom_keeps f p h 0 n s

theorem State.evalTarget_keeps {β : Type} (p : State → β) (h : ∀ (s : State) (q : Tbl Pair), p { s with pair := q } = p s) (s : State) (t : Nat) :
    p (s.evalTarget t) = p s := foldBelow_keeps _ p (fun _ s => h s _) 4 s

theorem State.evalAll_keeps {β : Type} (p : State → β) (h : ∀ (s : State) (q : Tbl Pair), p { s with pair := q } = p s) (s : State) :
    p s.evalAll = p s := foldList_keeps _ p (fun _ s => State.evalTarget_keeps p h s _) _ s

theorem State.evalAll_frame (s : State) : s.evalAll = { s with pair := s.evalAll.pair } := by
  have h := State.evalAll_keeps (fun t => ({ t with pair := [] } : State)) (fun _ _ => rfl) s
  have h2 : ({ s.evalAll with pair := s.evalAll.pair } : State) = { s with pair := s.evalAll.pair } := by
    have := congrArg (fun t : State => ({ t with pair := s.evalAll.pair } : State)) h
    exact this
  exact h2

theorem State.evalAll_stack (s : State) (k : Nat) : (s.evalAll.pairAt k).stack = (s.pairAt k).stack :=
  foldList_keeps _ (fun s => (s.pairAt k).stack)
    (fun _ s => foldBelow_keeps _ (fun s => (s.pairAt k).stack) (fun _ s => State.evalPair_stack s _ _ k) 4 s) _ s

end Sys2Proof.Machine
end

