-- ==== Sys2Proof/Laws/ShapeBase.lean ====
section
/-! SUPPORT. The shape of the state: what each basic update needs to keep it, and the folds. -/

namespace Sys2Proof.Machine

/-- Dropping rows keeps the canonical form. -/
theorem Tbl.wfFrom_filter {α : Type} [DecidableEq α] (d : α) (p : Nat × α → Bool) (t : Tbl α) (lo : Option Nat)
    (h : Tbl.wfFrom d lo t = true) : Tbl.wfFrom d lo (t.filter p) = true := by
  induction t generalizing lo with
  | nil => rfl
  | cons a rest ih =>
    obtain ⟨k, v⟩ := a
    simp only [Tbl.wfFrom, Bool.and_eq_true, decide_eq_true_eq] at h
    have hr := ih (some k) h.2
    by_cases hp : p (k, v) = true
    · simp only [List.filter, hp, Tbl.wfFrom, Bool.and_eq_true, decide_eq_true_eq]
      exact ⟨h.1, hr⟩
    · simp only [List.filter, hp]
      refine Tbl.wfFrom_weaken d _ lo hr ?_
      intro l hl
      subst hl
      exact Or.inl (by simpa using h.1.1)

theorem Tbl.wf_filter {α : Type} [DecidableEq α] (d : α) (p : Nat × α → Bool) (t : Tbl α) (h : Tbl.wf d t = true) :
    Tbl.wf d (t.filter p) = true := Tbl.wfFrom_filter d p t none h

theorem Tbl.wf_erase {α : Type} [DecidableEq α] (d : α) (t : Tbl α) (key : Nat) (h : Tbl.wf d t = true) :
    Tbl.wf d (Tbl.erase t key) = true := Tbl.wfFrom_erase d t key none h

variable {s : State}

theorem State.updPass_shape (n : Nat) (f : PassPort → PassPort) (h : Shape s) : Shape (s.updPass n f) := { h with pass := Tbl.wf_upd _ _ _ _ h.pass }
theorem State.updPlain_shape (n : Nat) (f : PathCopy → PathCopy) (h : Shape s) : Shape (s.updPlain n f) := { h with plain := Tbl.wf_upd _ _ _ _ h.plain }
theorem State.updBel_shape (n : Nat) (f : Belay → Belay) (h : Shape s) : Shape (s.updBel n f) := { h with bel := Tbl.wf_upd _ _ _ _ h.bel }
theorem State.updTgt_shape (n : Nat) (f : Target → Target) (h : Shape s) : Shape (s.updTgt n f) := { h with tgt := Tbl.wf_upd _ _ _ _ h.tgt }
theorem State.updPair_shape (n : Nat) (f : Pair → Pair) (h : Shape s) : Shape (s.updPair n f) := { h with pair := Tbl.wf_upd _ _ _ _ h.pair }
theorem State.updFrame_shape (n : Nat) (f : Frame → Frame) (h : Shape s) : Shape (s.updFrame n f) := { h with frame := Tbl.wf_upd _ _ _ _ h.frame }
theorem State.updGrp_shape (n : Nat) (f : Group → Group) (h : Shape s) : Shape (s.updGrp n f) := { h with grp := Tbl.wf_upd _ _ _ _ h.grp }
theorem State.updVt_shape (n : Nat) (f : Vt → Vt) (h : Shape s) : Shape (s.updVt n f) := { h with vt := Tbl.wf_upd _ _ _ _ h.vt }
theorem State.updCtx_shape (n : Nat) (f : Ctx → Ctx) (h : Shape s) : Shape (s.updCtx n f) := { h with ctx := Tbl.wf_upd _ _ _ _ h.ctx }
theorem State.updLog_shape (n : Nat) (f : LogEntry → LogEntry) (h : Shape s) : Shape (s.updLog n f) := { h with log := Tbl.wf_upd _ _ _ _ h.log }
theorem State.updLink_shape (n : Nat) (f : Link → Link) (h : Shape s) : Shape (s.updLink n f) := { h with links := Tbl.wf_upd _ _ _ _ h.links }
theorem State.updQuad_shape (n : Nat) (f : Quad → Quad) (h : Shape s) : Shape (s.updQuad n f) := { h with quads := Tbl.wf_upd _ _ _ _ h.quads }
theorem State.updLane_shape (n : Nat) (f : Lane → Lane) (h : Shape s) : Shape (s.updLane n f) := { h with lanes := Tbl.wf_upd _ _ _ _ h.lanes }
theorem State.updMbx_shape (n : Nat) (f : Mbox → Mbox) (h : Shape s) : Shape (s.updMbx n f) := { h with mbx := Tbl.wf_upd _ _ _ _ h.mbx }
theorem State.updInq_shape (n : Nat) (f : List Rec → List Rec) (h : Shape s) : Shape (s.updInq n f) := { h with inq := Tbl.wf_upd _ _ _ _ h.inq }
theorem State.modClk_shape (f : Clocks → Clocks) (h : Shape s) : Shape (s.modClk f) := { h with }
theorem State.modPwr_shape (f : Power → Power) (h : Shape s) : Shape (s.modPwr f) := { h with }
theorem State.modBoot_shape (f : Boot → Boot) (h : Shape s) : Shape (s.modBoot f) := { h with }
theorem State.modDoor_shape (f : Door → Door) (h : Shape s) (hf : ∀ x : Door, x.markers.length ≤ 16 → (f x).markers.length ≤ 16) :
    Shape (s.modDoor f) := { h with door := hf _ h.door }
theorem State.modPartner_shape (f : Partner → Partner) (h : Shape s) : Shape (s.modPartner f) := { h with }
theorem State.modCamp_shape (f : Camp → Camp) (h : Shape s) : Shape (s.modCamp f) := { h with }
theorem State.modMem_shape (f : Mem → Mem) (h : Shape s) : Shape (s.modMem f) := { h with }
theorem State.modCp_shape (f : ControlPort → ControlPort) (h : Shape s) : Shape (s.modCp f) := { h with }
theorem State.modWired_shape (f : Wired → Wired) (h : Shape s) (hf : ∀ x, WiredShape x → WiredShape (f x)) : Shape (s.modWired f) := { h with wired := hf _ h.wired }
theorem State.modXl_shape (f : Xlat → Xlat) (h : Shape s) (hf : ∀ x, XlatShape x → XlatShape (f x)) : Shape (s.modXl f) := { h with xl := hf _ h.xl }
theorem State.modRat_shape (f : Rations → Rations) (h : Shape s) (hf : ∀ x, RationShape x → RationShape (f x)) : Shape (s.modRat f) := { h with rat := hf _ h.rat }
theorem State.modAcc_shape (f : AccessCheck → AccessCheck) (h : Shape s) (hf : ∀ x, AccessShape x → AccessShape (f x)) : Shape (s.modAcc f) := { h with acc := hf _ h.acc }
theorem State.modWear_shape (f : Wear → Wear) (h : Shape s) (hf : ∀ x, WearShape x → WearShape (f x)) : Shape (s.modWear f) := { h with wear := hf _ h.wear }
theorem State.modRope_shape (f : Rope → Rope) (h : Shape s) (hf : ∀ x : Rope, Tbl.wf RopeOut.reset x.map = true → Tbl.wf RopeOut.reset (f x).map = true) :
    Shape (s.modRope f) := { h with rope := hf _ h.rope }
theorem State.modArb_shape (f : Arb → Arb) (h : Shape s) (hf : ∀ x : Arb, Tbl.wf (0 : BitVec 32) x.limit = true → Tbl.wf (0 : BitVec 32) (f x).limit = true) :
    Shape (s.modArb f) := { h with limit := hf _ h.limit }
theorem State.modCairn_shape (f : Cairns → Cairns) (h : Shape s) (hf : ∀ x, CairnShape x → CairnShape (f x)) : Shape (s.modCairn f) :=
  { h with cairn := hf _ h.cairn }
theorem State.updSrc_shape (n : Nat) (f : Source → Source) (h : Shape s) : Shape (s.updSrc n f) :=
  { h with wired := { h.wired with src := Tbl.wf_upd _ _ _ _ h.wired.src } }
theorem State.updPos_shape (n : Nat) (f : Pos → Pos) (h : Shape s) : Shape (s.updPos n f) :=
  { h with xl := { h.xl with pos := by rw [← h.xl.pos]; exact updList_length f _ _ } }
theorem State.updRidge_shape (n : Nat) (f : Ridge → Ridge) (h : Shape s) : Shape (s.updRidge n f) :=
  { h with xl := { h.xl with ridge := by rw [← h.xl.ridge]; exact updList_length f _ _ } }
theorem State.updArb_shape (n : Nat) (f : ArbReq → ArbReq) (h : Shape s) : Shape (s.updArb n f) := { h with }
theorem State.drawNoise_shape (h : Shape s) : Shape s.drawNoise.2 := { h with }
theorem State.drawAlloc_shape (h : Shape s) : Shape s.drawAlloc.2 := { h with }
theorem State.enqueue_shape (r : Rec) (h : Shape s) : Shape (s.enqueue r) := State.updInq_shape _ _ h
theorem State.respond_shape (r : Bool) (t : BitVec 8) (e : BitVec 2) (d : Word) (h : Shape s) : Shape (s.respond r t e d) := { h with }

/-- Merging a report into the queue takes no place. -/
theorem absorbInto_length (r : Report) (q : List Report) : (absorbInto r q).length = q.length := by
  induction q with
  | nil => rfl
  | cons a as ih =>
    unfold absorbInto
    split
    · rfl
    · simp only [List.length_cons, ih]

theorem dropFirst_length {α : Type} (p : α → Bool) (l : List α) : (dropFirst p l).length ≤ l.length := by
  induction l with
  | nil => exact Nat.le_refl _
  | cons a as ih =>
    unfold dropFirst
    split
    · simp only [List.length_cons]; omega
    · simp only [List.length_cons]; omega

theorem ite_shape {c : Prop} [Decidable c] {a b : State} (ha : Shape a) (hb : Shape b) : Shape (if c then a else b) := by
  split
  · exact ha
  · exact hb

theorem foldList_shape {α : Type} {f : α → State → State} {l : List α} (h : Shape s) (hf : ∀ a s, Shape s → Shape (f a s)) : Shape (foldList f l s) := by
  induction l generalizing s with
  | nil => exact h
  | cons a as ih => exact ih (hf a s h)

theorem foldFrom_shape {f : Nat → State → State} {i n : Nat} (h : Shape s) (hf : ∀ a s, Shape s → Shape (f a s)) : Shape (foldFrom f i n s) := by
  induction n generalizing i s with
  | zero => exact h
  | succ n ih => exact ih (hf i s h)

theorem foldBelow_shape {f : Nat → State → State} {n : Nat} (h : Shape s) (hf : ∀ a s, Shape s → Shape (f a s)) : Shape (foldBelow n f s) :=
  foldFrom_shape h hf

theorem State.answerWrites_shape (h : Shape s) : Shape s.answerWrites := by
  unfold State.answerWrites
  split
  exact foldList_shape { h with } (fun _ _ h => State.respond_shape _ _ _ _ h)

theorem State.settleWrite_shape (wid : Option Nat) (h : Shape s) : Shape (s.settleWrite wid) := by
  unfold State.settleWrite
  split
  · exact h
  · exact State.answerWrites_shape { h with }

end Sys2Proof.Machine
end

