-- ==== Sys2Proof/Laws/ShapeCollect.lean ====
section
/-! SUPPORT. The shape of the state is kept by every function on it: from State.updQuota_shape in the order of the model's files. -/

namespace Sys2Proof.Machine

theorem State.updQuota_shape (s : State) (act scope unit : Nat) (f : Quota → Quota) (h : Shape s) : Shape (s.updQuota act scope unit f) :=
  { h with rat := { h.rat with quota := Tbl.wf_upd _ _ _ _ h.rat.quota } }

theorem State.settleQuota_shape (s : State) (act scope unit : Nat) (hS : Shape s) : Shape (State.settleQuota s act scope unit) := by
  unfold State.settleQuota
  try dsimp only
  repeat' (first
    | with_reducible assumption
    | (intro x hx; with_reducible exact hx)
    | (intro x hx; exact { hx with })
    | intro _
    | with_reducible apply ite_shape
    | with_reducible apply State.updQuota_shape
    | split
    | dsimp only
    | exact { hS with })

theorem State.exhaust_shape (s : State) (act scope unit : Nat) (h : Shape s) : Shape (s.exhaust act scope unit) := by
  unfold State.exhaust
  split
  · exact h
  · have h2 := State.updQuota_shape s act scope unit (fun q => { q with masked := true, exhausted := satInc q.exhausted }) h
    exact { h2 with rat := { quota := h2.rat.quota, exhausted := Tbl.wf_upd 0 s.rat.exhausted act (fun n => n + 1) h.rat.exhausted } }

theorem State.charge_shape (s : State) (act scope unit : Nat) (hS : Shape s) : Shape (State.charge s act scope unit) := by
  unfold State.charge
  try dsimp only
  repeat' (first
    | with_reducible assumption
    | (intro x hx; with_reducible exact hx)
    | (intro x hx; exact { hx with })
    | intro _
    | with_reducible apply ite_shape
    | with_reducible apply State.settleQuota_shape
    | with_reducible apply State.updQuota_shape
    | with_reducible apply State.exhaust_shape
    | split
    | dsimp only
    | exact { hS with })

theorem State.chargeN_shape (s : State) (act scope unit n : Nat) (h : Shape s) : Shape (s.chargeN act scope unit n) := by
  induction n generalizing s with
  | zero => exact h
  | succ n ih => exact ih _ (State.charge_shape s act scope unit h)

theorem State.spend_shape (s : State) (act scope unit : Nat) (hS : Shape s) : Shape (State.spend s act scope unit).2 := by
  unfold State.spend
  try dsimp only
  repeat' (first
    | with_reducible assumption
    | (intro x hx; with_reducible exact hx)
    | (intro x hx; exact { hx with })
    | intro _
    | with_reducible apply ite_shape
    | with_reducible apply State.settleQuota_shape
    | with_reducible apply State.updQuota_shape
    | with_reducible apply State.exhaust_shape
    | split
    | dsimp only
    | exact { hS with })

theorem State.sendReq_shape (s : State) (r : MemReq) (i : BitVec 8) (hS : Shape s) : Shape (State.sendReq s r i) := by
  unfold State.sendReq
  try dsimp only
  repeat' (first
    | with_reducible assumption
    | (intro x hx; with_reducible exact hx)
    | (intro x hx; exact { hx with })
    | intro _
    | with_reducible apply foldList_shape
    | with_reducible apply State.updArb_shape
    | with_reducible apply State.modMem_shape
    | split
    | dsimp only
    | exact { hS with })

theorem State.spendAbove_shape (s : State) (act scope unit : Nat) (hS : Shape s) : Shape (State.spendAbove s act scope unit) := by
  unfold State.spendAbove
  try dsimp only
  repeat' (first
    | with_reducible assumption
    | (intro x hx; with_reducible exact hx)
    | (intro x hx; exact { hx with })
    | intro _
    | with_reducible apply State.settleQuota_shape
    | with_reducible apply State.updQuota_shape
    | split
    | dsimp only
    | exact { hS with })

theorem State.enterReq_shape (s : State) (r : MemReq) (hS : Shape s) : Shape (State.enterReq s r) := by
  unfold State.enterReq
  try dsimp only
  repeat' (first
    | with_reducible assumption
    | (intro x hx; with_reducible exact hx)
    | (intro x hx; exact { hx with })
    | intro _
    | with_reducible apply ite_shape
    | with_reducible apply foldList_shape
    | with_reducible apply State.spend_shape
    | with_reducible apply State.spendAbove_shape
    | with_reducible apply State.updArb_shape
    | with_reducible apply State.modMem_shape
    | split
    | dsimp only
    | exact { hS with })

theorem State.enterAll_shape (s : State) (n : Nat) (h : Shape s) : Shape (s.enterAll n) := by
  induction n generalizing s with
  | zero => exact h
  | succ n ih =>
    unfold State.enterAll
    split
    · exact ih _ (State.enterReq_shape _ _ h)
    · exact h

theorem State.pumpMem_shape (s : State) (n : Nat) (h : Shape s) : Shape (s.pumpMem n) := by
  induction n generalizing s with
  | zero => exact h
  | succ n ih =>
    have h1 := State.enterAll_shape s s.mem.waits.length h
    unfold State.pumpMem
    dsimp only
    (repeat' split)
    · exact ih _ (State.sendReq_shape _ _ _ h1)
    · exact h1
    · exact h1

theorem State.pumpAll_shape (s : State) (hS : Shape s) : Shape (State.pumpAll s) := by
  unfold State.pumpAll
  try dsimp only
  repeat' (first
    | with_reducible assumption
    | (intro x hx; with_reducible exact hx)
    | (intro x hx; exact { hx with })
    | intro _
    | with_reducible apply State.pumpMem_shape
    | split
    | dsimp only
    | exact { hS with })

theorem State.memEnter_shape (s : State) (above : Bool) (o : MemOwner) (write : Bool) (addr : BitVec 47) (data : BitVec 256) (again : Bool) (hS : Shape s) : Shape (State.memEnter s above o write addr data again) := by
  unfold State.memEnter
  try dsimp only
  repeat' (first
    | with_reducible assumption
    | (intro x hx; with_reducible exact hx)
    | (intro x hx; exact { hx with })
    | intro _
    | with_reducible apply State.modMem_shape
    | with_reducible apply State.pumpAll_shape
    | split
    | dsimp only
    | exact { hS with })

theorem State.memIssue_shape (s : State) (o : MemOwner) (write : Bool) (addr : BitVec 47) (data : BitVec 256) (again : Bool) (hS : Shape s) : Shape (State.memIssue s o write addr data again) := by
  unfold State.memIssue
  try dsimp only
  repeat' (first
    | with_reducible assumption
    | (intro x hx; with_reducible exact hx)
    | (intro x hx; exact { hx with })
    | intro _
    | with_reducible apply State.memEnter_shape
    | split
    | dsimp only
    | exact { hS with })

theorem State.memAbove_shape (s : State) (o : MemOwner) (addr : BitVec 47) (data : BitVec 256) (hS : Shape s) : Shape (State.memAbove s o addr data) := by
  unfold State.memAbove
  try dsimp only
  repeat' (first
    | with_reducible assumption
    | (intro x hx; with_reducible exact hx)
    | (intro x hx; exact { hx with })
    | intro _
    | with_reducible apply State.memEnter_shape
    | split
    | dsimp only
    | exact { hS with })

theorem State.memRead_shape (s : State) (o : MemOwner) (addr : BitVec 47) (hS : Shape s) : Shape (State.memRead s o addr) := by
  unfold State.memRead
  try dsimp only
  repeat' (first
    | with_reducible assumption
    | (intro x hx; with_reducible exact hx)
    | (intro x hx; exact { hx with })
    | intro _
    | with_reducible apply State.memIssue_shape
    | split
    | dsimp only
    | exact { hS with })

theorem State.memWrite_shape (s : State) (o : MemOwner) (addr : BitVec 47) (data : BitVec 256) (hS : Shape s) : Shape (State.memWrite s o addr data) := by
  unfold State.memWrite
  try dsimp only
  repeat' (first
    | with_reducible assumption
    | (intro x hx; with_reducible exact hx)
    | (intro x hx; exact { hx with })
    | intro _
    | with_reducible apply State.modMem_shape
    | with_reducible apply State.memIssue_shape
    | split
    | dsimp only
    | exact { hS with })

theorem State.drawLine_shape (s : State) (hS : Shape s) : Shape (State.drawLine s).2 := by
  unfold State.drawLine
  try dsimp only
  repeat' (first
    | with_reducible assumption
    | (intro x hx; with_reducible exact hx)
    | (intro x hx; exact { hx with })
    | intro _
    | split
    | dsimp only
    | exact { hS with })

theorem State.tableRead_shape (s : State) (o : MemOwner) (addr : BitVec 47) (hS : Shape s) : Shape (State.tableRead s o addr) := by
  unfold State.tableRead
  try dsimp only
  repeat' (first
    | with_reducible assumption
    | (intro x hx; with_reducible exact hx)
    | (intro x hx; exact { hx with })
    | intro _
    | with_reducible apply ite_shape
    | with_reducible apply State.modMem_shape
    | with_reducible apply State.memRead_shape
    | split
    | dsimp only
    | exact { hS with })

theorem State.unretain_shape (s : State) (o : MemOwner) (hS : Shape s) : Shape (State.unretain s o) := by
  unfold State.unretain
  try dsimp only
  repeat' (first
    | with_reducible assumption
    | (intro x hx; with_reducible exact hx)
    | (intro x hx; exact { hx with })
    | intro _
    | with_reducible apply State.modMem_shape
    | split
    | dsimp only
    | exact { hS with })

theorem State.readBack_shape (s : State) (w o : MemOwner) (addr : BitVec 47) (hS : Shape s) : Shape (State.readBack s w o addr) := by
  unfold State.readBack
  try dsimp only
  repeat' (first
    | with_reducible assumption
    | (intro x hx; with_reducible exact hx)
    | (intro x hx; exact { hx with })
    | intro _
    | with_reducible apply ite_shape
    | with_reducible apply State.modMem_shape
    | with_reducible apply State.memRead_shape
    | split
    | dsimp only
    | exact { hS with })

theorem State.takeRead_shape (s : State) (o : MemOwner) (hS : Shape s) : Shape (State.takeRead s o).2 := by
  unfold State.takeRead
  try dsimp only
  repeat' (first
    | with_reducible assumption
    | (intro x hx; with_reducible exact hx)
    | (intro x hx; exact { hx with })
    | intro _
    | with_reducible apply State.modMem_shape
    | split
    | dsimp only
    | exact { hS with })

theorem State.countFault_shape (s : State) (cause kind : BitVec 8) (unit : BitVec 16) (sev : BitVec 2) (hS : Shape s) : Shape (State.countFault s cause kind unit sev) := by
  unfold State.countFault
  try dsimp only
  repeat' (first
    | with_reducible assumption
    | (intro x hx; with_reducible exact hx)
    | (intro x hx; exact { hx with })
    | intro _
    | with_reducible apply ite_shape
    | with_reducible apply State.modCairn_shape
    | split
    | dsimp only
    | exact { hS with })

theorem State.queueReport_shape (s : State) (by_ : Reporter) (r : Report) (h : Shape s) : Shape (s.queueReport by_ r) := by
  unfold State.queueReport
  split
  · exact { h with cairn := { h.cairn with queue := by rw [absorbInto_length]; exact h.cairn.queue } }
  · split
    · rename_i hc
      simp only [Bool.and_eq_true, decide_eq_true_eq] at hc
      exact { h with cairn := { h.cairn with queue := by simp only [List.length_append, List.length_singleton]; omega } }
    · (repeat' split) <;> exact { h with cairn := { h.cairn with } }

theorem State.chargeFault_shape (s : State) (by_ : Reporter) (hS : Shape s) : Shape (State.chargeFault s by_) := by
  unfold State.chargeFault
  try dsimp only
  repeat' (first
    | with_reducible assumption
    | (intro x hx; with_reducible exact hx)
    | (intro x hx; exact { hx with })
    | intro _
    | with_reducible apply State.charge_shape
    | split
    | dsimp only
    | exact { hS with })

theorem State.report_shape (s : State) (by_ : Reporter) (cause kind : BitVec 8) (unit : BitVec 16) (sev : BitVec 2) (detail : BitVec 32) (hS : Shape s) : Shape (State.report s by_ cause kind unit sev detail) := by
  unfold State.report
  try dsimp only
  repeat' (first
    | with_reducible assumption
    | (intro x hx; with_reducible exact hx)
    | (intro x hx; exact { hx with })
    | intro _
    | with_reducible apply State.countFault_shape
    | with_reducible apply State.queueReport_shape
    | with_reducible apply State.chargeFault_shape
    | split
    | dsimp only
    | exact { hS with })

theorem State.degrade_shape (s : State) (by_ : Reporter) (kind : BitVec 8) (unit : BitVec 16) (detail : BitVec 32) (hS : Shape s) : Shape (State.degrade s by_ kind unit detail) := by
  unfold State.degrade
  try dsimp only
  repeat' (first
    | with_reducible assumption
    | (intro x hx; with_reducible exact hx)
    | (intro x hx; exact { hx with })
    | intro _
    | with_reducible apply State.report_shape
    | split
    | dsimp only
    | exact { hS with })

theorem releaseOne_shape (q : Nat × Report) (s : State) (h : Shape s) : Shape (releaseOne q s) := by
  unfold releaseOne
  generalize (if q.1 < 16 then Reporter.ridge q.1 else if q.1 < 1024 then Reporter.belay (q.1 - 16) else Reporter.other (q.1 - 1024)) = by_
  dsimp only
  split
  · exact { h with cairn := { h.cairn with queue := by rw [absorbInto_length]; exact h.cairn.queue } }
  · split
    · rename_i hc
      simp only [Bool.and_eq_true, decide_eq_true_eq] at hc
      exact { h with cairn := { h.cairn with queue := by simp only [List.length_append, List.length_singleton]; omega } }
    · exact { h with cairn := { h.cairn with } }

theorem State.releaseHeld_shape (s : State) (h : Shape s) : Shape s.releaseHeld :=
  foldList_shape { h with cairn := { h.cairn with } } (fun _ _ h => releaseOne_shape _ _ h)

theorem State.setLogFull_shape {s : State} (b : Bool) (h : Shape s) : Shape { s with logFull := b } := { h with }

theorem State.logWrite_shape (s : State) (p : Nat) (serial : BitVec 32) (e : LogEntry) (h : Shape s) : Shape (s.logWrite p serial e) := by
  have hu : ∀ f, Shape (s.updLog serial.toNat f) := fun f => State.updLog_shape _ _ h
  unfold State.logWrite
  dsimp only
  split
  · exact hu _
  · have h2 := fun o a d => State.memWrite_shape _ o a d (State.drawLine_shape _ (State.charge_shape _ 4 0 p (hu (fun _ => { e with overflow := s.overflows e.origin.cls && !(decide (229376 ≤ s.logOver) && decide (s.logOnChip < 32768)) }))))
    split
    · exact h2 _ _ _
    · exact State.report_shape _ _ _ _ _ _ _ (State.setLogFull_shape true (h2 _ _ _))

theorem State.ack_shape (s : State) (serial : BitVec 32) (h : Shape s) : Shape (s.ack serial) :=
  { h with log := Tbl.wf_erase _ _ _ h.log }

theorem State.ackAll_shape (s : State) (l : List (BitVec 32)) (hS : Shape s) : Shape (State.ackAll s l) := by
  unfold State.ackAll
  try dsimp only
  repeat' (first
    | with_reducible assumption
    | (intro x hx; with_reducible exact hx)
    | (intro x hx; exact { hx with })
    | intro _
    | with_reducible apply foldList_shape
    | with_reducible apply State.ack_shape
    | split
    | dsimp only
    | exact { hS with })

theorem State.ackMerge_shape (s : State) (opener serial : BitVec 32) (count : BitVec 16) (hS : Shape s) : Shape (State.ackMerge s opener serial count) := by
  unfold State.ackMerge
  try dsimp only
  repeat' (first
    | with_reducible assumption
    | (intro x hx; with_reducible exact hx)
    | (intro x hx; exact { hx with })
    | intro _
    | with_reducible apply ite_shape
    | with_reducible apply State.ack_shape
    | with_reducible apply State.updLog_shape
    | split
    | dsimp only
    | exact { hS with })

theorem State.landedLog_shape (s : State) (serial : BitVec 32) (hS : Shape s) : Shape (State.landedLog s serial) := by
  unfold State.landedLog
  try dsimp only
  repeat' (first
    | with_reducible assumption
    | (intro x hx; with_reducible exact hx)
    | (intro x hx; exact { hx with })
    | intro _
    | with_reducible apply ite_shape
    | with_reducible apply State.updLog_shape
    | split
    | dsimp only
    | exact { hS with })

theorem State.toPlain_shape (s : State) (p : Nat) (i : PItem) (hS : Shape s) : Shape (State.toPlain s p i) := by
  unfold State.toPlain
  try dsimp only
  repeat' (first
    | with_reducible assumption
    | (intro x hx; with_reducible exact hx)
    | (intro x hx; exact { hx with })
    | intro _
    | with_reducible apply State.updPos_shape
    | split
    | dsimp only
    | exact { hS with })

theorem State.devTouch_shape (s : State) (q : BitVec 16) (hS : Shape s) : Shape (State.devTouch s q) := by
  unfold State.devTouch
  try dsimp only
  repeat' (first
    | with_reducible assumption
    | (intro x hx; with_reducible exact hx)
    | (intro x hx; exact { hx with })
    | intro _
    | with_reducible apply State.modXl_shape
    | split
    | dsimp only
    | exact { hS with })

theorem State.devFill_shape (s : State) (q : BitVec 16) (e : DevEntry) (locked : Bool) (h : Shape s) : Shape (s.devFill q e locked) := by
  refine State.modXl_shape _ h (fun x hx => ?_)
  dsimp only
  (repeat' split) <;> exact { hx with }

theorem State.setDev_shape (s : State) (q : BitVec 16) (e : DevEntry) (h : Shape s) : Shape (s.setDev q e) :=
  State.modXl_shape _ h (fun _ hx => { hx with dev := Tbl.wf_set _ _ _ _ hx.dev })

theorem State.setEvt_shape (s : State) (q : BitVec 16) (e : BitVec 20) (v : EvtEntry) (h : Shape s) : Shape (s.setEvt q e v) :=
  State.modXl_shape _ h (fun _ hx => { hx with evt := Tbl.wf_set _ _ _ _ hx.evt })

theorem State.setPinned_shape (s : State) (i : Nat) (v : EvtEntry) (h : Shape s) : Shape (s.setPinned i v) :=
  State.modXl_shape _ h (fun _ hx => { hx with pinned := Tbl.wf_set _ _ _ _ hx.pinned })

theorem State.cacheTouch_shape (s : State) (q : BitVec 16) (e : BitVec 20) (hS : Shape s) : Shape (State.cacheTouch s q e) := by
  unfold State.cacheTouch
  try dsimp only
  repeat' (first
    | with_reducible assumption
    | (intro x hx; with_reducible exact hx)
    | (intro x hx; exact { hx with })
    | intro _
    | with_reducible apply State.modXl_shape
    | split
    | dsimp only
    | exact { hS with })

theorem State.cacheFill_shape (s : State) (q : BitVec 16) (e : BitVec 20) (v : EvtEntry) (h : Shape s) : Shape (s.cacheFill q e v) := by
  unfold State.cacheFill
  split
  · exact h
  · refine State.modXl_shape _ h (fun x hx => ?_)
    dsimp only
    (repeat' split) <;> exact { hx with }

theorem State.cacheDropOne_shape (s : State) (q : BitVec 16) (e : BitVec 20) (hS : Shape s) : Shape (State.cacheDropOne s q e) := by
  unfold State.cacheDropOne
  try dsimp only
  repeat' (first
    | with_reducible assumption
    | (intro x hx; with_reducible exact hx)
    | (intro x hx; exact { hx with })
    | intro _
    | with_reducible apply State.modXl_shape
    | split
    | dsimp only
    | exact { hS with })

theorem State.fenceBank_shape (s : State) (b : Nat) (hS : Shape s) : Shape (State.fenceBank s b) := by
  unfold State.fenceBank
  try dsimp only
  repeat' (first
    | with_reducible assumption
    | (intro x hx; with_reducible exact hx)
    | (intro x hx; exact { hx with })
    | intro _
    | with_reducible apply State.modXl_shape
    | split
    | dsimp only
    | exact { hS with })

theorem State.unfenceBank_shape (s : State) (b : Nat) (hS : Shape s) : Shape (State.unfenceBank s b) := by
  unfold State.unfenceBank
  try dsimp only
  repeat' (first
    | with_reducible assumption
    | (intro x hx; with_reducible exact hx)
    | (intro x hx; exact { hx with })
    | intro _
    | with_reducible apply State.modXl_shape
    | split
    | dsimp only
    | exact { hS with })

theorem State.passCode_shape (s : State) (by_ : Reporter) (n : Nat) (code : Nat) (hS : Shape s) : Shape (State.passCode s by_ n code) := by
  unfold State.passCode
  try dsimp only
  repeat' (first
    | with_reducible assumption
    | (intro x hx; with_reducible exact hx)
    | (intro x hx; exact { hx with })
    | intro _
    | with_reducible apply State.updPass_shape
    | with_reducible apply State.report_shape
    | split
    | dsimp only
    | exact { hS with })

theorem State.doorCode_shape (s : State) (by_ : Reporter) (code : Nat) (hS : Shape s) : Shape (State.doorCode s by_ code) := by
  unfold State.doorCode
  try dsimp only
  repeat' (first
    | with_reducible assumption
    | (intro x hx; with_reducible exact hx)
    | (intro x hx; exact { hx with })
    | intro _
    | with_reducible apply State.modDoor_shape
    | with_reducible apply State.report_shape
    | split
    | dsimp only
    | exact { hS with })

theorem State.passRefuse_shape (s : State) (by_ : Reporter) (n : Nat) (raw : BitVec 128) (par : BitVec 16) (code : Nat) (hS : Shape s) : Shape (State.passRefuse s by_ n raw par code) := by
  unfold State.passRefuse
  try dsimp only
  repeat' (first
    | with_reducible assumption
    | (intro x hx; with_reducible exact hx)
    | (intro x hx; exact { hx with })
    | intro _
    | with_reducible apply State.updPass_shape
    | with_reducible apply State.passCode_shape
    | split
    | dsimp only
    | exact { hS with })

theorem State.doorRefuse_shape (s : State) (by_ : Reporter) (data : BitVec 64) (req : BitVec 16) (code : Nat) (hS : Shape s) : Shape (State.doorRefuse s by_ data req code) := by
  unfold State.doorRefuse
  try dsimp only
  repeat' (first
    | with_reducible assumption
    | (intro x hx; with_reducible exact hx)
    | (intro x hx; exact { hx with })
    | intro _
    | with_reducible apply State.modDoor_shape
    | with_reducible apply State.doorCode_shape
    | split
    | dsimp only
    | exact { hS with })

theorem State.linkRefuse_shape (s : State) (by_ : Reporter) (k : Nat) (entry : BitVec 96) (code : Nat) (hS : Shape s) : Shape (State.linkRefuse s by_ k entry code) := by
  unfold State.linkRefuse
  try dsimp only
  repeat' (first
    | with_reducible assumption
    | (intro x hx; with_reducible exact hx)
    | (intro x hx; exact { hx with })
    | intro _
    | with_reducible apply State.updLink_shape
    | with_reducible apply State.report_shape
    | split
    | dsimp only
    | exact { hS with })

theorem State.refuse_shape (s : State) (p : Nat) (r : Rec) (code : Nat) (hS : Shape s) : Shape (State.refuse s p r code) := by
  unfold State.refuse
  try dsimp only
  repeat' (first
    | with_reducible assumption
    | (intro x hx; with_reducible exact hx)
    | (intro x hx; exact { hx with })
    | intro _
    | with_reducible apply ite_shape
    | with_reducible apply State.passRefuse_shape
    | with_reducible apply State.doorRefuse_shape
    | with_reducible apply State.linkRefuse_shape
    | split
    | dsimp only
    | exact { hS with })

theorem State.countStorm_shape (s : State) (n : Nat) (hS : Shape s) : Shape (State.countStorm s n) := by
  unfold State.countStorm
  try dsimp only
  repeat' (first
    | with_reducible assumption
    | (intro x hx; with_reducible exact hx)
    | (intro x hx; exact { hx with })
    | intro _
    | with_reducible apply ite_shape
    | with_reducible apply State.updSrc_shape
    | split
    | dsimp only
    | exact { hS with })

theorem State.trip_shape (s : State) (n : Nat) (hS : Shape s) : Shape (State.trip s n) := by
  unfold State.trip
  try dsimp only
  repeat' (first
    | with_reducible assumption
    | (intro x hx; with_reducible exact hx)
    | (intro x hx; exact { hx with })
    | intro _
    | with_reducible apply ite_shape
    | with_reducible apply State.updSrc_shape
    | with_reducible apply State.report_shape
    | split
    | dsimp only
    | exact { hS with })

theorem State.mergeOccur_shape (s : State) (n : Nat) (hS : Shape s) : Shape (State.mergeOccur s n) := by
  unfold State.mergeOccur
  try dsimp only
  repeat' (first
    | with_reducible assumption
    | (intro x hx; with_reducible exact hx)
    | (intro x hx; exact { hx with })
    | intro _
    | with_reducible apply ite_shape
    | with_reducible apply State.updSrc_shape
    | split
    | dsimp only
    | exact { hS with })

theorem State.occur_shape (s : State) (n : Nat) (payload : BitVec 16) (hS : Shape s) : Shape (State.occur s n payload) := by
  unfold State.occur
  try dsimp only
  repeat' (first
    | with_reducible assumption
    | (intro x hx; with_reducible exact hx)
    | (intro x hx; exact { hx with })
    | intro _
    | with_reducible apply ite_shape
    | with_reducible apply State.countStorm_shape
    | with_reducible apply State.mergeOccur_shape
    | with_reducible apply State.updSrc_shape
    | with_reducible apply State.trip_shape
    | split
    | dsimp only
    | exact { hS with })

theorem State.levelLine_shape (s : State) (n : Nat) (hS : Shape s) : Shape (State.levelLine s n) := by
  unfold State.levelLine
  try dsimp only
  repeat' (first
    | with_reducible assumption
    | (intro x hx; with_reducible exact hx)
    | (intro x hx; exact { hx with })
    | intro _
    | with_reducible apply ite_shape
    | with_reducible apply State.occur_shape
    | with_reducible apply State.updSrc_shape
    | split
    | dsimp only
    | exact { hS with })

theorem State.lineSeen_shape (s : State) (n : Nat) (level : Bool) (hS : Shape s) : Shape (State.lineSeen s n level) := by
  unfold State.lineSeen
  try dsimp only
  repeat' (first
    | with_reducible assumption
    | (intro x hx; with_reducible exact hx)
    | (intro x hx; exact { hx with })
    | intro _
    | with_reducible apply ite_shape
    | with_reducible apply State.updSrc_shape
    | with_reducible apply State.occur_shape
    | with_reducible apply State.levelLine_shape
    | split
    | dsimp only
    | exact { hS with })

theorem State.wiredClaim_shape (s : State) (n : Nat) (hS : Shape s) : Shape (State.wiredClaim s n) := by
  unfold State.wiredClaim
  try dsimp only
  repeat' (first
    | with_reducible assumption
    | (intro x hx; with_reducible exact hx)
    | (intro x hx; exact { hx with })
    | intro _
    | with_reducible apply State.updSrc_shape
    | split
    | dsimp only
    | exact { hS with })

theorem State.wiredComplete_shape (s : State) (n : Nat) (hS : Shape s) : Shape (State.wiredComplete s n) := by
  unfold State.wiredComplete
  try dsimp only
  repeat' (first
    | with_reducible assumption
    | (intro x hx; with_reducible exact hx)
    | (intro x hx; exact { hx with })
    | intro _
    | with_reducible apply ite_shape
    | with_reducible apply State.updSrc_shape
    | with_reducible apply State.levelLine_shape
    | split
    | dsimp only
    | exact { hS with })

theorem State.setEn_shape (s : State) (n : Nat) (en : Bool) (hS : Shape s) : Shape (State.setEn s n en) := by
  unfold State.setEn
  try dsimp only
  repeat' (first
    | with_reducible assumption
    | (intro x hx; with_reducible exact hx)
    | (intro x hx; exact { hx with })
    | intro _
    | with_reducible apply State.updSrc_shape
    | split
    | dsimp only
    | exact { hS with })

theorem State.setPend_shape (s : State) (n : Nat) (v : Bool) (hS : Shape s) : Shape (State.setPend s n v) := by
  unfold State.setPend
  try dsimp only
  repeat' (first
    | with_reducible assumption
    | (intro x hx; with_reducible exact hx)
    | (intro x hx; exact { hx with })
    | intro _
    | with_reducible apply ite_shape
    | with_reducible apply State.occur_shape
    | with_reducible apply State.updSrc_shape
    | split
    | dsimp only
    | exact { hS with })

theorem State.clearStorm_shape (s : State) (n : Nat) (hS : Shape s) : Shape (State.clearStorm s n) := by
  unfold State.clearStorm
  try dsimp only
  repeat' (first
    | with_reducible assumption
    | (intro x hx; with_reducible exact hx)
    | (intro x hx; exact { hx with })
    | intro _
    | with_reducible apply ite_shape
    | with_reducible apply State.updSrc_shape
    | split
    | dsimp only
    | exact { hS with })

theorem State.stormBit_shape (s : State) (n : Nat) (one racing : Bool) (hS : Shape s) : Shape (State.stormBit s n one racing) := by
  unfold State.stormBit
  try dsimp only
  repeat' (first
    | with_reducible assumption
    | (intro x hx; with_reducible exact hx)
    | (intro x hx; exact { hx with })
    | intro _
    | with_reducible apply ite_shape
    | with_reducible apply State.lineSeen_shape
    | with_reducible apply State.clearStorm_shape
    | split
    | dsimp only
    | exact { hS with })

theorem State.eachBit_shape (s : State) (base : Nat) (acc : Acc) (data : Word) (f : State → Nat → Bool → State)
    (hf : ∀ s n b, Shape s → Shape (f s n b)) (h : Shape s) : Shape (s.eachBit base acc data f) := by
  refine foldBelow_shape h (fun a s h => ?_)
  split
  · exact hf _ _ _ h
  · exact h

theorem State.emitWithdraw_shape (s : State) (n : Nat) (hS : Shape s) : Shape (State.emitWithdraw s n) := by
  unfold State.emitWithdraw
  try dsimp only
  repeat' (first
    | with_reducible assumption
    | (intro x hx; with_reducible exact hx)
    | (intro x hx; exact { hx with })
    | intro _
    | with_reducible apply State.updSrc_shape
    | with_reducible apply State.enqueue_shape
    | split
    | dsimp only
    | exact { hS with })

theorem State.emitMerge_shape (s : State) (n : Nat) (hS : Shape s) : Shape (State.emitMerge s n) := by
  unfold State.emitMerge
  try dsimp only
  repeat' (first
    | with_reducible assumption
    | (intro x hx; with_reducible exact hx)
    | (intro x hx; exact { hx with })
    | intro _
    | with_reducible apply State.updSrc_shape
    | with_reducible apply State.enqueue_shape
    | split
    | dsimp only
    | exact { hS with })

theorem State.emitNew_shape (s : State) (n : Nat) (input : Nat) (hS : Shape s) : Shape (State.emitNew s n input) := by
  unfold State.emitNew
  try dsimp only
  repeat' (first
    | with_reducible assumption
    | (intro x hx; with_reducible exact hx)
    | (intro x hx; exact { hx with })
    | intro _
    | with_reducible apply ite_shape
    | with_reducible apply State.updSrc_shape
    | with_reducible apply State.enqueue_shape
    | split
    | dsimp only
    | exact { hS with })

theorem State.emitOne_shape (s : State) (pos : Nat) (hS : Shape s) : Shape (State.emitOne s pos) := by
  unfold State.emitOne
  try dsimp only
  repeat' (first
    | with_reducible assumption
    | (intro x hx; with_reducible exact hx)
    | (intro x hx; exact { hx with })
    | intro _
    | with_reducible apply ite_shape
    | with_reducible apply State.emitWithdraw_shape
    | with_reducible apply State.emitMerge_shape
    | with_reducible apply State.emitNew_shape
    | split
    | dsimp only
    | exact { hS with })

theorem State.sgiOccur_shape (s : State) (t k : Nat) (payload : BitVec 16) (hS : Shape s) : Shape (State.sgiOccur s t k payload) := by
  unfold State.sgiOccur
  try dsimp only
  repeat' (first
    | with_reducible assumption
    | (intro x hx; with_reducible exact hx)
    | (intro x hx; exact { hx with })
    | intro _
    | with_reducible apply State.occur_shape
    | split
    | dsimp only
    | exact { hS with })

theorem State.sampleLines_shape (s : State) (hS : Shape s) : Shape (State.sampleLines s) := by
  unfold State.sampleLines
  try dsimp only
  repeat' (first
    | with_reducible assumption
    | (intro x hx; with_reducible exact hx)
    | (intro x hx; exact { hx with })
    | intro _
    | with_reducible apply ite_shape
    | with_reducible apply foldList_shape
    | with_reducible apply State.updSrc_shape
    | with_reducible apply State.levelLine_shape
    | with_reducible apply State.modWired_shape
    | split
    | dsimp only
    | exact { hS with })

theorem State.parkedLine_shape (s : State) (n : Nat) (level : Bool) (hS : Shape s) : Shape (State.parkedLine s n level) := by
  unfold State.parkedLine
  try dsimp only
  repeat' (first
    | with_reducible assumption
    | (intro x hx; with_reducible exact hx)
    | (intro x hx; exact { hx with })
    | intro _
    | with_reducible apply ite_shape
    | with_reducible apply State.updSrc_shape
    | with_reducible apply State.modPwr_shape
    | split
    | dsimp only
    | exact { hS with })

theorem State.openWrite_shape (s : State) (tag : BitVec 8) (frame left : Nat) (hS : Shape s) : Shape (State.openWrite s tag frame left) := by
  unfold State.openWrite
  try dsimp only
  repeat' (first
    | with_reducible assumption
    | (intro x hx; with_reducible exact hx)
    | (intro x hx; exact { hx with })
    | intro _
    | with_reducible apply State.answerWrites_shape
    | with_reducible apply State.modCp_shape
    | split
    | dsimp only
    | exact { hS with })

theorem State.refuseWrite_shape (s : State) (tag : BitVec 8) (err : BitVec 2) (hS : Shape s) : Shape (State.refuseWrite s tag err) := by
  unfold State.refuseWrite
  try dsimp only
  repeat' (first
    | with_reducible assumption
    | (intro x hx; with_reducible exact hx)
    | (intro x hx; exact { hx with })
    | intro _
    | with_reducible apply State.answerWrites_shape
    | with_reducible apply State.modCp_shape
    | split
    | dsimp only
    | exact { hS with })

theorem State.sgiSendOne_shape (s : State) (n : Nat) (payload : BitVec 16) (wid : Nat) (hS : Shape s) : Shape (State.sgiSendOne s n payload wid) := by
  unfold State.sgiSendOne
  try dsimp only
  repeat' (first
    | with_reducible assumption
    | (intro x hx; with_reducible exact hx)
    | (intro x hx; exact { hx with })
    | intro _
    | with_reducible apply ite_shape
    | with_reducible apply State.occur_shape
    | with_reducible apply State.modDoor_shape
    | with_reducible apply State.updSrc_shape
    | with_reducible apply State.enqueue_shape
    | split
    | dsimp only
    | exact { hS with })

theorem State.sgiWrite_shape (s : State) (t n : Nat) (acc : Acc) (data : Word) (tag : BitVec 8) (hS : Shape s) : Shape (State.sgiWrite s t n acc data tag) := by
  unfold State.sgiWrite
  try dsimp only
  repeat' (first
    | with_reducible assumption
    | (intro x hx; with_reducible exact hx)
    | (intro x hx; exact { hx with })
    | intro _
    | with_reducible apply foldList_shape
    | with_reducible apply State.openWrite_shape
    | with_reducible apply State.sgiSendOne_shape
    | with_reducible apply State.settleWrite_shape
    | split
    | dsimp only
    | exact { hS with })

theorem State.seqCheck_shape (s : State) (n : Nat) (d : BitVec 128) (hS : Shape s) : Shape (State.seqCheck s n d) := by
  unfold State.seqCheck
  try dsimp only
  repeat' (first
    | with_reducible assumption
    | (intro x hx; with_reducible exact hx)
    | (intro x hx; exact { hx with })
    | intro _
    | with_reducible apply ite_shape
    | with_reducible apply State.updPass_shape
    | with_reducible apply State.passCode_shape
    | split
    | dsimp only
    | exact { hS with })

theorem State.takeMarker_shape (s : State) (q tag : BitVec 16) (h : Shape s) : Shape (s.takeMarker q tag).2 := by
  unfold State.takeMarker
  split <;> dsimp only
  · exact State.modDoor_shape _ h (fun x hx => Nat.le_trans (dropFirst_length _ _) hx)
  · exact h

theorem State.acceptSync_shape (s : State) (n : Nat) (d : BitVec 128) (hS : Shape s) : Shape (State.acceptSync s n d) := by
  unfold State.acceptSync
  try dsimp only
  repeat' (first
    | with_reducible assumption
    | (intro x hx; with_reducible exact hx)
    | (intro x hx; exact { hx with })
    | intro _
    | with_reducible apply ite_shape
    | with_reducible apply State.takeMarker_shape
    | with_reducible apply State.updPass_shape
    | split
    | dsimp only
    | exact { hS with })

theorem State.acceptRecord_shape (s : State) (n : Nat) (d : BitVec 128) (par : BitVec 16) (k : RKind) (a : BitVec 40) (hS : Shape s) : Shape (State.acceptRecord s n d par k a) := by
  unfold State.acceptRecord
  try dsimp only
  repeat' (first
    | with_reducible assumption
    | (intro x hx; with_reducible exact hx)
    | (intro x hx; exact { hx with })
    | intro _
    | with_reducible apply ite_shape
    | with_reducible apply State.devTouch_shape
    | with_reducible apply State.passRefuse_shape
    | with_reducible apply State.updPass_shape
    | split
    | dsimp only
    | exact { hS with })

theorem State.passBeat_shape (s : State) (n : Nat) (d : BitVec 128) (par : BitVec 16) (hS : Shape s) : Shape (State.passBeat s n d par) := by
  unfold State.passBeat
  try dsimp only
  repeat' (first
    | with_reducible assumption
    | (intro x hx; with_reducible exact hx)
    | (intro x hx; exact { hx with })
    | intro _
    | with_reducible apply ite_shape
    | with_reducible apply State.updPass_shape
    | with_reducible apply State.passRefuse_shape
    | with_reducible apply State.seqCheck_shape
    | with_reducible apply State.acceptSync_shape
    | with_reducible apply State.acceptRecord_shape
    | split
    | dsimp only
    | exact { hS with })

theorem State.passRise_shape (s : State) (n : Nat) (hS : Shape s) : Shape (State.passRise s n) := by
  unfold State.passRise
  try dsimp only
  repeat' (first
    | with_reducible assumption
    | (intro x hx; with_reducible exact hx)
    | (intro x hx; exact { hx with })
    | intro _
    | with_reducible apply ite_shape
    | with_reducible apply State.updPass_shape
    | split
    | dsimp only
    | exact { hS with })

theorem State.finishSync_shape (s : State) (n : Nat) (tag : BitVec 16) (accepted : Nat) (hS : Shape s) : Shape (State.finishSync s n tag accepted) := by
  unfold State.finishSync
  try dsimp only
  repeat' (first
    | with_reducible assumption
    | (intro x hx; with_reducible exact hx)
    | (intro x hx; exact { hx with })
    | intro _
    | with_reducible apply ite_shape
    | with_reducible apply State.updPass_shape
    | with_reducible apply State.passCode_shape
    | split
    | dsimp only
    | exact { hS with })

theorem State.doorPush_shape (s : State) (r : Rec) (hS : Shape s) : Shape (State.doorPush s r) := by
  unfold State.doorPush
  try dsimp only
  repeat' (first
    | with_reducible assumption
    | (intro x hx; with_reducible exact hx)
    | (intro x hx; exact { hx with })
    | intro _
    | with_reducible apply State.modDoor_shape
    | with_reducible apply State.enqueue_shape
    | split
    | dsimp only
    | exact { hS with })

theorem State.doorbellWrite_shape (s : State) (master : BitVec 16) (acc : Acc) (data : Word) (tag : BitVec 8) (hS : Shape s) : Shape (State.doorbellWrite s master acc data tag) := by
  unfold State.doorbellWrite
  try dsimp only
  repeat' (first
    | with_reducible assumption
    | (intro x hx; with_reducible exact hx)
    | (intro x hx; exact { hx with })
    | intro _
    | with_reducible apply ite_shape
    | with_reducible apply State.modDoor_shape
    | with_reducible apply State.doorRefuse_shape
    | with_reducible apply State.openWrite_shape
    | with_reducible apply State.devTouch_shape
    | with_reducible apply State.doorPush_shape
    | split
    | dsimp only
    | exact { hS with })

theorem State.dbMarkWrite_shape (s : State) (q tag : BitVec 16) (h : Shape s) : Shape (s.dbMarkWrite q tag) := by
  unfold State.dbMarkWrite
  split
  · exact State.updPass_shape _ _ h
  · dsimp only
    split
    · rename_i hc
      have h2 : (s.door.markers ++ [Marker.mk q tag s.door.arrival]).length ≤ 16 := by
        simp only [List.length_append, List.length_singleton]; omega
      exact { h with door := h2 }
    · have h0 := h.door
      have h2 : (s.door.markers.drop 1 ++ [Marker.mk q tag s.door.arrival]).length ≤ 16 := by
        simp only [List.length_append, List.length_singleton, List.length_drop]; omega
      exact { h with door := h2 }

theorem State.launch_shape (s : State) (p : Nat) (r : Rec) (route : Route) (t : BitVec 9) (ring : BitVec 2) (slot : Option (BitVec 11)) (biv : Option (BitVec 16)) (hS : Shape s) : Shape (State.launch s p r route t ring slot biv) := by
  unfold State.launch
  try dsimp only
  repeat' (first
    | with_reducible assumption
    | (intro x hx; with_reducible exact hx)
    | (intro x hx; exact { hx with })
    | intro _
    | with_reducible apply State.ring_shape
    | with_reducible apply State.updPos_shape
    | with_reducible apply State.updRidge_shape
    | with_reducible apply State.logWrite_shape
    | with_reducible apply State.toPlain_shape
    | split
    | dsimp only
    | exact { hS with })

theorem State.addWait_shape (s : State) (p : Nat) (r : Rec) (counted fence : Bool) (hS : Shape s) : Shape (State.addWait s p r counted fence) := by
  unfold State.addWait
  try dsimp only
  repeat' (first
    | with_reducible assumption
    | (intro x hx; with_reducible exact hx)
    | (intro x hx; exact { hx with })
    | intro _
    | with_reducible apply State.updPos_shape
    | split
    | dsimp only
    | exact { hS with })

theorem State.sendBell_shape (s : State) (p : Nat) (v : BitVec 16) (err : Bool) (hS : Shape s) : Shape (State.sendBell s p v err) := by
  unfold State.sendBell
  try dsimp only
  repeat' (first
    | with_reducible assumption
    | (intro x hx; with_reducible exact hx)
    | (intro x hx; exact { hx with })
    | intro _
    | with_reducible apply ite_shape
    | with_reducible apply State.addWait_shape
    | with_reducible apply State.launch_shape
    | split
    | dsimp only
    | exact { hS with })

theorem State.ring_shape (s : State) (p : Nat) (v : BitVec 16) (err : Bool) (hS : Shape s) : Shape (State.ring s p v err) := by
  unfold State.ring
  try dsimp only
  repeat' (first
    | with_reducible assumption
    | (intro x hx; with_reducible exact hx)
    | (intro x hx; exact { hx with })
    | intro _
    | with_reducible apply State.updVt_shape
    | with_reducible apply State.sendBell_shape
    | split
    | dsimp only
    | exact { hS with })

theorem State.disabledDrop_shape (s : State) (p : Nat) (hS : Shape s) : Shape (State.disabledDrop s p) := by
  unfold State.disabledDrop
  try dsimp only
  repeat' (first
    | with_reducible assumption
    | (intro x hx; with_reducible exact hx)
    | (intro x hx; exact { hx with })
    | intro _
    | with_reducible apply State.updRidge_shape
    | split
    | dsimp only
    | exact { hS with })

theorem State.forward_shape (s : State) (p : Nat) (r : Rec) (route : Route) (fence : Bool) (hS : Shape s) : Shape (State.forward s p r route fence) := by
  unfold State.forward
  try dsimp only
  repeat' (first
    | with_reducible assumption
    | (intro x hx; with_reducible exact hx)
    | (intro x hx; exact { hx with })
    | intro _
    | with_reducible apply ite_shape
    | with_reducible apply State.disabledDrop_shape
    | with_reducible apply State.addWait_shape
    | with_reducible apply State.launch_shape
    | with_reducible apply State.ring_shape
    | split
    | dsimp only
    | exact { hS with })

theorem State.countLookup_shape (s : State) (p : Nat) (counted : Bool) (f : Ridge → Ridge) (hS : Shape s) : Shape (State.countLookup s p counted f) := by
  unfold State.countLookup
  try dsimp only
  repeat' (first
    | with_reducible assumption
    | (intro x hx; with_reducible exact hx)
    | (intro x hx; exact { hx with })
    | intro _
    | with_reducible apply ite_shape
    | with_reducible apply State.updRidge_shape
    | split
    | dsimp only
    | exact { hS with })

theorem State.direct_shape (s : State) (p : Nat) (r : Rec) (h : Handle) (counted : Bool) (hS : Shape s) : Shape (State.direct s p r h counted) := by
  unfold State.direct
  try dsimp only
  repeat' (first
    | with_reducible assumption
    | (intro x hx; with_reducible exact hx)
    | (intro x hx; exact { hx with })
    | intro _
    | with_reducible apply ite_shape
    | with_reducible apply State.disabledDrop_shape
    | with_reducible apply State.countLookup_shape
    | with_reducible apply State.forward_shape
    | split
    | dsimp only
    | exact { hS with })

theorem State.finish_shape (s : State) (p : Nat) (r : Rec) (d : DevEntry) (h : Handle) (e : EvtEntry) (fence : Bool) (hS : Shape s) : Shape (State.finish s p r d h e fence) := by
  unfold State.finish
  try dsimp only
  repeat' (first
    | with_reducible assumption
    | (intro x hx; with_reducible exact hx)
    | (intro x hx; exact { hx with })
    | intro _
    | with_reducible apply ite_shape
    | with_reducible apply State.refuse_shape
    | with_reducible apply State.disabledDrop_shape
    | with_reducible apply State.forward_shape
    | split
    | dsimp only
    | exact { hS with })

theorem State.meetPinned_shape (s : State) (p : Nat) (r : Rec) (d : DevEntry) (h : Handle) (i : Nat) (counted fence : Bool) (hS : Shape s) : Shape (State.meetPinned s p r d h i counted fence) := by
  unfold State.meetPinned
  try dsimp only
  repeat' (first
    | with_reducible assumption
    | (intro x hx; with_reducible exact hx)
    | (intro x hx; exact { hx with })
    | intro _
    | with_reducible apply ite_shape
    | with_reducible apply State.addWait_shape
    | with_reducible apply State.countLookup_shape
    | with_reducible apply State.finish_shape
    | split
    | dsimp only
    | exact { hS with })

theorem State.tableWrite_shape (s : State) (r : Rewrite) (hS : Shape s) : Shape (State.tableWrite s r) := by
  unfold State.tableWrite
  try dsimp only
  repeat' (first
    | with_reducible assumption
    | (intro x hx; with_reducible exact hx)
    | (intro x hx; exact { hx with })
    | intro _
    | with_reducible apply State.memWrite_shape
    | split
    | dsimp only
    | exact { hS with })

theorem State.storeDev_shape (s : State) (q : BitVec 16) (e : DevEntry) (hS : Shape s) : Shape (State.storeDev s q e) := by
  unfold State.storeDev
  try dsimp only
  repeat' (first
    | with_reducible assumption
    | (intro x hx; with_reducible exact hx)
    | (intro x hx; exact { hx with })
    | intro _
    | with_reducible apply State.setDev_shape
    | with_reducible apply State.tableWrite_shape
    | split
    | dsimp only
    | exact { hS with })

theorem State.storeEvt_shape (s : State) (q : BitVec 16) (e : BitVec 20) (v : EvtEntry) (hS : Shape s) : Shape (State.storeEvt s q e v) := by
  unfold State.storeEvt
  try dsimp only
  repeat' (first
    | with_reducible assumption
    | (intro x hx; with_reducible exact hx)
    | (intro x hx; exact { hx with })
    | intro _
    | with_reducible apply State.setEvt_shape
    | with_reducible apply State.tableWrite_shape
    | split
    | dsimp only
    | exact { hS with })

theorem State.walkRead_shape (s : State) (p : Nat) (h : Handle) (dev : Bool) (hS : Shape s) : Shape (State.walkRead s p h dev) := by
  unfold State.walkRead
  try dsimp only
  repeat' (first
    | with_reducible assumption
    | (intro x hx; with_reducible exact hx)
    | (intro x hx; exact { hx with })
    | intro _
    | with_reducible apply ite_shape
    | with_reducible apply State.updRidge_shape
    | with_reducible apply State.tableRead_shape
    | split
    | dsimp only
    | exact { hS with })

theorem State.startWalk_shape (s : State) (p : Nat) (r : Rec) (h : Handle) (dev : Bool) (hS : Shape s) : Shape (State.startWalk s p r h dev) := by
  unfold State.startWalk
  try dsimp only
  repeat' (first
    | with_reducible assumption
    | (intro x hx; with_reducible exact hx)
    | (intro x hx; exact { hx with })
    | intro _
    | with_reducible apply State.updPos_shape
    | with_reducible apply State.walkRead_shape
    | split
    | dsimp only
    | exact { hS with })

theorem State.message_shape (s : State) (p : Nat) (r : Rec) (h : Handle) (counted : Bool) (hS : Shape s) : Shape (State.message s p r h counted) := by
  unfold State.message
  try dsimp only
  repeat' (first
    | with_reducible assumption
    | (intro x hx; with_reducible exact hx)
    | (intro x hx; exact { hx with })
    | intro _
    | with_reducible apply ite_shape
    | with_reducible apply State.updPos_shape
    | with_reducible apply State.startWalk_shape
    | with_reducible apply State.devTouch_shape
    | with_reducible apply State.refuse_shape
    | with_reducible apply State.meetPinned_shape
    | with_reducible apply State.cacheTouch_shape
    | with_reducible apply State.countLookup_shape
    | with_reducible apply State.finish_shape
    | split
    | dsimp only
    | exact { hS with })

theorem State.remote_shape (s : State) (p : Nat) (r : Rec) (h : Handle) (counted : Bool) (hS : Shape s) : Shape (State.remote s p r h counted) := by
  unfold State.remote
  try dsimp only
  repeat' (first
    | with_reducible assumption
    | (intro x hx; with_reducible exact hx)
    | (intro x hx; exact { hx with })
    | intro _
    | with_reducible apply State.meetPinned_shape
    | with_reducible apply State.countLookup_shape
    | with_reducible apply State.finish_shape
    | split
    | dsimp only
    | exact { hS with })

theorem State.translate_shape (s : State) (p : Nat) (r : Rec) (counted : Bool) (hS : Shape s) : Shape (State.translate s p r counted) := by
  unfold State.translate
  try dsimp only
  repeat' (first
    | with_reducible assumption
    | (intro x hx; with_reducible exact hx)
    | (intro x hx; exact { hx with })
    | intro _
    | with_reducible apply ite_shape
    | with_reducible apply State.sendBell_shape
    | with_reducible apply State.addWait_shape
    | with_reducible apply State.message_shape
    | with_reducible apply State.remote_shape
    | with_reducible apply State.direct_shape
    | split
    | dsimp only
    | exact { hS with })

theorem State.releaseWaits_shape (s : State) (p : Nat) (hS : Shape s) : Shape (State.releaseWaits s p) := by
  unfold State.releaseWaits
  try dsimp only
  repeat' (first
    | with_reducible assumption
    | (intro x hx; with_reducible exact hx)
    | (intro x hx; exact { hx with })
    | intro _
    | with_reducible apply ite_shape
    | with_reducible apply foldList_shape
    | with_reducible apply State.translate_shape
    | with_reducible apply State.updPos_shape
    | split
    | dsimp only
    | exact { hS with })

theorem State.releaseAllWaits_shape (s : State) (hS : Shape s) : Shape (State.releaseAllWaits s) := by
  unfold State.releaseAllWaits
  try dsimp only
  repeat' (first
    | with_reducible assumption
    | (intro x hx; with_reducible exact hx)
    | (intro x hx; exact { hx with })
    | intro _
    | with_reducible apply foldBelow_shape
    | with_reducible apply State.releaseWaits_shape
    | split
    | dsimp only
    | exact { hS with })

theorem State.endWalk_shape (s : State) (p : Nat) (h : Handle) (hS : Shape s) : Shape (State.endWalk s p h) := by
  unfold State.endWalk
  try dsimp only
  repeat' (first
    | with_reducible assumption
    | (intro x hx; with_reducible exact hx)
    | (intro x hx; exact { hx with })
    | intro _
    | with_reducible apply ite_shape
    | with_reducible apply State.updPos_shape
    | with_reducible apply State.updRidge_shape
    | split
    | dsimp only
    | exact { hS with })

theorem State.walkHandle_shape (s : State) (p : Nat) (h : Handle) (d : DevEntry) (e : EvtEntry) (first : Bool) (r : Rec) (hS : Shape s) : Shape (State.walkHandle s p h d e first r) := by
  unfold State.walkHandle
  try dsimp only
  repeat' (first
    | with_reducible assumption
    | (intro x hx; with_reducible exact hx)
    | (intro x hx; exact { hx with })
    | intro _
    | with_reducible apply ite_shape
    | with_reducible apply State.charge_shape
    | with_reducible apply State.addWait_shape
    | with_reducible apply State.refuse_shape
    | with_reducible apply State.meetPinned_shape
    | with_reducible apply State.finish_shape
    | split
    | dsimp only
    | exact { hS with })

theorem State.walkQueue_shape (s : State) (p : Nat) (w : Walk) (d : DevEntry) (e : EvtEntry) (hS : Shape s) : Shape (State.walkQueue s p w d e) := by
  unfold State.walkQueue
  try dsimp only
  repeat' (first
    | with_reducible assumption
    | (intro x hx; with_reducible exact hx)
    | (intro x hx; exact { hx with })
    | intro _
    | with_reducible apply foldList_shape
    | with_reducible apply State.endWalk_shape
    | with_reducible apply State.updPos_shape
    | with_reducible apply State.walkHandle_shape
    | split
    | dsimp only
    | exact { hS with })

theorem State.walkFill_shape (s : State) (w : Walk) (got : Bool) (d : DevEntry) (e : Option EvtEntry) (hS : Shape s) : Shape (State.walkFill s w got d e) := by
  unfold State.walkFill
  try dsimp only
  repeat' (first
    | with_reducible assumption
    | (intro x hx; with_reducible exact hx)
    | (intro x hx; exact { hx with })
    | intro _
    | with_reducible apply ite_shape
    | with_reducible apply State.devFill_shape
    | with_reducible apply State.cacheFill_shape
    | split
    | dsimp only
    | exact { hS with })

theorem State.walkDevDone_shape (s : State) (p : Nat) (w : Walk) (hS : Shape s) : Shape (State.walkDevDone s p w) := by
  unfold State.walkDevDone
  try dsimp only
  repeat' (first
    | with_reducible assumption
    | (intro x hx; with_reducible exact hx)
    | (intro x hx; exact { hx with })
    | intro _
    | with_reducible apply ite_shape
    | with_reducible apply State.charge_shape
    | with_reducible apply State.walkFill_shape
    | with_reducible apply State.walkQueue_shape
    | with_reducible apply State.updPos_shape
    | with_reducible apply State.walkRead_shape
    | split
    | dsimp only
    | exact { hS with })

theorem State.walkEvtDone_shape (s : State) (p : Nat) (w : Walk) (hS : Shape s) : Shape (State.walkEvtDone s p w) := by
  unfold State.walkEvtDone
  try dsimp only
  repeat' (first
    | with_reducible assumption
    | (intro x hx; with_reducible exact hx)
    | (intro x hx; exact { hx with })
    | intro _
    | with_reducible apply State.charge_shape
    | with_reducible apply State.walkFill_shape
    | with_reducible apply State.walkQueue_shape
    | split
    | dsimp only
    | exact { hS with })

theorem State.walkFail_shape (s : State) (p : Nat) (w : Walk) (kind : BitVec 2) (hS : Shape s) : Shape (State.walkFail s p w kind) := by
  unfold State.walkFail
  try dsimp only
  repeat' (first
    | with_reducible assumption
    | (intro x hx; with_reducible exact hx)
    | (intro x hx; exact { hx with })
    | intro _
    | with_reducible apply ite_shape
    | with_reducible apply State.report_shape
    | with_reducible apply State.updRidge_shape
    | with_reducible apply State.endWalk_shape
    | with_reducible apply State.modXl_shape
    | split
    | dsimp only
    | exact { hS with })

theorem State.walkStep_shape (s : State) (p : Nat) (h : Handle) (hS : Shape s) : Shape (State.walkStep s p h) := by
  unfold State.walkStep
  try dsimp only
  repeat' (first
    | with_reducible assumption
    | (intro x hx; with_reducible exact hx)
    | (intro x hx; exact { hx with })
    | intro _
    | with_reducible apply ite_shape
    | with_reducible apply State.takeRead_shape
    | with_reducible apply State.walkFail_shape
    | with_reducible apply State.walkDevDone_shape
    | with_reducible apply State.walkEvtDone_shape
    | split
    | dsimp only
    | exact { hS with })

theorem State.cancelWalks_shape (s : State) (q : BitVec 16) (only : Option (BitVec 20)) (hS : Shape s) : Shape (State.cancelWalks s q only) := by
  unfold State.cancelWalks
  try dsimp only
  repeat' (first
    | with_reducible assumption
    | (intro x hx; with_reducible exact hx)
    | (intro x hx; exact { hx with })
    | intro _
    | with_reducible apply ite_shape
    | with_reducible apply foldList_shape
    | with_reducible apply foldBelow_shape
    | with_reducible apply State.modMem_shape
    | with_reducible apply State.updPos_shape
    | with_reducible apply State.walkRead_shape
    | split
    | dsimp only
    | exact { hS with })

theorem State.takeHead_shape (s : State) (p : Nat) (w : Nat × Rec) (hS : Shape s) : Shape (State.takeHead s p w) := by
  unfold State.takeHead
  try dsimp only
  repeat' (first
    | with_reducible assumption
    | (intro x hx; with_reducible exact hx)
    | (intro x hx; exact { hx with })
    | intro _
    | with_reducible apply ite_shape
    | with_reducible apply State.updPass_shape
    | with_reducible apply State.updInq_shape
    | split
    | dsimp only
    | exact { hS with })

theorem State.grantTo_shape (s : State) (p : Nat) (l : List (Nat × Rec)) (w : Nat × Rec) (hS : Shape s) : Shape (State.grantTo s p l w) := by
  unfold State.grantTo
  try dsimp only
  repeat' (first
    | with_reducible assumption
    | (intro x hx; with_reducible exact hx)
    | (intro x hx; exact { hx with })
    | intro _
    | with_reducible apply ite_shape
    | with_reducible apply foldList_shape
    | with_reducible apply State.updArb_shape
    | with_reducible apply State.takeHead_shape
    | with_reducible apply State.settleWrite_shape
    | with_reducible apply State.translate_shape
    | split
    | dsimp only
    | exact { hS with })

theorem State.waitAll_shape (s : State) (p : Nat) (l : List (Nat × Rec)) (hS : Shape s) : Shape (State.waitAll s p l) := by
  unfold State.waitAll
  try dsimp only
  repeat' (first
    | with_reducible assumption
    | (intro x hx; with_reducible exact hx)
    | (intro x hx; exact { hx with })
    | intro _
    | with_reducible apply foldList_shape
    | with_reducible apply State.updArb_shape
    | split
    | dsimp only
    | exact { hS with })

theorem State.setWithhold_shape (s : State) (p : Nat) (hS : Shape s) : Shape (State.setWithhold s p) := by
  unfold State.setWithhold
  try dsimp only
  repeat' (first
    | with_reducible assumption
    | (intro x hx; with_reducible exact hx)
    | (intro x hx; exact { hx with })
    | intro _
    | with_reducible apply ite_shape
    | with_reducible apply State.updPos_shape
    | with_reducible apply State.updRidge_shape
    | split
    | dsimp only
    | exact { hS with })

theorem State.grantWithheld_shape (s : State) (p : Nat) (l : List (Nat × Rec)) (hS : Shape s) : Shape (State.grantWithheld s p l) := by
  unfold State.grantWithheld
  try dsimp only
  repeat' (first
    | with_reducible assumption
    | (intro x hx; with_reducible exact hx)
    | (intro x hx; exact { hx with })
    | intro _
    | with_reducible apply State.updRidge_shape
    | with_reducible apply State.waitAll_shape
    | with_reducible apply State.grantTo_shape
    | split
    | dsimp only
    | exact { hS with })

theorem State.clearMasked_shape (s : State) (p : Nat) (hS : Shape s) : Shape (State.clearMasked s p) := by
  unfold State.clearMasked
  try dsimp only
  repeat' (first
    | with_reducible assumption
    | (intro x hx; with_reducible exact hx)
    | (intro x hx; exact { hx with })
    | intro _
    | with_reducible apply ite_shape
    | with_reducible apply foldBelow_shape
    | with_reducible apply State.updArb_shape
    | split
    | dsimp only
    | exact { hS with })

theorem State.contest_shape (s : State) (p : Nat) (hS : Shape s) : Shape (State.contest s p) := by
  unfold State.contest
  try dsimp only
  repeat' (first
    | with_reducible assumption
    | (intro x hx; with_reducible exact hx)
    | (intro x hx; exact { hx with })
    | intro _
    | with_reducible apply ite_shape
    | with_reducible apply State.clearMasked_shape
    | with_reducible apply State.grantWithheld_shape
    | with_reducible apply State.updPos_shape
    | with_reducible apply State.setWithhold_shape
    | with_reducible apply State.grantTo_shape
    | split
    | dsimp only
    | exact { hS with })

theorem State.sendLanes_shape (s : State) (k : Nat) (f : BitVec 256) (hS : Shape s) : Shape (State.sendLanes s k f) := by
  unfold State.sendLanes
  try dsimp only
  repeat' (first
    | with_reducible assumption
    | (intro x hx; with_reducible exact hx)
    | (intro x hx; exact { hx with })
    | intro _
    | with_reducible apply foldList_shape
    | with_reducible apply State.updLane_shape
    | split
    | dsimp only
    | exact { hS with })

theorem State.recvLanes_shape (s : State) (k : Nat) (f : BitVec 256) (hS : Shape s) : Shape (State.recvLanes s k f) := by
  unfold State.recvLanes
  try dsimp only
  repeat' (first
    | with_reducible assumption
    | (intro x hx; with_reducible exact hx)
    | (intro x hx; exact { hx with })
    | intro _
    | with_reducible apply foldList_shape
    | with_reducible apply State.updLane_shape
    | split
    | dsimp only
    | exact { hS with })

theorem State.sendFlit_shape (s : State) (k : Nat) (f : BitVec 256) (hS : Shape s) : Shape (State.sendFlit s k f) := by
  unfold State.sendFlit
  try dsimp only
  repeat' (first
    | with_reducible assumption
    | (intro x hx; with_reducible exact hx)
    | (intro x hx; exact { hx with })
    | intro _
    | with_reducible apply ite_shape
    | with_reducible apply State.updLink_shape
    | with_reducible apply State.sendLanes_shape
    | split
    | dsimp only
    | exact { hS with })

theorem State.sendPlain_shape (s : State) (k : Nat) (type : BitVec 4) (payload : BitVec 192) (hS : Shape s) : Shape (State.sendPlain s k type payload) := by
  unfold State.sendPlain
  try dsimp only
  repeat' (first
    | with_reducible assumption
    | (intro x hx; with_reducible exact hx)
    | (intro x hx; exact { hx with })
    | intro _
    | with_reducible apply State.sendFlit_shape
    | split
    | dsimp only
    | exact { hS with })

theorem State.sendSeq_shape (s : State) (k : Nat) (b : BitVec 224) (hS : Shape s) : Shape (State.sendSeq s k b) := by
  unfold State.sendSeq
  try dsimp only
  repeat' (first
    | with_reducible assumption
    | (intro x hx; with_reducible exact hx)
    | (intro x hx; exact { hx with })
    | intro _
    | with_reducible apply ite_shape
    | with_reducible apply State.sendFlit_shape
    | with_reducible apply State.updLink_shape
    | split
    | dsimp only
    | exact { hS with })

theorem State.closeBurst_shape (s : State) (k : Nat) (hS : Shape s) : Shape (State.closeBurst s k) := by
  unfold State.closeBurst
  try dsimp only
  repeat' (first
    | with_reducible assumption
    | (intro x hx; with_reducible exact hx)
    | (intro x hx; exact { hx with })
    | intro _
    | with_reducible apply ite_shape
    | with_reducible apply State.sendSeq_shape
    | with_reducible apply State.updLink_shape
    | split
    | dsimp only
    | exact { hS with })

theorem State.sendEntries_shape (s : State) (k : Nat) (e0 e1 : BitVec 96) (hS : Shape s) : Shape (State.sendEntries s k e0 e1) := by
  unfold State.sendEntries
  try dsimp only
  repeat' (first
    | with_reducible assumption
    | (intro x hx; with_reducible exact hx)
    | (intro x hx; exact { hx with })
    | intro _
    | with_reducible apply ite_shape
    | with_reducible apply State.sendSeq_shape
    | with_reducible apply State.updLink_shape
    | with_reducible apply State.closeBurst_shape
    | split
    | dsimp only
    | exact { hS with })

theorem State.pumpLink_shape (s : State) (k n : Nat) (h : Shape s) : Shape (s.pumpLink k n) := by
  induction n generalizing s with
  | zero => exact h
  | succ n ih =>
    unfold State.pumpLink
    dsimp only
    (repeat' split)
    · exact ih _ (State.closeBurst_shape _ _ h)
    · exact h
    · exact State.sendEntries_shape _ _ _ _ (State.updLink_shape _ _ h)
    · exact ih _ (State.sendEntries_shape _ _ _ _ (State.updLink_shape _ _ h))
    · exact h

theorem State.pump_shape (s : State) (k : Nat) (hS : Shape s) : Shape (State.pump s k) := by
  unfold State.pump
  try dsimp only
  repeat' (first
    | with_reducible assumption
    | (intro x hx; with_reducible exact hx)
    | (intro x hx; exact { hx with })
    | intro _
    | with_reducible apply State.pumpLink_shape
    | split
    | dsimp only
    | exact { hS with })

theorem State.queueEntry_shape (s : State) (k : Nat) (e : BitVec 96) (hS : Shape s) : Shape (State.queueEntry s k e) := by
  unfold State.queueEntry
  try dsimp only
  repeat' (first
    | with_reducible assumption
    | (intro x hx; with_reducible exact hx)
    | (intro x hx; exact { hx with })
    | intro _
    | with_reducible apply State.updLink_shape
    | with_reducible apply State.pump_shape
    | split
    | dsimp only
    | exact { hS with })

theorem State.orphan_shape (s : State) (k : Nat) (src : BitVec 12) (hS : Shape s) : Shape (State.orphan s k src) := by
  unfold State.orphan
  try dsimp only
  repeat' (first
    | with_reducible assumption
    | (intro x hx; with_reducible exact hx)
    | (intro x hx; exact { hx with })
    | intro _
    | with_reducible apply ite_shape
    | with_reducible apply State.updLink_shape
    | split
    | dsimp only
    | exact { hS with })

theorem State.sendEoi_shape (s : State) (k : Nat) (src : BitVec 12) (hS : Shape s) : Shape (State.sendEoi s k src) := by
  unfold State.sendEoi
  try dsimp only
  repeat' (first
    | with_reducible assumption
    | (intro x hx; with_reducible exact hx)
    | (intro x hx; exact { hx with })
    | intro _
    | with_reducible apply ite_shape
    | with_reducible apply State.orphan_shape
    | with_reducible apply State.queueEntry_shape
    | split
    | dsimp only
    | exact { hS with })

theorem State.pumpNotices_shape (s : State) (k n : Nat) (h : Shape s) : Shape (s.pumpNotices k n) := by
  induction n generalizing s with
  | zero => exact h
  | succ n ih =>
    unfold State.pumpNotices
    (repeat' split)
    · exact h
    · exact ih _ (State.queueEntry_shape _ _ _ (State.updLink_shape _ _ (State.modPartner_shape _ h)))
    · exact ih _ (State.queueEntry_shape _ _ _ (State.updLink_shape _ _ (State.modPartner_shape _ h)))
    · exact h

theorem State.notice_shape (s : State) (pair src : Nat) (e : BitVec 96) (hS : Shape s) : Shape (State.notice s pair src e) := by
  unfold State.notice
  try dsimp only
  repeat' (first
    | with_reducible assumption
    | (intro x hx; with_reducible exact hx)
    | (intro x hx; exact { hx with })
    | intro _
    | with_reducible apply ite_shape
    | with_reducible apply State.modPartner_shape
    | with_reducible apply State.pumpNotices_shape
    | split
    | dsimp only
    | exact { hS with })

theorem State.sendRole_shape (s : State) (op : BitVec 4) (pair : Nat) (hS : Shape s) : Shape (State.sendRole s op pair) := by
  unfold State.sendRole
  try dsimp only
  repeat' (first
    | with_reducible assumption
    | (intro x hx; with_reducible exact hx)
    | (intro x hx; exact { hx with })
    | intro _
    | with_reducible apply ite_shape
    | with_reducible apply State.queueEntry_shape
    | split
    | dsimp only
    | exact { hS with })

theorem State.sendSync_shape (s : State) (col : Nat) (e : BitVec 96) (hS : Shape s) : Shape (State.sendSync s col e) := by
  unfold State.sendSync
  try dsimp only
  repeat' (first
    | with_reducible assumption
    | (intro x hx; with_reducible exact hx)
    | (intro x hx; exact { hx with })
    | intro _
    | with_reducible apply State.updLink_shape
    | with_reducible apply State.queueEntry_shape
    | split
    | dsimp only
    | exact { hS with })

theorem State.pumpSync_shape (s : State) (col n : Nat) (h : Shape s) : Shape (s.pumpSync col n) := by
  induction n generalizing s with
  | zero => exact h
  | succ n ih =>
    unfold State.pumpSync
    dsimp only
    (repeat' split) <;> first | exact h | exact ih _ (State.sendSync_shape _ _ _ (State.modPartner_shape _ h))

theorem State.pumpCol_shape (s : State) (hS : Shape s) : Shape (State.pumpCol s) := by
  unfold State.pumpCol
  try dsimp only
  repeat' (first
    | with_reducible assumption
    | (intro x hx; with_reducible exact hx)
    | (intro x hx; exact { hx with })
    | intro _
    | with_reducible apply ite_shape
    | with_reducible apply State.pumpNotices_shape
    | with_reducible apply State.pumpSync_shape
    | split
    | dsimp only
    | exact { hS with })

theorem State.startSync_shape (s : State) (pair : Nat) (hS : Shape s) : Shape (State.startSync s pair) := by
  unfold State.startSync
  try dsimp only
  repeat' (first
    | with_reducible assumption
    | (intro x hx; with_reducible exact hx)
    | (intro x hx; exact { hx with })
    | intro _
    | with_reducible apply ite_shape
    | with_reducible apply State.modPartner_shape
    | with_reducible apply State.pumpCol_shape
    | split
    | dsimp only
    | exact { hS with })

theorem State.evalPair_shape (s : State) (t n : Nat) (hS : Shape s) : Shape (State.evalPair s t n) := by
  unfold State.evalPair
  try dsimp only
  repeat' (first
    | with_reducible assumption
    | (intro x hx; with_reducible exact hx)
    | (intro x hx; exact { hx with })
    | intro _
    | with_reducible apply ite_shape
    | with_reducible apply State.updPair_shape
    | split
    | dsimp only
    | exact { hS with })

theorem State.evalTarget_shape (s : State) (t : Nat) (hS : Shape s) : Shape (State.evalTarget s t) := by
  unfold State.evalTarget
  try dsimp only
  repeat' (first
    | with_reducible assumption
    | (intro x hx; with_reducible exact hx)
    | (intro x hx; exact { hx with })
    | intro _
    | with_reducible apply foldBelow_shape
    | with_reducible apply State.evalPair_shape
    | split
    | dsimp only
    | exact { hS with })

end Sys2Proof.Machine
end

