-- ==== Sys2Proof/Laws/ShapeDeliver.lean ====
section
/-! SUPPORT. The shape of the state is kept by every function on it: from State.evalAll_shape in the order of the model's files. -/

namespace Sys2Proof.Machine

theorem State.evalAll_shape (s : State) (h : Shape s) : Shape s.evalAll := foldList_shape h (fun _ _ h => State.evalTarget_shape _ _ h)

theorem State.updStore_shape (s : State) (t : Nat) (f : List Inst → List Inst) (hS : Shape s) : Shape (State.updStore s t f) := by
  unfold State.updStore
  try dsimp only
  repeat' (first
    | with_reducible assumption
    | (intro x hx; with_reducible exact hx)
    | (intro x hx; exact { hx with })
    | intro _
    | with_reducible apply State.updTgt_shape
    | split
    | dsimp only
    | exact { hS with })

theorem State.updInst_shape (s : State) (t : Nat) (serial : BitVec 32) (f : Inst → Inst) (hS : Shape s) : Shape (State.updInst s t serial f) := by
  unfold State.updInst
  try dsimp only
  repeat' (first
    | with_reducible assumption
    | (intro x hx; with_reducible exact hx)
    | (intro x hx; exact { hx with })
    | intro _
    | with_reducible apply ite_shape
    | with_reducible apply State.updStore_shape
    | split
    | dsimp only
    | exact { hS with })

theorem State.dropInst_shape (s : State) (t : Nat) (serial : BitVec 32) (hS : Shape s) : Shape (State.dropInst s t serial) := by
  unfold State.dropInst
  try dsimp only
  repeat' (first
    | with_reducible assumption
    | (intro x hx; with_reducible exact hx)
    | (intro x hx; exact { hx with })
    | intro _
    | with_reducible apply State.updStore_shape
    | split
    | dsimp only
    | exact { hS with })

theorem State.groupNoPending_shape (s : State) (g : Nat) (hS : Shape s) : Shape (State.groupNoPending s g) := by
  unfold State.groupNoPending
  try dsimp only
  repeat' (first
    | with_reducible assumption
    | (intro x hx; with_reducible exact hx)
    | (intro x hx; exact { hx with })
    | intro _
    | with_reducible apply ite_shape
    | with_reducible apply State.updGrp_shape
    | split
    | dsimp only
    | exact { hS with })

theorem State.removeInst_shape (s : State) (t : Nat) (x : Inst) (hS : Shape s) : Shape (State.removeInst s t x) := by
  unfold State.removeInst
  try dsimp only
  repeat' (first
    | with_reducible assumption
    | (intro x hx; with_reducible exact hx)
    | (intro x hx; exact { hx with })
    | intro _
    | with_reducible apply State.dropInst_shape
    | with_reducible apply State.groupNoPending_shape
    | with_reducible apply State.ackAll_shape
    | split
    | dsimp only
    | exact { hS with })

theorem State.countBelay_shape (s : State) (t : Nat) (f : Belay → Belay) (hS : Shape s) : Shape (State.countBelay s t f) := by
  unfold State.countBelay
  try dsimp only
  repeat' (first
    | with_reducible assumption
    | (intro x hx; with_reducible exact hx)
    | (intro x hx; exact { hx with })
    | intro _
    | with_reducible apply State.updBel_shape
    | split
    | dsimp only
    | exact { hS with })

theorem State.spill_shape (s : State) (t : Nat) (x : Inst) (hS : Shape s) : Shape (State.spill s t x) := by
  unfold State.spill
  try dsimp only
  repeat' (first
    | with_reducible assumption
    | (intro x hx; with_reducible exact hx)
    | (intro x hx; exact { hx with })
    | intro _
    | with_reducible apply ite_shape
    | with_reducible apply State.removeInst_shape
    | with_reducible apply State.countBelay_shape
    | with_reducible apply State.degrade_shape
    | with_reducible apply State.drawLine_shape
    | with_reducible apply State.updInst_shape
    | with_reducible apply State.updGrp_shape
    | with_reducible apply State.charge_shape
    | with_reducible apply State.memWrite_shape
    | split
    | dsimp only
    | exact { hS with })

theorem State.settleStore_shape (s : State) (t : Nat) (serial : BitVec 32) (hS : Shape s) : Shape (State.settleStore s t serial) := by
  unfold State.settleStore
  try dsimp only
  repeat' (first
    | with_reducible assumption
    | (intro x hx; with_reducible exact hx)
    | (intro x hx; exact { hx with })
    | intro _
    | with_reducible apply ite_shape
    | with_reducible apply State.spill_shape
    | split
    | dsimp only
    | exact { hS with })

theorem State.placeAt_shape (s : State) (t : Nat) (x : Inst) (hS : Shape s) : Shape (State.placeAt s t x) := by
  unfold State.placeAt
  try dsimp only
  repeat' (first
    | with_reducible assumption
    | (intro x hx; with_reducible exact hx)
    | (intro x hx; exact { hx with })
    | intro _
    | with_reducible apply State.updStore_shape
    | with_reducible apply State.settleStore_shape
    | split
    | dsimp only
    | exact { hS with })

theorem State.placeBack_shape (s : State) (t : Nat) (x : Inst) (hS : Shape s) : Shape (State.placeBack s t x) := by
  unfold State.placeBack
  try dsimp only
  repeat' (first
    | with_reducible assumption
    | (intro x hx; with_reducible exact hx)
    | (intro x hx; exact { hx with })
    | intro _
    | with_reducible apply State.updStore_shape
    | with_reducible apply State.settleStore_shape
    | split
    | dsimp only
    | exact { hS with })

theorem State.pumpRefill_shape (s : State) (t : Nat) (hS : Shape s) : Shape (State.pumpRefill s t) := by
  unfold State.pumpRefill
  try dsimp only
  repeat' (first
    | with_reducible assumption
    | (intro x hx; with_reducible exact hx)
    | (intro x hx; exact { hx with })
    | intro _
    | with_reducible apply ite_shape
    | with_reducible apply State.charge_shape
    | with_reducible apply State.readBack_shape
    | split
    | dsimp only
    | exact { hS with })

theorem State.setDue_shape (s : State) (g t : Nat) (serial : BitVec 32) (hS : Shape s) : Shape (State.setDue s g t serial) := by
  unfold State.setDue
  try dsimp only
  repeat' (first
    | with_reducible assumption
    | (intro x hx; with_reducible exact hx)
    | (intro x hx; exact { hx with })
    | intro _
    | with_reducible apply State.updInst_shape
    | with_reducible apply State.updGrp_shape
    | split
    | dsimp only
    | exact { hS with })

theorem State.mergeInto_shape (s : State) (r : Routed) (hS : Shape s) : Shape (State.mergeInto s r) := by
  unfold State.mergeInto
  try dsimp only
  repeat' (first
    | with_reducible assumption
    | (intro x hx; with_reducible exact hx)
    | (intro x hx; exact { hx with })
    | intro _
    | with_reducible apply ite_shape
    | with_reducible apply State.updGrp_shape
    | with_reducible apply State.ackMerge_shape
    | with_reducible apply State.ack_shape
    | with_reducible apply State.updInst_shape
    | with_reducible apply State.setDue_shape
    | with_reducible apply State.updVt_shape
    | split
    | dsimp only
    | exact { hS with })

theorem State.openP_shape (s : State) (r : Routed) (h : Handle) (x : Inst) (hS : Shape s) : Shape (State.openP s r h x).2 := by
  unfold State.openP
  try dsimp only
  repeat' (first
    | with_reducible assumption
    | (intro x hx; with_reducible exact hx)
    | (intro x hx; exact { hx with })
    | intro _
    | with_reducible apply ite_shape
    | with_reducible apply State.updGrp_shape
    | with_reducible apply State.updLog_shape
    | split
    | dsimp only
    | exact { hS with })

theorem State.bivouacPut_shape (s : State) (v : BitVec 16) (x : Inst) (landing : Bool) (hS : Shape s) : Shape (State.bivouacPut s v x landing) := by
  unfold State.bivouacPut
  try dsimp only
  repeat' (first
    | with_reducible assumption
    | (intro x hx; with_reducible exact hx)
    | (intro x hx; exact { hx with })
    | intro _
    | with_reducible apply ite_shape
    | with_reducible apply State.updVt_shape
    | with_reducible apply State.groupNoPending_shape
    | with_reducible apply State.ackAll_shape
    | with_reducible apply State.degrade_shape
    | with_reducible apply State.updGrp_shape
    | with_reducible apply State.charge_shape
    | with_reducible apply State.memWrite_shape
    | split
    | dsimp only
    | exact { hS with })

theorem State.settleIn_shape (s : State) (r : Routed) (x : Inst) (hS : Shape s) : Shape (State.settleIn s r x) := by
  unfold State.settleIn
  try dsimp only
  repeat' (first
    | with_reducible assumption
    | (intro x hx; with_reducible exact hx)
    | (intro x hx; exact { hx with })
    | intro _
    | with_reducible apply State.countBelay_shape
    | with_reducible apply State.bivouacPut_shape
    | with_reducible apply State.placeAt_shape
    | split
    | dsimp only
    | exact { hS with })

theorem State.landNew_shape (s : State) (r : Routed) (hS : Shape s) : Shape (State.landNew s r) := by
  unfold State.landNew
  try dsimp only
  repeat' (first
    | with_reducible assumption
    | (intro x hx; with_reducible exact hx)
    | (intro x hx; exact { hx with })
    | intro _
    | with_reducible apply ite_shape
    | with_reducible apply State.mergeInto_shape
    | with_reducible apply State.openP_shape
    | with_reducible apply State.settleIn_shape
    | with_reducible apply State.updGrp_shape
    | split
    | dsimp only
    | exact { hS with })

theorem State.updHere_shape (s : State) (r : Routed) (w : Inst × Option (BitVec 16)) (f : Inst → Inst) (hS : Shape s) : Shape (State.updHere s r w f) := by
  unfold State.updHere
  try dsimp only
  repeat' (first
    | with_reducible assumption
    | (intro x hx; with_reducible exact hx)
    | (intro x hx; exact { hx with })
    | intro _
    | with_reducible apply ite_shape
    | with_reducible apply State.updVt_shape
    | with_reducible apply State.updInst_shape
    | split
    | dsimp only
    | exact { hS with })

theorem State.removeHere_shape (s : State) (r : Routed) (w : Inst × Option (BitVec 16)) (hS : Shape s) : Shape (State.removeHere s r w) := by
  unfold State.removeHere
  try dsimp only
  repeat' (first
    | with_reducible assumption
    | (intro x hx; with_reducible exact hx)
    | (intro x hx; exact { hx with })
    | intro _
    | with_reducible apply State.updVt_shape
    | with_reducible apply State.groupNoPending_shape
    | with_reducible apply State.ackAll_shape
    | with_reducible apply State.removeInst_shape
    | split
    | dsimp only
    | exact { hS with })

theorem State.updActive_shape (s : State) (h : Handle) (f : Active → Active) (hS : Shape s) : Shape (State.updActive s h f) := by
  unfold State.updActive
  try dsimp only
  repeat' (first
    | with_reducible assumption
    | (intro x hx; with_reducible exact hx)
    | (intro x hx; exact { hx with })
    | intro _
    | with_reducible apply ite_shape
    | with_reducible apply foldList_shape
    | with_reducible apply State.updPair_shape
    | with_reducible apply State.updVt_shape
    | split
    | dsimp only
    | exact { hS with })

theorem State.levelAssertLands_shape (s : State) (r : Routed) (h : Handle) (hS : Shape s) : Shape (State.levelAssertLands s r h) := by
  unfold State.levelAssertLands
  try dsimp only
  repeat' (first
    | with_reducible assumption
    | (intro x hx; with_reducible exact hx)
    | (intro x hx; exact { hx with })
    | intro _
    | with_reducible apply ite_shape
    | with_reducible apply State.updHere_shape
    | with_reducible apply State.landNew_shape
    | with_reducible apply State.updActive_shape
    | with_reducible apply State.ack_shape
    | split
    | dsimp only
    | exact { hS with })

theorem State.levelDeassertLands_shape (s : State) (r : Routed) (h : Handle) (hS : Shape s) : Shape (State.levelDeassertLands s r h) := by
  unfold State.levelDeassertLands
  try dsimp only
  repeat' (first
    | with_reducible assumption
    | (intro x hx; with_reducible exact hx)
    | (intro x hx; exact { hx with })
    | intro _
    | with_reducible apply ite_shape
    | with_reducible apply State.removeHere_shape
    | with_reducible apply State.ack_shape
    | with_reducible apply State.updActive_shape
    | split
    | dsimp only
    | exact { hS with })

theorem State.withdrawLands_shape (s : State) (r : Routed) (h : Handle) (hS : Shape s) : Shape (State.withdrawLands s r h) := by
  unfold State.withdrawLands
  try dsimp only
  repeat' (first
    | with_reducible assumption
    | (intro x hx; with_reducible exact hx)
    | (intro x hx; exact { hx with })
    | intro _
    | with_reducible apply State.removeHere_shape
    | with_reducible apply State.ack_shape
    | split
    | dsimp only
    | exact { hS with })

theorem State.recordLands_shape (s : State) (r : Routed) (hS : Shape s) : Shape (State.recordLands s r) := by
  unfold State.recordLands
  try dsimp only
  repeat' (first
    | with_reducible assumption
    | (intro x hx; with_reducible exact hx)
    | (intro x hx; exact { hx with })
    | intro _
    | with_reducible apply ite_shape
    | with_reducible apply State.landedLog_shape
    | with_reducible apply State.ring_shape
    | with_reducible apply State.ack_shape
    | with_reducible apply State.landNew_shape
    | with_reducible apply State.withdrawLands_shape
    | with_reducible apply State.levelAssertLands_shape
    | with_reducible apply State.levelDeassertLands_shape
    | split
    | dsimp only
    | exact { hS with })

theorem State.movedLands_shape (s : State) (x : Inst) (biv : Option (BitVec 16)) (hS : Shape s) : Shape (State.movedLands s x biv) := by
  unfold State.movedLands
  try dsimp only
  repeat' (first
    | with_reducible assumption
    | (intro x hx; with_reducible exact hx)
    | (intro x hx; exact { hx with })
    | intro _
    | with_reducible apply ite_shape
    | with_reducible apply State.countBelay_shape
    | with_reducible apply State.bivouacPut_shape
    | with_reducible apply State.placeAt_shape
    | split
    | dsimp only
    | exact { hS with })

theorem State.after_shape (s : State) (t : Nat) (hS : Shape s) : Shape (State.after s t) := by
  unfold State.after
  try dsimp only
  repeat' (first
    | with_reducible assumption
    | (intro x hx; with_reducible exact hx)
    | (intro x hx; exact { hx with })
    | intro _
    | with_reducible apply State.pumpRefill_shape
    | with_reducible apply State.evalAll_shape
    | split
    | dsimp only
    | exact { hS with })

theorem State.forwardMoved_shape (s : State) (h : Handle) (x : Inst) (hS : Shape s) : Shape (State.forwardMoved s h x) := by
  unfold State.forwardMoved
  try dsimp only
  repeat' (first
    | with_reducible assumption
    | (intro x hx; with_reducible exact hx)
    | (intro x hx; exact { hx with })
    | intro _
    | with_reducible apply ite_shape
    | with_reducible apply State.charge_shape
    | with_reducible apply State.groupNoPending_shape
    | with_reducible apply State.ackAll_shape
    | with_reducible apply State.toPlain_shape
    | with_reducible apply State.ring_shape
    | split
    | dsimp only
    | exact { hS with })

theorem State.finishMove_shape (s : State) (h : Handle) (hS : Shape s) : Shape (State.finishMove s h) := by
  unfold State.finishMove
  try dsimp only
  repeat' (first
    | with_reducible assumption
    | (intro x hx; with_reducible exact hx)
    | (intro x hx; exact { hx with })
    | intro _
    | with_reducible apply ite_shape
    | with_reducible apply State.updPos_shape
    | with_reducible apply State.releaseWaits_shape
    | split
    | dsimp only
    | exact { hS with })

theorem State.refillGroup_shape (s : State) (x : Inst) (hS : Shape s) : Shape (State.refillGroup s x).2 := by
  unfold State.refillGroup
  try dsimp only
  repeat' (first
    | with_reducible assumption
    | (intro x hx; with_reducible exact hx)
    | (intro x hx; exact { hx with })
    | intro _
    | with_reducible apply ite_shape
    | with_reducible apply State.updGrp_shape
    | split
    | dsimp only
    | exact { hS with })

theorem State.moveLands_shape (s : State) (h : Handle) (t : Nat) (hS : Shape s) : Shape (State.moveLands s h t) := by
  unfold State.moveLands
  try dsimp only
  repeat' (first
    | with_reducible assumption
    | (intro x hx; with_reducible exact hx)
    | (intro x hx; exact { hx with })
    | intro _
    | with_reducible apply ite_shape
    | with_reducible apply foldList_shape
    | with_reducible apply State.charge_shape
    | with_reducible apply State.updStore_shape
    | with_reducible apply State.updVt_shape
    | with_reducible apply State.updActive_shape
    | with_reducible apply State.updPos_shape
    | with_reducible apply State.forwardMoved_shape
    | with_reducible apply State.refillGroup_shape
    | with_reducible apply State.finishMove_shape
    | split
    | dsimp only
    | exact { hS with })

theorem State.rerankLands_shape (s : State) (h : Handle) (prio : BitVec 8) (t : Nat) (hS : Shape s) : Shape (State.rerankLands s h prio t) := by
  unfold State.rerankLands
  try dsimp only
  repeat' (first
    | with_reducible assumption
    | (intro x hx; with_reducible exact hx)
    | (intro x hx; exact { hx with })
    | intro _
    | with_reducible apply ite_shape
    | with_reducible apply foldList_shape
    | with_reducible apply State.charge_shape
    | with_reducible apply State.updActive_shape
    | with_reducible apply State.removeInst_shape
    | with_reducible apply State.groupNoPending_shape
    | with_reducible apply State.ackAll_shape
    | with_reducible apply State.updVt_shape
    | with_reducible apply State.updStore_shape
    | split
    | dsimp only
    | exact { hS with })

theorem State.claimNoticed_shape (s : State) (x : Inst) (hS : Shape s) : Shape (State.claimNoticed s x).2 := by
  unfold State.claimNoticed
  try dsimp only
  repeat' (first
    | with_reducible assumption
    | (intro x hx; with_reducible exact hx)
    | (intro x hx; exact { hx with })
    | intro _
    | with_reducible apply ite_shape
    | with_reducible apply State.notice_shape
    | split
    | dsimp only
    | exact { hS with })

theorem State.take_shape (s : State) (t n : Nat) (tag : Option (BitVec 11)) (x : Inst) (hS : Shape s) : Shape (State.take s t n tag x) := by
  unfold State.take
  try dsimp only
  repeat' (first
    | with_reducible assumption
    | (intro x hx; with_reducible exact hx)
    | (intro x hx; exact { hx with })
    | intro _
    | with_reducible apply ite_shape
    | with_reducible apply State.claimNoticed_shape
    | with_reducible apply State.dropInst_shape
    | with_reducible apply State.updPair_shape
    | with_reducible apply State.updGrp_shape
    | with_reducible apply State.wiredClaim_shape
    | with_reducible apply State.updFrame_shape
    | with_reducible apply State.countBelay_shape
    | with_reducible apply State.after_shape
    | split
    | dsimp only
    | exact { hS with })

theorem State.claimAt_shape (s : State) (t n : Nat) (tag : Option (BitVec 11)) (hS : Shape s) : Shape (State.claimAt s t n tag).2 := by
  unfold State.claimAt
  try dsimp only
  repeat' (first
    | with_reducible assumption
    | (intro x hx; with_reducible exact hx)
    | (intro x hx; exact { hx with })
    | intro _
    | with_reducible apply ite_shape
    | with_reducible apply State.take_shape
    | with_reducible apply State.updFrame_shape
    | with_reducible apply State.updPair_shape
    | split
    | dsimp only
    | exact { hS with })

theorem State.freshEntry_shape (s : State) (h : Handle) (x : Inst) (landed : Bool) (hS : Shape s) : Shape (State.freshEntry s h x landed).2 := by
  unfold State.freshEntry
  try dsimp only
  repeat' (first
    | with_reducible assumption
    | (intro x hx; with_reducible exact hx)
    | (intro x hx; exact { hx with })
    | intro _
    | with_reducible apply ite_shape
    | with_reducible apply State.updPos_shape
    | with_reducible apply State.updRidge_shape
    | with_reducible apply State.logWrite_shape
    | split
    | dsimp only
    | exact { hS with })

theorem State.reassert_shape (s : State) (t : Nat) (a : Active) (h : Handle) (hS : Shape s) : Shape (State.reassert s t a h) := by
  unfold State.reassert
  try dsimp only
  repeat' (first
    | with_reducible assumption
    | (intro x hx; with_reducible exact hx)
    | (intro x hx; exact { hx with })
    | intro _
    | with_reducible apply ite_shape
    | with_reducible apply State.freshEntry_shape
    | with_reducible apply State.forwardMoved_shape
    | with_reducible apply State.countBelay_shape
    | with_reducible apply State.placeAt_shape
    | split
    | dsimp only
    | exact { hS with })

theorem State.completed_shape (s : State) (t : Nat) (a : Active) (hS : Shape s) : Shape (State.completed s t a) := by
  unfold State.completed
  try dsimp only
  repeat' (first
    | with_reducible assumption
    | (intro x hx; with_reducible exact hx)
    | (intro x hx; exact { hx with })
    | intro _
    | with_reducible apply ite_shape
    | with_reducible apply State.ackAll_shape
    | with_reducible apply State.countBelay_shape
    | with_reducible apply State.updGrp_shape
    | with_reducible apply State.wiredComplete_shape
    | with_reducible apply State.sendEoi_shape
    | with_reducible apply State.notice_shape
    | with_reducible apply State.reassert_shape
    | split
    | dsimp only
    | exact { hS with })

theorem State.completeFirst_shape (s : State) (t n : Nat) (p : Active → Bool) (hS : Shape s) : Shape (State.completeFirst s t n p) := by
  unfold State.completeFirst
  try dsimp only
  repeat' (first
    | with_reducible assumption
    | (intro x hx; with_reducible exact hx)
    | (intro x hx; exact { hx with })
    | intro _
    | with_reducible apply State.updPair_shape
    | with_reducible apply State.completed_shape
    | split
    | dsimp only
    | exact { hS with })

theorem State.stray_shape (s : State) (t n : Nat) (tag : Option (BitVec 11)) (w : Option Word) (hS : Shape s) : Shape (State.stray s t n tag w) := by
  unfold State.stray
  try dsimp only
  repeat' (first
    | with_reducible assumption
    | (intro x hx; with_reducible exact hx)
    | (intro x hx; exact { hx with })
    | intro _
    | with_reducible apply ite_shape
    | with_reducible apply State.updFrame_shape
    | with_reducible apply State.report_shape
    | split
    | dsimp only
    | exact { hS with })

theorem State.completeAt_shape (s : State) (t n : Nat) (tag : Option (BitVec 11)) (w : Word) (hS : Shape s) : Shape (State.completeAt s t n tag w) := by
  unfold State.completeAt
  try dsimp only
  repeat' (first
    | with_reducible assumption
    | (intro x hx; with_reducible exact hx)
    | (intro x hx; exact { hx with })
    | intro _
    | with_reducible apply ite_shape
    | with_reducible apply State.completeFirst_shape
    | with_reducible apply State.after_shape
    | with_reducible apply State.stray_shape
    | split
    | dsimp only
    | exact { hS with })

theorem State.unwindAll_shape (s : State) (t n : Nat) (tag : Option (BitVec 11)) (k : Nat) (h : Shape s) : Shape (s.unwindAll t n tag k) := by
  induction k generalizing s with
  | zero => exact h
  | succ k ih => exact ih _ (State.completeFirst_shape _ _ _ _ h)

theorem State.unwindAt_shape (s : State) (t n : Nat) (tag : Option (BitVec 11)) (hS : Shape s) : Shape (State.unwindAt s t n tag) := by
  unfold State.unwindAt
  try dsimp only
  repeat' (first
    | with_reducible assumption
    | (intro x hx; with_reducible exact hx)
    | (intro x hx; exact { hx with })
    | intro _
    | with_reducible apply ite_shape
    | with_reducible apply State.present_shape
    | with_reducible apply State.unwindAll_shape
    | with_reducible apply State.after_shape
    | with_reducible apply State.stray_shape
    | split
    | dsimp only
    | exact { hS with })

theorem State.starveFrame_shape (s : State) (t n : Nat) (tag : Option (BitVec 11)) (hS : Shape s) : Shape (State.starveFrame s t n tag) := by
  unfold State.starveFrame
  try dsimp only
  repeat' (first
    | with_reducible assumption
    | (intro x hx; with_reducible exact hx)
    | (intro x hx; exact { hx with })
    | intro _
    | with_reducible apply ite_shape
    | with_reducible apply State.updFrame_shape
    | with_reducible apply State.report_shape
    | split
    | dsimp only
    | exact { hS with })

theorem State.resample_shape (s : State) (n : Nat) (hS : Shape s) : Shape (State.resample s n) := by
  unfold State.resample
  try dsimp only
  repeat' (first
    | with_reducible assumption
    | (intro x hx; with_reducible exact hx)
    | (intro x hx; exact { hx with })
    | intro _
    | with_reducible apply ite_shape
    | with_reducible apply State.updSrc_shape
    | with_reducible apply State.levelLine_shape
    | split
    | dsimp only
    | exact { hS with })

theorem State.startMove_shape (s : State) (h : Handle) (t : BitVec 9) (hS : Shape s) : Shape (State.startMove s h t) := by
  unfold State.startMove
  try dsimp only
  repeat' (first
    | with_reducible assumption
    | (intro x hx; with_reducible exact hx)
    | (intro x hx; exact { hx with })
    | intro _
    | with_reducible apply State.updPos_shape
    | with_reducible apply State.charge_shape
    | with_reducible apply State.toPlain_shape
    | split
    | dsimp only
    | exact { hS with })

theorem State.routeChanged_shape (s : State) (h : Handle) (t : Option (BitVec 9)) (old new : Route) (hS : Shape s) : Shape (State.routeChanged s h t old new) := by
  unfold State.routeChanged
  try dsimp only
  repeat' (first
    | with_reducible assumption
    | (intro x hx; with_reducible exact hx)
    | (intro x hx; exact { hx with })
    | intro _
    | with_reducible apply ite_shape
    | with_reducible apply State.ring_shape
    | with_reducible apply State.startMove_shape
    | with_reducible apply State.charge_shape
    | with_reducible apply State.toPlain_shape
    | split
    | dsimp only
    | exact { hS with })

theorem State.reconfigure_shape (s : State) (n : Nat) (f : Source → Source) (hS : Shape s) : Shape (State.reconfigure s n f) := by
  unfold State.reconfigure
  try dsimp only
  repeat' (first
    | with_reducible assumption
    | (intro x hx; with_reducible exact hx)
    | (intro x hx; exact { hx with })
    | intro _
    | with_reducible apply ite_shape
    | with_reducible apply State.updSrc_shape
    | with_reducible apply State.resample_shape
    | with_reducible apply State.routeChanged_shape
    | split
    | dsimp only
    | exact { hS with })

theorem State.cfgApply_shape (s : State) (r : CfgReg) (acc : Acc) (data : Word) (hS : Shape s) : Shape (State.cfgApply s r acc data) := by
  unfold State.cfgApply
  try dsimp only
  repeat' (first
    | with_reducible assumption
    | (intro x hx; with_reducible exact hx)
    | (intro x hx; exact { hx with })
    | intro _
    | with_reducible apply foldList_shape
    | with_reducible apply State.reconfigure_shape
    | split
    | dsimp only
    | exact { hS with })

theorem State.drainWaiting_shape (s : State) (n : Nat) (h : Shape s) : Shape (s.drainWaiting n) := by
  induction n generalizing s with
  | zero => exact h
  | succ n ih =>
    unfold State.drainWaiting
    (repeat' split)
    · exact h
    · exact h
    · exact ih _ (State.settleWrite_shape _ (State.cfgApply_shape _ _ _ _ (State.modWired_shape _ h (fun _ hx => { hx with }))))

theorem State.cfgWrite_shape (s : State) (r : CfgReg) (acc : Acc) (data : Word) (wid : Option Nat) (hS : Shape s) : Shape (State.cfgWrite s r acc data wid) := by
  unfold State.cfgWrite
  try dsimp only
  repeat' (first
    | with_reducible assumption
    | (intro x hx; with_reducible exact hx)
    | (intro x hx; exact { hx with })
    | intro _
    | with_reducible apply ite_shape
    | with_reducible apply State.modWired_shape
    | with_reducible apply State.cfgApply_shape
    | with_reducible apply State.settleWrite_shape
    | split
    | dsimp only
    | exact { hS with })

theorem State.quiet_shape (s : State) (hS : Shape s) : Shape (State.quiet s) := by
  unfold State.quiet
  try dsimp only
  repeat' (first
    | with_reducible assumption
    | (intro x hx; with_reducible exact hx)
    | (intro x hx; exact { hx with })
    | intro _
    | with_reducible apply State.drainWaiting_shape
    | split
    | dsimp only
    | exact { hS with })

theorem State.unpark_shape (s : State) (hS : Shape s) : Shape (State.unpark s) := by
  unfold State.unpark
  try dsimp only
  repeat' (first
    | with_reducible assumption
    | (intro x hx; with_reducible exact hx)
    | (intro x hx; exact { hx with })
    | intro _
    | with_reducible apply ite_shape
    | with_reducible apply foldList_shape
    | with_reducible apply foldBelow_shape
    | with_reducible apply State.modPwr_shape
    | with_reducible apply State.occur_shape
    | with_reducible apply State.levelLine_shape
    | with_reducible apply State.passRise_shape
    | with_reducible apply State.evalAll_shape
    | split
    | dsimp only
    | exact { hS with })

theorem State.takeLanding_shape (s : State) (b : Nat) (hS : Shape s) : Shape (State.takeLanding s b) := by
  unfold State.takeLanding
  try dsimp only
  repeat' (first
    | with_reducible assumption
    | (intro x hx; with_reducible exact hx)
    | (intro x hx; exact { hx with })
    | intro _
    | with_reducible apply State.updBel_shape
    | split
    | dsimp only
    | exact { hS with })

theorem State.rebuilt_shape (s : State) (t : Nat) (line : BitVec 47) (hS : Shape s) : Shape (State.rebuilt s t line) := by
  unfold State.rebuilt
  try dsimp only
  repeat' (first
    | with_reducible assumption
    | (intro x hx; with_reducible exact hx)
    | (intro x hx; exact { hx with })
    | intro _
    | with_reducible apply State.report_shape
    | with_reducible apply State.degrade_shape
    | split
    | dsimp only
    | exact { hS with })

theorem State.refillSpilled_shape (s : State) (t : Nat) (serial : BitVec 32) (failed : Bool) (hS : Shape s) : Shape (State.refillSpilled s t serial failed) := by
  unfold State.refillSpilled
  try dsimp only
  repeat' (first
    | with_reducible assumption
    | (intro x hx; with_reducible exact hx)
    | (intro x hx; exact { hx with })
    | intro _
    | with_reducible apply ite_shape
    | with_reducible apply State.refillGroup_shape
    | with_reducible apply State.countBelay_shape
    | with_reducible apply State.unretain_shape
    | with_reducible apply State.rebuilt_shape
    | with_reducible apply State.memWrite_shape
    | with_reducible apply State.dropInst_shape
    | with_reducible apply State.forwardMoved_shape
    | with_reducible apply State.finishMove_shape
    | with_reducible apply State.updInst_shape
    | split
    | dsimp only
    | exact { hS with })

theorem State.refillBivouac_shape (s : State) (c : Nat) (serial : BitVec 32) (failed : Bool) (hS : Shape s) : Shape (State.refillBivouac s c serial failed) := by
  unfold State.refillBivouac
  try dsimp only
  repeat' (first
    | with_reducible assumption
    | (intro x hx; with_reducible exact hx)
    | (intro x hx; exact { hx with })
    | intro _
    | with_reducible apply ite_shape
    | with_reducible apply State.refillGroup_shape
    | with_reducible apply State.ring_shape
    | with_reducible apply State.countBelay_shape
    | with_reducible apply State.updVt_shape
    | with_reducible apply State.unretain_shape
    | with_reducible apply State.rebuilt_shape
    | with_reducible apply State.memWrite_shape
    | with_reducible apply State.placeBack_shape
    | split
    | dsimp only
    | exact { hS with })

theorem State.completeWrite_shape (s : State) (f : FrameId) (wide : Bool) (data : Word) (hS : Shape s) : Shape (State.completeWrite s f wide data) := by
  unfold State.completeWrite
  try dsimp only
  repeat' (first
    | with_reducible assumption
    | (intro x hx; with_reducible exact hx)
    | (intro x hx; exact { hx with })
    | intro _
    | with_reducible apply ite_shape
    | with_reducible apply State.completeAt_shape
    | split
    | dsimp only
    | exact { hS with })

theorem State.unwindWrite_shape (s : State) (f : FrameId) (data : Word) (hS : Shape s) : Shape (State.unwindWrite s f data) := by
  unfold State.unwindWrite
  try dsimp only
  repeat' (first
    | with_reducible assumption
    | (intro x hx; with_reducible exact hx)
    | (intro x hx; exact { hx with })
    | intro _
    | with_reducible apply ite_shape
    | with_reducible apply State.unwindAt_shape
    | split
    | dsimp only
    | exact { hS with })

theorem State.updSlot_shape (s : State) (m i : Nat) (f : Slot → Slot) (hS : Shape s) : Shape (State.updSlot s m i f) := by
  unfold State.updSlot
  try dsimp only
  repeat' (first
    | with_reducible assumption
    | (intro x hx; with_reducible exact hx)
    | (intro x hx; exact { hx with })
    | intro _
    | with_reducible apply State.updMbx_shape
    | split
    | dsimp only
    | exact { hS with })

theorem State.postSlot_shape (s : State) (m i : Nat) (hS : Shape s) : Shape (State.postSlot s m i) := by
  unfold State.postSlot
  try dsimp only
  repeat' (first
    | with_reducible assumption
    | (intro x hx; with_reducible exact hx)
    | (intro x hx; exact { hx with })
    | intro _
    | with_reducible apply ite_shape
    | with_reducible apply State.updSlot_shape
    | with_reducible apply State.updMbx_shape
    | split
    | dsimp only
    | exact { hS with })

theorem State.releaseSlot_shape (s : State) (m i : Nat) (hS : Shape s) : Shape (State.releaseSlot s m i) := by
  unfold State.releaseSlot
  try dsimp only
  repeat' (first
    | with_reducible assumption
    | (intro x hx; with_reducible exact hx)
    | (intro x hx; exact { hx with })
    | intro _
    | with_reducible apply ite_shape
    | with_reducible apply State.updSlot_shape
    | split
    | dsimp only
    | exact { hS with })

theorem State.finishSlot_shape (s : State) (m i : Nat) (resp : BitVec 512) (hS : Shape s) : Shape (State.finishSlot s m i resp) := by
  unfold State.finishSlot
  try dsimp only
  repeat' (first
    | with_reducible assumption
    | (intro x hx; with_reducible exact hx)
    | (intro x hx; exact { hx with })
    | intro _
    | with_reducible apply ite_shape
    | with_reducible apply State.updSlot_shape
    | with_reducible apply State.sgiOccur_shape
    | split
    | dsimp only
    | exact { hS with })

theorem State.takeSlot_shape (s : State) (m i : Nat) (hS : Shape s) : Shape (State.takeSlot s m i) := by
  unfold State.takeSlot
  try dsimp only
  repeat' (first
    | with_reducible assumption
    | (intro x hx; with_reducible exact hx)
    | (intro x hx; exact { hx with })
    | intro _
    | with_reducible apply State.updSlot_shape
    | with_reducible apply State.updMbx_shape
    | with_reducible apply State.modCamp_shape
    | split
    | dsimp only
    | exact { hS with })

theorem State.commit_shape (s : State) (m i : Nat) (hS : Shape s) : Shape (State.commit s m i) := by
  unfold State.commit
  try dsimp only
  repeat' (first
    | with_reducible assumption
    | (intro x hx; with_reducible exact hx)
    | (intro x hx; exact { hx with })
    | intro _
    | with_reducible apply ite_shape
    | with_reducible apply State.modCamp_shape
    | split
    | dsimp only
    | exact { hS with })

theorem State.answerSlot_shape (s : State) (m i : Nat) (a : Answer) (hS : Shape s) : Shape (State.answerSlot s m i a) := by
  unfold State.answerSlot
  try dsimp only
  repeat' (first
    | with_reducible assumption
    | (intro x hx; with_reducible exact hx)
    | (intro x hx; exact { hx with })
    | intro _
    | with_reducible apply State.finishSlot_shape
    | split
    | dsimp only
    | exact { hS with })

theorem State.endTest_shape (s : State) (t : UnitTest) (detail : BitVec 32) (hS : Shape s) : Shape (State.endTest s t detail) := by
  unfold State.endTest
  try dsimp only
  repeat' (first
    | with_reducible assumption
    | (intro x hx; with_reducible exact hx)
    | (intro x hx; exact { hx with })
    | intro _
    | with_reducible apply State.modCamp_shape
    | with_reducible apply State.commit_shape
    | with_reducible apply State.answerSlot_shape
    | split
    | dsimp only
    | exact { hS with })

theorem State.commandOf_shape (s : State) (m : Nat) (mine : BitVec 16 → Bool) (by_ : Issuers) (ready : BitVec 448 → Bool)
    (f : BitVec 448 → State → Answer × State) (hf : ∀ a s, Shape s → Shape (f a s).2) (h : Shape s) : Shape (s.commandOf m mine by_ ready f) := by
  have hx := fun i => State.commit_shape _ m i (State.takeSlot_shape s m i h)
  unfold State.commandOf
  dsimp only
  (repeat' split) <;> first
    | exact h
    | exact State.answerSlot_shape _ _ _ _ (hx _)
    | exact State.answerSlot_shape _ _ _ _ (hf _ _ (hx _))

theorem State.command_shape (s : State) (m : Nat) (codes : List (BitVec 16)) (by_ : Issuers) (ready : BitVec 448 → Bool)
    (f : BitVec 448 → State → Answer × State) (hf : ∀ a s, Shape s → Shape (f a s).2) (h : Shape s) : Shape (s.command m codes by_ ready f) :=
  State.commandOf_shape _ _ _ _ _ _ hf h

theorem State.replayPos_shape (s : State) (p : Nat) (replayed : Bool) (hS : Shape s) : Shape (State.replayPos s p replayed) := by
  unfold State.replayPos
  try dsimp only
  repeat' (first
    | with_reducible assumption
    | (intro x hx; with_reducible exact hx)
    | (intro x hx; exact { hx with })
    | intro _
    | with_reducible apply ite_shape
    | with_reducible apply State.updPos_shape
    | with_reducible apply State.degrade_shape
    | split
    | dsimp only
    | exact { hS with })

theorem State.reissueWalks_shape (s : State) (p : Nat) (hS : Shape s) : Shape (State.reissueWalks s p) := by
  unfold State.reissueWalks
  try dsimp only
  repeat' (first
    | with_reducible assumption
    | (intro x hx; with_reducible exact hx)
    | (intro x hx; exact { hx with })
    | intro _
    | with_reducible apply foldList_shape
    | with_reducible apply State.cancelWalks_shape
    | split
    | dsimp only
    | exact { hS with })

theorem State.takeover_shape (s : State) (p : Nat) (replayed : Bool) (h : Shape s) : Shape (s.takeover p replayed) := by
  unfold State.takeover
  split
  · exact State.degrade_shape _ _ _ _ _ (State.updPos_shape _ _ h)
  · exact State.evalAll_shape _ (State.releaseWaits_shape _ _ (State.reissueWalks_shape _ _ (State.replayPos_shape _ _ _ (State.updPos_shape _ _
      (State.modXl_shape _ (State.updRidge_shape _ _ h) (fun x hx => { hx with ridgeMap := (updList_length _ x.ridgeMap _).trans hx.ridgeMap }))))))

theorem State.abortRidgeTest_shape (s : State) (hS : Shape s) : Shape (State.abortRidgeTest s) := by
  unfold State.abortRidgeTest
  try dsimp only
  repeat' (first
    | with_reducible assumption
    | (intro x hx; with_reducible exact hx)
    | (intro x hx; exact { hx with })
    | intro _
    | with_reducible apply ite_shape
    | with_reducible apply State.updRidge_shape
    | with_reducible apply State.endTest_shape
    | split
    | dsimp only
    | exact { hS with })

theorem State.abortBelayTest_shape (s : State) (b : Nat) (hS : Shape s) : Shape (State.abortBelayTest s b) := by
  unfold State.abortBelayTest
  try dsimp only
  repeat' (first
    | with_reducible assumption
    | (intro x hx; with_reducible exact hx)
    | (intro x hx; exact { hx with })
    | intro _
    | with_reducible apply ite_shape
    | with_reducible apply State.updBel_shape
    | with_reducible apply State.endTest_shape
    | split
    | dsimp only
    | exact { hS with })

theorem State.isolateRidge_shape (s : State) (r : Nat) (replayed : Bool) (hS : Shape s) : Shape (State.isolateRidge s r replayed) := by
  unfold State.isolateRidge
  try dsimp only
  repeat' (first
    | with_reducible assumption
    | (intro x hx; with_reducible exact hx)
    | (intro x hx; exact { hx with })
    | intro _
    | with_reducible apply ite_shape
    | with_reducible apply foldBelow_shape
    | with_reducible apply State.abortRidgeTest_shape
    | with_reducible apply State.updRidge_shape
    | with_reducible apply State.updArb_shape
    | with_reducible apply State.takeover_shape
    | split
    | dsimp only
    | exact { hS with })

theorem State.reexecute_shape (s : State) (b : Nat) (replayed : Bool) (hS : Shape s) : Shape (State.reexecute s b replayed) := by
  unfold State.reexecute
  try dsimp only
  repeat' (first
    | with_reducible assumption
    | (intro x hx; with_reducible exact hx)
    | (intro x hx; exact { hx with })
    | intro _
    | with_reducible apply State.updBel_shape
    | split
    | dsimp only
    | exact { hS with })

theorem State.isolateBelay_shape (s : State) (b : Nat) (replayed : Bool) (hS : Shape s) : Shape (State.isolateBelay s b replayed) := by
  unfold State.isolateBelay
  try dsimp only
  repeat' (first
    | with_reducible assumption
    | (intro x hx; with_reducible exact hx)
    | (intro x hx; exact { hx with })
    | intro _
    | with_reducible apply ite_shape
    | with_reducible apply State.updArb_shape
    | with_reducible apply State.reexecute_shape
    | with_reducible apply State.updBel_shape
    | with_reducible apply State.evalAll_shape
    | with_reducible apply State.abortBelayTest_shape
    | with_reducible apply State.degrade_shape
    | split
    | dsimp only
    | exact { hS with })

theorem State.ridgeFault_shape (s : State) (r : Nat) (cause : BitVec 8) (detail : BitVec 32) (hS : Shape s) : Shape (State.ridgeFault s r cause detail) := by
  unfold State.ridgeFault
  try dsimp only
  repeat' (first
    | with_reducible assumption
    | (intro x hx; with_reducible exact hx)
    | (intro x hx; exact { hx with })
    | intro _
    | with_reducible apply ite_shape
    | with_reducible apply State.report_shape
    | with_reducible apply State.degrade_shape
    | with_reducible apply State.isolateRidge_shape
    | split
    | dsimp only
    | exact { hS with })

theorem State.belayFault_shape (s : State) (b : Nat) (cause : BitVec 8) (detail : BitVec 32) (hS : Shape s) : Shape (State.belayFault s b cause detail) := by
  unfold State.belayFault
  try dsimp only
  repeat' (first
    | with_reducible assumption
    | (intro x hx; with_reducible exact hx)
    | (intro x hx; exact { hx with })
    | intro _
    | with_reducible apply ite_shape
    | with_reducible apply State.report_shape
    | with_reducible apply State.degrade_shape
    | with_reducible apply State.isolateBelay_shape
    | split
    | dsimp only
    | exact { hS with })

theorem State.refillEgress_shape (s : State) (p l : Nat) (hS : Shape s) : Shape (State.refillEgress s p l) := by
  unfold State.refillEgress
  try dsimp only
  repeat' (first
    | with_reducible assumption
    | (intro x hx; with_reducible exact hx)
    | (intro x hx; exact { hx with })
    | intro _
    | with_reducible apply ite_shape
    | with_reducible apply State.updPos_shape
    | with_reducible apply State.releaseWaits_shape
    | split
    | dsimp only
    | exact { hS with })

theorem State.landItem_shape (s : State) (p l : Nat) (i : PItem) (hS : Shape s) : Shape (State.landItem s p l i) := by
  unfold State.landItem
  try dsimp only
  repeat' (first
    | with_reducible assumption
    | (intro x hx; with_reducible exact hx)
    | (intro x hx; exact { hx with })
    | intro _
    | with_reducible apply State.updPos_shape
    | with_reducible apply State.refillEgress_shape
    | with_reducible apply State.updBel_shape
    | split
    | dsimp only
    | exact { hS with })

theorem State.plainReport_shape (s : State) (p l : Nat) (sev : BitVec 2) (detail : BitVec 32) (hS : Shape s) : Shape (State.plainReport s p l sev detail) := by
  unfold State.plainReport
  try dsimp only
  repeat' (first
    | with_reducible assumption
    | (intro x hx; with_reducible exact hx)
    | (intro x hx; exact { hx with })
    | intro _
    | with_reducible apply State.report_shape
    | split
    | dsimp only
    | exact { hS with })

theorem State.plainCorrected_shape (s : State) (p l : Nat) (b : Bool) (hS : Shape s) : Shape (State.plainCorrected s p l b) := by
  unfold State.plainCorrected
  try dsimp only
  repeat' (first
    | with_reducible assumption
    | (intro x hx; with_reducible exact hx)
    | (intro x hx; exact { hx with })
    | intro _
    | with_reducible apply ite_shape
    | with_reducible apply State.plainReport_shape
    | with_reducible apply State.updPlain_shape
    | split
    | dsimp only
    | exact { hS with })

theorem State.plainLost_shape (s : State) (p l : Nat) (hS : Shape s) : Shape (State.plainLost s p l) := by
  unfold State.plainLost
  try dsimp only
  repeat' (first
    | with_reducible assumption
    | (intro x hx; with_reducible exact hx)
    | (intro x hx; exact { hx with })
    | intro _
    | with_reducible apply ite_shape
    | with_reducible apply State.plainReport_shape
    | with_reducible apply State.updPlain_shape
    | with_reducible apply State.degrade_shape
    | with_reducible apply State.isolateRidge_shape
    | split
    | dsimp only
    | exact { hS with })

theorem State.plainCompare_shape (s : State) (p l : Nat) (i : PItem) (a b eq : Bool) (hS : Shape s) : Shape (State.plainCompare s p l i a b eq) := by
  unfold State.plainCompare
  try dsimp only
  repeat' (first
    | with_reducible assumption
    | (intro x hx; with_reducible exact hx)
    | (intro x hx; exact { hx with })
    | intro _
    | with_reducible apply ite_shape
    | with_reducible apply State.landItem_shape
    | with_reducible apply State.plainLost_shape
    | with_reducible apply State.plainCorrected_shape
    | split
    | dsimp only
    | exact { hS with })

theorem State.sendWords_shape (s : State) (reason : BitVec 8) (hS : Shape s) : Shape (State.sendWords s reason) := by
  unfold State.sendWords
  try dsimp only
  repeat' (first
    | with_reducible assumption
    | (intro x hx; with_reducible exact hx)
    | (intro x hx; exact { hx with })
    | intro _
    | with_reducible apply ite_shape
    | with_reducible apply State.modPwr_shape
    | split
    | dsimp only
    | exact { hS with })

theorem State.dropSaveLines_shape (s : State) (hS : Shape s) : Shape (State.dropSaveLines s) := by
  unfold State.dropSaveLines
  try dsimp only
  repeat' (first
    | with_reducible assumption
    | (intro x hx; with_reducible exact hx)
    | (intro x hx; exact { hx with })
    | intro _
    | with_reducible apply State.modMem_shape
    | split
    | dsimp only
    | exact { hS with })

theorem State.writeHeader_shape (s : State) (o : MemOwner) (h : NvHeader) (hS : Shape s) : Shape (State.writeHeader s o h) := by
  unfold State.writeHeader
  try dsimp only
  repeat' (first
    | with_reducible assumption
    | (intro x hx; with_reducible exact hx)
    | (intro x hx; exact { hx with })
    | intro _
    | with_reducible apply State.memIssue_shape
    | split
    | dsimp only
    | exact { hS with })

theorem State.headSave_shape (s : State) (hS : Shape s) : Shape (State.headSave s) := by
  unfold State.headSave
  try dsimp only
  repeat' (first
    | with_reducible assumption
    | (intro x hx; with_reducible exact hx)
    | (intro x hx; exact { hx with })
    | intro _
    | with_reducible apply ite_shape
    | with_reducible apply State.modPwr_shape
    | with_reducible apply State.writeHeader_shape
    | split
    | dsimp only
    | exact { hS with })

theorem State.abandonWake_shape (s : State) (hS : Shape s) : Shape (State.abandonWake s) := by
  unfold State.abandonWake
  try dsimp only
  repeat' (first
    | with_reducible assumption
    | (intro x hx; with_reducible exact hx)
    | (intro x hx; exact { hx with })
    | intro _
    | with_reducible apply State.dropSaveLines_shape
    | with_reducible apply State.modPwr_shape
    | with_reducible apply State.sendWords_shape
    | split
    | dsimp only
    | exact { hS with })

theorem State.breach_shape (s : State) (detail : Nat) (hS : Shape s) : Shape (State.breach s detail) := by
  unfold State.breach
  try dsimp only
  repeat' (first
    | with_reducible assumption
    | (intro x hx; with_reducible exact hx)
    | (intro x hx; exact { hx with })
    | intro _
    | with_reducible apply ite_shape
    | with_reducible apply State.modRat_shape
    | with_reducible apply State.report_shape
    | split
    | dsimp only
    | exact { hS with })

theorem State.countRead_shape (s : State) (ns : Nat) (hS : Shape s) : Shape (State.countRead s ns) := by
  unfold State.countRead
  try dsimp only
  repeat' (first
    | with_reducible assumption
    | (intro x hx; with_reducible exact hx)
    | (intro x hx; exact { hx with })
    | intro _
    | with_reducible apply ite_shape
    | with_reducible apply State.modRat_shape
    | with_reducible apply State.breach_shape
    | split
    | dsimp only
    | exact { hS with })

theorem State.deliver_shape (s : State) (o : MemOwner) (r : Option (BitVec 2)) (hS : Shape s) : Shape (State.deliver s o r) := by
  unfold State.deliver
  try dsimp only
  repeat' (first
    | with_reducible assumption
    | (intro x hx; with_reducible exact hx)
    | (intro x hx; exact { hx with })
    | intro _
    | with_reducible apply State.modMem_shape
    | split
    | dsimp only
    | exact { hS with })

theorem State.dropSpilled_shape (s : State) (t : Nat) (serial : BitVec 32) (input : Nat) (hS : Shape s) : Shape (State.dropSpilled s t serial input) := by
  unfold State.dropSpilled
  try dsimp only
  repeat' (first
    | with_reducible assumption
    | (intro x hx; with_reducible exact hx)
    | (intro x hx; exact { hx with })
    | intro _
    | with_reducible apply State.removeInst_shape
    | with_reducible apply State.countBelay_shape
    | with_reducible apply State.degrade_shape
    | split
    | dsimp only
    | exact { hS with })

theorem State.holdLine_shape (s t : State) (r : MemReq) (hS : Shape s) (h : Shape t) : Shape ((s.holdLine r).getD t) := by
  unfold State.holdLine
  split
  · simp only [Option.getD_some]
    exact State.modMem_shape _ hS
  · exact h

theorem State.writeFailed_shape (s : State) (r : MemReq) (h : Shape s) : Shape (s.writeFailed r) := by
  delta State.writeFailed
  extract_lets a page c
  have ha : Shape a := State.report_shape _ _ _ _ _ _ _ h
  have hc : Shape c := ite_shape ha (State.modBoot_shape _ ha)
  clear_value c
  cases r.owner <;> dsimp only
  case spillWrite => exact State.holdLine_shape _ _ _ hc (State.dropSpilled_shape _ _ _ _ hc)
  case bivWrite => exact ite_shape (State.ring_shape _ _ _ _ (State.updVt_shape _ _ hc)) hc
  case actWrite => exact ite_shape (State.ring_shape _ _ _ _ (State.updVt_shape _ _ hc)) hc
  case table =>
    refine State.modXl_shape _ (State.holdLine_shape _ _ _ hc hc) (fun x hx => ?_)
    split
    · exact hx
    · exact { hx with }
  case logWrite => exact State.holdLine_shape _ _ _ hc (State.degrade_shape _ _ _ _ _ (State.updLog_shape _ _ hc))
  case save => exact State.abandonWake_shape _ hc
  all_goals exact hc

theorem State.countWalkRead_shape (s : State) (o : MemOwner) (hS : Shape s) : Shape (State.countWalkRead s o) := by
  unfold State.countWalkRead
  try dsimp only
  repeat' (first
    | with_reducible assumption
    | (intro x hx; with_reducible exact hx)
    | (intro x hx; exact { hx with })
    | intro _
    | with_reducible apply State.updRidge_shape
    | split
    | dsimp only
    | exact { hS with })

theorem State.memFailed_shape (s : State) (r : MemReq) (kind : BitVec 2) (hS : Shape s) : Shape (State.memFailed s r kind) := by
  unfold State.memFailed
  try dsimp only
  repeat' (first
    | with_reducible assumption
    | (intro x hx; with_reducible exact hx)
    | (intro x hx; exact { hx with })
    | intro _
    | with_reducible apply ite_shape
    | with_reducible apply State.modRat_shape
    | with_reducible apply State.countWalkRead_shape
    | with_reducible apply State.memIssue_shape
    | with_reducible apply State.writeFailed_shape
    | with_reducible apply State.deliver_shape
    | split
    | dsimp only
    | exact { hS with })

theorem State.lateResponse_shape (s : State) (id : BitVec 8) (hS : Shape s) : Shape (State.lateResponse s id) := by
  unfold State.lateResponse
  try dsimp only
  repeat' (first
    | with_reducible assumption
    | (intro x hx; with_reducible exact hx)
    | (intro x hx; exact { hx with })
    | intro _
    | with_reducible apply State.modRat_shape
    | with_reducible apply State.modMem_shape
    | split
    | dsimp only
    | exact { hS with })

theorem State.memAnswer_shape (s : State) (id : BitVec 8) (ack : Bool) (err : BitVec 2) (parityGood : Bool) (ns : Nat) (hS : Shape s) : Shape (State.memAnswer s id ack err parityGood ns) := by
  unfold State.memAnswer
  try dsimp only
  repeat' (first
    | with_reducible assumption
    | (intro x hx; with_reducible exact hx)
    | (intro x hx; exact { hx with })
    | intro _
    | with_reducible apply ite_shape
    | with_reducible apply State.ack_shape
    | with_reducible apply State.lateResponse_shape
    | with_reducible apply State.modMem_shape
    | with_reducible apply State.countRead_shape
    | with_reducible apply State.headSave_shape
    | with_reducible apply State.deliver_shape
    | with_reducible apply State.memFailed_shape
    | split
    | dsimp only
    | exact { hS with })

theorem State.memTimedOut_shape (s : State) (r : MemReq) (hS : Shape s) : Shape (State.memTimedOut s r) := by
  unfold State.memTimedOut
  try dsimp only
  repeat' (first
    | with_reducible assumption
    | (intro x hx; with_reducible exact hx)
    | (intro x hx; exact { hx with })
    | intro _
    | with_reducible apply ite_shape
    | with_reducible apply State.modMem_shape
    | with_reducible apply State.modRat_shape
    | with_reducible apply State.breach_shape
    | with_reducible apply State.memFailed_shape
    | split
    | dsimp only
    | exact { hS with })

theorem State.applyQuotas_shape (s : State) (hS : Shape s) : Shape (State.applyQuotas s) := by
  unfold State.applyQuotas
  try dsimp only
  repeat' (first
    | with_reducible assumption
    | (intro x hx; with_reducible exact hx)
    | (intro x hx; exact { hx with })
    | intro _
    | with_reducible apply foldList_shape
    | with_reducible apply State.settleQuota_shape
    | split
    | dsimp only
    | exact { hS with })

theorem State.starveAll_shape (s : State) (hS : Shape s) : Shape (State.starveAll s) := by
  unfold State.starveAll
  try dsimp only
  repeat' (first
    | with_reducible assumption
    | (intro x hx; with_reducible exact hx)
    | (intro x hx; exact { hx with })
    | intro _
    | with_reducible apply ite_shape
    | with_reducible apply foldList_shape
    | with_reducible apply State.starveFrame_shape
    | with_reducible apply State.ring_shape
    | split
    | dsimp only
    | exact { hS with })

theorem State.answerWaiters_shape (s : State) (hS : Shape s) : Shape (State.answerWaiters s) := by
  unfold State.answerWaiters
  try dsimp only
  repeat' (first
    | with_reducible assumption
    | (intro x hx; with_reducible exact hx)
    | (intro x hx; exact { hx with })
    | intro _
    | with_reducible apply foldList_shape
    | with_reducible apply State.finishSlot_shape
    | with_reducible apply State.modRat_shape
    | split
    | dsimp only
    | exact { hS with })

theorem State.roundEnd_shape (s : State) (hS : Shape s) : Shape (State.roundEnd s) := by
  unfold State.roundEnd
  try dsimp only
  repeat' (first
    | with_reducible assumption
    | (intro x hx; with_reducible exact hx)
    | (intro x hx; exact { hx with })
    | intro _
    | with_reducible apply ite_shape
    | with_reducible apply foldBelow_shape
    | with_reducible apply State.settleQuota_shape
    | with_reducible apply State.modRat_shape
    | with_reducible apply State.modPwr_shape
    | with_reducible apply State.applyQuotas_shape
    | with_reducible apply State.releaseHeld_shape
    | with_reducible apply State.starveAll_shape
    | with_reducible apply State.answerWaiters_shape
    | split
    | dsimp only
    | exact { hS with })

theorem State.mirrorRound_shape (s : State) (hS : Shape s) : Shape (State.mirrorRound s) := by
  unfold State.mirrorRound
  try dsimp only
  repeat' (first
    | with_reducible assumption
    | (intro x hx; with_reducible exact hx)
    | (intro x hx; exact { hx with })
    | intro _
    | with_reducible apply State.modPwr_shape
    | split
    | dsimp only
    | exact { hS with })

theorem State.setQuota_shape (s : State) (act scope unit cycles bytes : Nat) (hS : Shape s) : Shape (State.setQuota s act scope unit cycles bytes) := by
  unfold State.setQuota
  try dsimp only
  repeat' (first
    | with_reducible assumption
    | (intro x hx; with_reducible exact hx)
    | (intro x hx; exact { hx with })
    | intro _
    | with_reducible apply State.settleQuota_shape
    | with_reducible apply State.updQuota_shape
    | split
    | dsimp only
    | exact { hS with })

theorem State.rationSet_shape (s : State) (a : BitVec 448) (hS : Shape s) : Shape (State.rationSet s a).2 := by
  unfold State.rationSet
  try dsimp only
  repeat' (first
    | with_reducible assumption
    | (intro x hx; with_reducible exact hx)
    | (intro x hx; exact { hx with })
    | intro _
    | with_reducible apply ite_shape
    | with_reducible apply foldList_shape
    | with_reducible apply State.setQuota_shape
    | with_reducible apply State.modRat_shape
    | split
    | dsimp only
    | exact { hS with })

theorem State.contractSet_shape (s : State) (a : BitVec 448) (hS : Shape s) : Shape (State.contractSet s a).2 := by
  unfold State.contractSet
  try dsimp only
  repeat' (first
    | with_reducible assumption
    | (intro x hx; with_reducible exact hx)
    | (intro x hx; exact { hx with })
    | with_reducible exact Rations.warm_shape
    | intro _
    | with_reducible apply ite_shape
    | with_reducible apply State.modRat_shape
    | split
    | dsimp only
    | exact { hS with })

theorem State.roundCommand_shape (s : State) (m : Nat) (code : BitVec 16) (f : BitVec 448 → State → Answer × State)
    (hf : ∀ a s, Shape s → Shape (f a s).2) (h : Shape s) : Shape (s.roundCommand m code f) := by
  have hx := fun i a => hf a _ (State.commit_shape _ m i (State.takeSlot_shape s m i h))
  unfold State.roundCommand
  dsimp only
  (repeat' split) <;> first
    | exact h
    | exact State.command_shape _ _ _ _ _ _ hf h
    | exact State.modRat_shape _ (hx _ _) (fun _ hr => { hr with })
    | exact State.answerSlot_shape _ _ _ _ (hx _ _)

theorem State.countVerify_shape (s : State) (good : Bool) (hS : Shape s) : Shape (State.countVerify s good) := by
  unfold State.countVerify
  try dsimp only
  repeat' (first
    | with_reducible assumption
    | (intro x hx; with_reducible exact hx)
    | (intro x hx; exact { hx with })
    | intro _
    | with_reducible apply ite_shape
    | with_reducible apply State.modCamp_shape
    | split
    | dsimp only
    | exact { hS with })

theorem State.noStandby_shape (s : State) (b : Bool) (hS : Shape s) : Shape (State.noStandby s b) := by
  unfold State.noStandby
  try dsimp only
  repeat' (first
    | with_reducible assumption
    | (intro x hx; with_reducible exact hx)
    | (intro x hx; exact { hx with })
    | intro _
    | with_reducible apply State.degrade_shape
    | split
    | dsimp only
    | exact { hS with })

theorem State.dropJobs_shape (s : State) (hS : Shape s) : Shape (State.dropJobs s) := by
  unfold State.dropJobs
  try dsimp only
  repeat' (first
    | with_reducible assumption
    | (intro x hx; with_reducible exact hx)
    | (intro x hx; exact { hx with })
    | intro _
    | with_reducible apply foldList_shape
    | with_reducible apply State.finishSlot_shape
    | with_reducible apply State.modXl_shape
    | split
    | dsimp only
    | exact { hS with })

theorem State.leaveTest_shape (s : State) (t : UnitTest) (hS : Shape s) : Shape (State.leaveTest s t) := by
  unfold State.leaveTest
  try dsimp only
  repeat' (first
    | with_reducible assumption
    | (intro x hx; with_reducible exact hx)
    | (intro x hx; exact { hx with })
    | intro _
    | with_reducible apply ite_shape
    | with_reducible apply State.modCamp_shape
    | with_reducible apply State.updRidge_shape
    | with_reducible apply State.updBel_shape
    | with_reducible apply State.unfenceBank_shape
    | split
    | dsimp only
    | exact { hS with })

theorem State.dropTest_shape (s : State) (hS : Shape s) : Shape (State.dropTest s) := by
  unfold State.dropTest
  try dsimp only
  repeat' (first
    | with_reducible assumption
    | (intro x hx; with_reducible exact hx)
    | (intro x hx; exact { hx with })
    | intro _
    | with_reducible apply State.leaveTest_shape
    | with_reducible apply State.finishSlot_shape
    | split
    | dsimp only
    | exact { hS with })

theorem State.failover_shape (s : State) (hS : Shape s) : Shape (State.failover s) := by
  unfold State.failover
  try dsimp only
  repeat' (first
    | with_reducible assumption
    | (intro x hx; with_reducible exact hx)
    | (intro x hx; exact { hx with })
    | intro _
    | with_reducible apply foldBelow_shape
    | with_reducible apply State.dropJobs_shape
    | with_reducible apply State.dropTest_shape
    | with_reducible apply State.modRat_shape
    | with_reducible apply State.updQuad_shape
    | with_reducible apply State.modPwr_shape
    | with_reducible apply State.updLink_shape
    | split
    | dsimp only
    | exact { hS with })

theorem State.closeMailboxes_shape (s : State) (hS : Shape s) : Shape (State.closeMailboxes s) := by
  unfold State.closeMailboxes
  try dsimp only
  repeat' (first
    | with_reducible assumption
    | (intro x hx; with_reducible exact hx)
    | (intro x hx; exact { hx with })
    | intro _
    | with_reducible apply foldBelow_shape
    | with_reducible apply State.updMbx_shape
    | split
    | dsimp only
    | exact { hS with })

theorem State.openMailboxes_shape (s : State) (hS : Shape s) : Shape (State.openMailboxes s) := by
  unfold State.openMailboxes
  try dsimp only
  repeat' (first
    | with_reducible assumption
    | (intro x hx; with_reducible exact hx)
    | (intro x hx; exact { hx with })
    | intro _
    | with_reducible apply foldBelow_shape
    | with_reducible apply State.updMbx_shape
    | split
    | dsimp only
    | exact { hS with })

theorem State.runStaged_shape (s : State) (hS : Shape s) : Shape (State.runStaged s) := by
  unfold State.runStaged
  try dsimp only
  repeat' (first
    | with_reducible assumption
    | (intro x hx; with_reducible exact hx)
    | (intro x hx; exact { hx with })
    | intro _
    | with_reducible apply State.modBoot_shape
    | with_reducible apply State.modCamp_shape
    | split
    | dsimp only
    | exact { hS with })

theorem State.activeFails_shape (s : State) (b : Bool) (hS : Shape s) : Shape (State.activeFails s b) := by
  unfold State.activeFails
  try dsimp only
  repeat' (first
    | with_reducible assumption
    | (intro x hx; with_reducible exact hx)
    | (intro x hx; exact { hx with })
    | intro _
    | with_reducible apply ite_shape
    | with_reducible apply State.modCamp_shape
    | with_reducible apply State.runStaged_shape
    | with_reducible apply State.failover_shape
    | with_reducible apply State.noStandby_shape
    | with_reducible apply State.closeMailboxes_shape
    | with_reducible apply State.modRope_shape
    | split
    | dsimp only
    | exact { hS with })

theorem State.standbyFails_shape (s : State) (b : Bool) (hS : Shape s) : Shape (State.standbyFails s b) := by
  unfold State.standbyFails
  try dsimp only
  repeat' (first
    | with_reducible assumption
    | (intro x hx; with_reducible exact hx)
    | (intro x hx; exact { hx with })
    | intro _
    | with_reducible apply State.modCamp_shape
    | with_reducible apply State.noStandby_shape
    | split
    | dsimp only
    | exact { hS with })

theorem State.campFault_shape (s : State) (b : Bool) (detail : Nat) (hS : Shape s) : Shape (State.campFault s b detail) := by
  unfold State.campFault
  try dsimp only
  repeat' (first
    | with_reducible assumption
    | (intro x hx; with_reducible exact hx)
    | (intro x hx; exact { hx with })
    | intro _
    | with_reducible apply ite_shape
    | with_reducible apply State.report_shape
    | with_reducible apply State.degrade_shape
    | with_reducible apply State.activeFails_shape
    | with_reducible apply State.standbyFails_shape
    | with_reducible apply State.pumpAll_shape
    | split
    | dsimp only
    | exact { hS with })

theorem State.loadDone_shape (s : State) (loaded : Bool) (hS : Shape s) : Shape (State.loadDone s loaded) := by
  unfold State.loadDone
  try dsimp only
  repeat' (first
    | with_reducible assumption
    | (intro x hx; with_reducible exact hx)
    | (intro x hx; exact { hx with })
    | intro _
    | with_reducible apply ite_shape
    | with_reducible apply State.modCamp_shape
    | with_reducible apply State.noStandby_shape
    | with_reducible apply State.modRope_shape
    | with_reducible apply State.openMailboxes_shape
    | split
    | dsimp only
    | exact { hS with })

theorem State.helloCmd_shape (s : State) (m : Nat) (hS : Shape s) : Shape (State.helloCmd s m) := by
  unfold State.helloCmd
  try dsimp only
  repeat' (first
    | with_reducible assumption
    | (intro x hx; with_reducible exact hx)
    | (intro x hx; exact { hx with })
    | intro _
    | with_reducible apply ite_shape
    | with_reducible apply State.takeSlot_shape
    | with_reducible apply State.commit_shape
    | with_reducible apply State.answerSlot_shape
    | split
    | dsimp only
    | exact { hS with })

theorem State.snapshotCmd_shape (s : State) (m : Nat) (a : BitVec 448) (hS : Shape s) : Shape (State.snapshotCmd s m a).2 := by
  unfold State.snapshotCmd
  try dsimp only
  repeat' (first
    | with_reducible assumption
    | (intro x hx; with_reducible exact hx)
    | (intro x hx; exact { hx with })
    | intro _
    | with_reducible apply ite_shape
    | split
    | dsimp only
    | exact { hS with })

theorem State.clearCairns_shape (s : State) (p : Nat → CairnRec → Bool) (h : Shape s) : Shape (s.clearCairns p) :=
  State.modCairn_shape _ h (fun _ hx => { hx with recs := Tbl.wf_filter _ _ _ hx.recs })

theorem State.cairnClear_shape (s : State) (m : Nat) (a : BitVec 448) (hS : Shape s) : Shape (State.cairnClear s m a).2 := by
  unfold State.cairnClear
  try dsimp only
  repeat' (first
    | with_reducible assumption
    | (intro x hx; with_reducible exact hx)
    | (intro x hx; exact { hx with })
    | intro _
    | with_reducible apply ite_shape
    | with_reducible apply State.clearCairns_shape
    | split
    | dsimp only
    | exact { hS with })

theorem State.setDesc_shape (s : State) (i : Nat) (d : Desc) (h : Shape s) : Shape (s.setDesc i d) :=
  State.modXl_shape _ (State.modAcc_shape _ h (fun _ hx => { hx with slot := Tbl.wf_set _ _ _ _ hx.slot })) (fun _ hx => { hx with })

theorem State.zeroMailbox_shape (s : State) (m : Nat) (hS : Shape s) : Shape (State.zeroMailbox s m) := by
  unfold State.zeroMailbox
  try dsimp only
  repeat' (first
    | with_reducible assumption
    | (intro x hx; with_reducible exact hx)
    | (intro x hx; exact { hx with })
    | intro _
    | with_reducible apply State.updMbx_shape
    | split
    | dsimp only
    | exact { hS with })

theorem State.accessSlotSet_shape (s : State) (m : Nat) (a : BitVec 448) (hS : Shape s) : Shape (State.accessSlotSet s m a).2 := by
  unfold State.accessSlotSet
  try dsimp only
  repeat' (first
    | with_reducible assumption
    | (intro x hx; with_reducible exact hx)
    | (intro x hx; exact { hx with })
    | intro _
    | with_reducible apply ite_shape
    | with_reducible apply State.setDesc_shape
    | with_reducible apply State.zeroMailbox_shape
    | split
    | dsimp only
    | exact { hS with })

theorem foldList_set_wf {α β : Type} [DecidableEq α] (d : α) (l : List β) (key : β → Nat) (v : β → α) (t : Tbl α) (h : Tbl.wf d t = true) :
    Tbl.wf d (foldList (fun i t => Tbl.set d t (key i) (v i)) l t) = true := by
  induction l generalizing t with
  | nil => exact h
  | cons a as ih => exact ih _ (Tbl.wf_set _ _ _ _ h)

theorem State.ropeMap_shape (s : State) (a : BitVec 448) (h : Shape s) : Shape (s.ropeMap a).2 := by
  unfold State.ropeMap
  dsimp only
  split
  · exact h
  · split
    · exact h
    · dsimp only
      refine State.modRope_shape _ h (fun x hx => ?_)
      exact foldList_set_wf RopeOut.reset _ (fun i => i) (fun _ => _) x.map hx

end Sys2Proof.Machine
end

