-- ==== Sys2Proof/Laws/ShapeLink.lean ====
section
/-! SUPPORT. The shape of the state is kept by every function on it: from State.fwStage_shape in the order of the model's files. -/

namespace Sys2Proof.Machine

theorem State.fwStage_shape (s : State) (i : Image) (a : BitVec 448) (hS : Shape s) : Shape (State.fwStage s i a).2 := by
  unfold State.fwStage
  try dsimp only
  repeat' (first
    | with_reducible assumption
    | (intro x hx; with_reducible exact hx)
    | (intro x hx; exact { hx with })
    | intro _
    | with_reducible apply ite_shape
    | with_reducible apply State.countVerify_shape
    | with_reducible apply State.report_shape
    | with_reducible apply State.modCamp_shape
    | split
    | dsimp only
    | exact { hS with })

theorem State.handRole_shape (s : State) (loads : Bool) (hS : Shape s) : Shape (State.handRole s loads) := by
  unfold State.handRole
  try dsimp only
  repeat' (first
    | with_reducible assumption
    | (intro x hx; with_reducible exact hx)
    | (intro x hx; exact { hx with })
    | intro _
    | with_reducible apply ite_shape
    | with_reducible apply State.runStaged_shape
    | with_reducible apply State.modCamp_shape
    | with_reducible apply State.noStandby_shape
    | split
    | dsimp only
    | exact { hS with })

theorem State.fwActivate_shape (s : State) (loads : Bool) (a : BitVec 448) (hS : Shape s) : Shape (State.fwActivate s loads a).2 := by
  unfold State.fwActivate
  try dsimp only
  repeat' (first
    | with_reducible assumption
    | (intro x hx; with_reducible exact hx)
    | (intro x hx; exact { hx with })
    | intro _
    | with_reducible apply ite_shape
    | with_reducible apply State.handRole_shape
    | split
    | dsimp only
    | exact { hS with })

theorem State.belayLoad_shape (s : State) (i : Image) (a : BitVec 448) (hS : Shape s) : Shape (State.belayLoad s i a).2 := by
  unfold State.belayLoad
  try dsimp only
  repeat' (first
    | with_reducible assumption
    | (intro x hx; with_reducible exact hx)
    | (intro x hx; exact { hx with })
    | intro _
    | with_reducible apply ite_shape
    | with_reducible apply foldList_shape
    | with_reducible apply State.countVerify_shape
    | with_reducible apply State.updBel_shape
    | split
    | dsimp only
    | exact { hS with })

theorem State.forceSwitch_shape (s : State) (b : Nat) (hS : Shape s) : Shape (State.forceSwitch s b).2 := by
  unfold State.forceSwitch
  try dsimp only
  repeat' (first
    | with_reducible assumption
    | (intro x hx; with_reducible exact hx)
    | (intro x hx; exact { hx with })
    | intro _
    | with_reducible apply ite_shape
    | with_reducible apply State.updBel_shape
    | split
    | dsimp only
    | exact { hS with })

theorem State.belaySwitch_shape (s : State) (a : BitVec 448) (hS : Shape s) : Shape (State.belaySwitch s a).2 := by
  unfold State.belaySwitch
  try dsimp only
  repeat' (first
    | with_reducible assumption
    | (intro x hx; with_reducible exact hx)
    | (intro x hx; exact { hx with })
    | intro _
    | with_reducible apply ite_shape
    | with_reducible apply foldList_shape
    | with_reducible apply State.forceSwitch_shape
    | with_reducible apply State.updBel_shape
    | split
    | dsimp only
    | exact { hS with })

theorem State.takePages_shape (s : State) (pages : Nat) (hS : Shape s) : Shape (State.takePages s pages) := by
  unfold State.takePages
  try dsimp only
  repeat' (first
    | with_reducible assumption
    | (intro x hx; with_reducible exact hx)
    | (intro x hx; exact { hx with })
    | intro _
    | with_reducible apply State.modBoot_shape
    | split
    | dsimp only
    | exact { hS with })

theorem State.releasePages_shape (s : State) (act belay : Nat) (page : BitVec 40) (pages lines : Nat) (vt : Option (BitVec 16)) (hS : Shape s) : Shape (State.releasePages s act belay page pages lines vt) := by
  unfold State.releasePages
  try dsimp only
  repeat' (first
    | with_reducible assumption
    | (intro x hx; with_reducible exact hx)
    | (intro x hx; exact { hx with })
    | intro _
    | with_reducible apply ite_shape
    | with_reducible apply State.modBoot_shape
    | split
    | dsimp only
    | exact { hS with })

theorem State.newTable_shape (s : State) (q : BitVec 16) (h : Shape s) : Shape (s.newTable q) :=
  State.modXl_shape _ h (fun _ hx => { hx with evt := Tbl.wf_filter _ _ _ hx.evt })

theorem State.commitDev_shape (s : State) (q : BitVec 16) (e : DevEntry) (hS : Shape s) : Shape (State.commitDev s q e) := by
  unfold State.commitDev
  try dsimp only
  repeat' (first
    | with_reducible assumption
    | (intro x hx; with_reducible exact hx)
    | (intro x hx; exact { hx with })
    | intro _
    | with_reducible apply State.storeDev_shape
    | with_reducible apply State.cancelWalks_shape
    | with_reducible apply State.modXl_shape
    | split
    | dsimp only
    | exact { hS with })

theorem State.devMapApply_shape (s : State) (q : BitVec 16) (valid : Bool) (bits : BitVec 5) (ingress : BitVec 9) (owner : BitVec 6) (hS : Shape s) : Shape (State.devMapApply s q valid bits ingress owner).2 := by
  unfold State.devMapApply
  try dsimp only
  repeat' (first
    | with_reducible assumption
    | (intro x hx; with_reducible exact hx)
    | (intro x hx; exact { hx with })
    | intro _
    | with_reducible apply ite_shape
    | with_reducible apply State.commitDev_shape
    | with_reducible apply State.newTable_shape
    | with_reducible apply State.drawAlloc_shape
    | with_reducible apply State.takePages_shape
    | with_reducible apply State.releasePages_shape
    | split
    | dsimp only
    | exact { hS with })

theorem State.devMap_shape (s : State) (a : BitVec 448) (hS : Shape s) : Shape (State.devMap s a).2 := by
  unfold State.devMap
  try dsimp only
  repeat' (first
    | with_reducible assumption
    | (intro x hx; with_reducible exact hx)
    | (intro x hx; exact { hx with })
    | intro _
    | with_reducible apply State.devMapApply_shape
    | split
    | dsimp only
    | exact { hS with })

theorem State.commitEvt_shape (s : State) (q : BitVec 16) (e : BitVec 20) (v : EvtEntry) (hS : Shape s) : Shape (State.commitEvt s q e v) := by
  unfold State.commitEvt
  try dsimp only
  repeat' (first
    | with_reducible assumption
    | (intro x hx; with_reducible exact hx)
    | (intro x hx; exact { hx with })
    | intro _
    | with_reducible apply ite_shape
    | with_reducible apply State.storeEvt_shape
    | with_reducible apply State.setPinned_shape
    | with_reducible apply State.cancelWalks_shape
    | with_reducible apply State.cacheDropOne_shape
    | with_reducible apply State.modXl_shape
    | with_reducible apply State.routeChanged_shape
    | split
    | dsimp only
    | exact { hS with })

theorem State.evtMap_shape (s : State) (m : Nat) (a : BitVec 448) (hS : Shape s) : Shape (State.evtMap s m a).2 := by
  unfold State.evtMap
  try dsimp only
  repeat' (first
    | with_reducible assumption
    | (intro x hx; with_reducible exact hx)
    | (intro x hx; exact { hx with })
    | intro _
    | with_reducible apply ite_shape
    | with_reducible apply State.commitEvt_shape
    | with_reducible apply State.evalAll_shape
    | split
    | dsimp only
    | exact { hS with })

theorem State.evtUnmap_shape (s : State) (m : Nat) (a : BitVec 448) (hS : Shape s) : Shape (State.evtUnmap s m a).2 := by
  unfold State.evtUnmap
  try dsimp only
  repeat' (first
    | with_reducible assumption
    | (intro x hx; with_reducible exact hx)
    | (intro x hx; exact { hx with })
    | intro _
    | with_reducible apply ite_shape
    | with_reducible apply State.commitEvt_shape
    | split
    | dsimp only
    | exact { hS with })

theorem movePinned_wf (t : Tbl EvtEntry) (old new len : Nat) (h : Tbl.wf EvtEntry.reset t = true) :
    Tbl.wf EvtEntry.reset (movePinned t old new len) = true := by
  have hf : ∀ (l : Tbl EvtEntry) (k : Tbl EvtEntry), Tbl.wf EvtEntry.reset k = true →
      Tbl.wf EvtEntry.reset (l.foldl (fun acc e => Tbl.set EvtEntry.reset acc (e.1 - old + new) e.2) k) = true := by
    intro l
    induction l with
    | nil => exact fun k hk => hk
    | cons a as ih => exact fun k hk => ih _ (Tbl.wf_set _ _ _ _ hk)
  exact hf _ _ (Tbl.wf_filter _ _ _ h)

theorem State.moveBlockTo_shape (s : State) (b : PinBlock) (base : Nat) (h : Shape s) : Shape (s.moveBlockTo b base) := by
  unfold State.moveBlockTo
  refine ite_shape (State.devFill_shape _ _ _ _ (State.updLink_shape _ _ ?_)) (State.storeDev_shape _ _ _ ?_) <;>
    exact State.modXl_shape _ h (fun x hx => { hx with pinned := movePinned_wf _ _ _ _ hx.pinned })

theorem State.freePin_shape (s : State) (q : BitVec 16) (h : Shape s) : Shape (s.freePin q) := by
  have h1 := State.settleQuota_shape s 6 2 22 h
  unfold State.freePin
  dsimp only
  split
  · exact h1
  · exact State.modXl_shape _ h1 (fun _ hx => { hx with pinned := Tbl.wf_filter _ _ _ hx.pinned })

theorem State.compact_shape (s : State) (n : Nat) (h : Shape s) : Shape (s.compact n) := by
  induction n generalizing s with
  | zero => exact h
  | succ n ih =>
    unfold State.compact
    split
    · exact ih _ (State.moveBlockTo_shape _ _ _ h)
    · exact h

theorem State.allocPin_shape (s : State) (q : BitVec 16) (n : Nat) (x : Nat × State) (hx : s.allocPin q n = some x) (h : Shape s) : Shape x.2 := by
  unfold State.allocPin at hx
  split at hx
  · cases hx
  · dsimp only at hx
    obtain ⟨base, -, rfl⟩ := Option.map_eq_some_iff.mp hx
    dsimp only
    exact State.modXl_shape _ (State.settleQuota_shape _ _ _ _ h) (fun _ hx => { hx with })

theorem State.pinNow_shape (s : State) (q : BitVec 16) (h : Shape s) : Shape (s.pinNow q).2 := by
  unfold State.pinNow
  extract_lets d n
  split
  · exact h
  · split
    · dsimp only
      exact State.modRat_shape _ h (fun _ hr => { hr with })
    · split
      · exact h
      · rename_i heq
        have h1 := State.allocPin_shape _ _ _ _ heq h
        dsimp only
        exact State.devFill_shape _ _ _ _ (State.cancelWalks_shape _ _ _ (State.storeDev_shape _ _ _
          (foldList_shape h1 (fun _ _ h => State.setPinned_shape _ _ _ h))))

theorem State.reqPin_shape (s : State) (a : BitVec 448) (hS : Shape s) : Shape (State.reqPin s a).2 := by
  unfold State.reqPin
  try dsimp only
  repeat' (first
    | with_reducible assumption
    | (intro x hx; with_reducible exact hx)
    | (intro x hx; exact { hx with })
    | intro _
    | with_reducible apply ite_shape
    | with_reducible apply State.pinNow_shape
    | split
    | dsimp only
    | exact { hS with })

theorem State.compactFirst_shape (s : State) (m : Nat) (code : BitVec 16) (link : Bool) (ready needs : BitVec 448 → Bool) (els : State)
    (h : Shape s) (he : Shape els) : Shape (s.compactFirst m code link ready needs els) := by
  unfold State.compactFirst
  split
  · exact he
  · exact ite_shape (State.modXl_shape _ (State.takeSlot_shape _ _ _ h) (fun _ hx => { hx with })) he

theorem State.reqUnpin_shape (s : State) (a : BitVec 448) (hS : Shape s) : Shape (State.reqUnpin s a).2 := by
  unfold State.reqUnpin
  try dsimp only
  repeat' (first
    | with_reducible assumption
    | (intro x hx; with_reducible exact hx)
    | (intro x hx; exact { hx with })
    | intro _
    | with_reducible apply ite_shape
    | with_reducible apply foldBelow_shape
    | with_reducible apply State.settleQuota_shape
    | with_reducible apply State.freePin_shape
    | with_reducible apply State.modRat_shape
    | with_reducible apply State.storeDev_shape
    | with_reducible apply State.modXl_shape
    | with_reducible apply State.cancelWalks_shape
    | split
    | dsimp only
    | exact { hS with })

theorem State.invalidate_shape (s : State) (m : Nat) (a : BitVec 448) (hS : Shape s) : Shape (State.invalidate s m a).2 := by
  unfold State.invalidate
  try dsimp only
  repeat' (first
    | with_reducible assumption
    | (intro x hx; with_reducible exact hx)
    | (intro x hx; exact { hx with })
    | intro _
    | with_reducible apply ite_shape
    | with_reducible apply State.modXl_shape
    | with_reducible apply State.cacheDropOne_shape
    | split
    | dsimp only
    | exact { hS with })

theorem State.handOver_shape (s : State) (hS : Shape s) : Shape (State.handOver s) := by
  unfold State.handOver
  try dsimp only
  repeat' (first
    | with_reducible assumption
    | (intro x hx; with_reducible exact hx)
    | (intro x hx; exact { hx with })
    | intro _
    | with_reducible apply foldList_shape
    | with_reducible apply foldBelow_shape
    | with_reducible apply State.updPos_shape
    | with_reducible apply State.toPlain_shape
    | with_reducible apply State.reissueWalks_shape
    | split
    | dsimp only
    | exact { hS with })

theorem State.crossLedge_shape (s : State) (p l n : Nat) (h : Shape s) : Shape (s.crossLedge p l n) := by
  induction n generalizing s with
  | zero => exact h
  | succ n ih =>
    unfold State.crossLedge
    split
    · exact h
    · exact ih _ (State.landItem_shape _ _ _ _ h)

theorem State.crossAll_shape (s : State) (h : Shape s) : Shape s.crossAll :=
  foldBelow_shape h (fun p _ h => foldBelow_shape h (fun l s h => State.crossLedge_shape s p l _ h))

theorem State.rekeyNow_shape (s : State) (hS : Shape s) : Shape (State.rekeyNow s) := by
  unfold State.rekeyNow
  try dsimp only
  repeat' (first
    | with_reducible assumption
    | (intro x hx; with_reducible exact hx)
    | (intro x hx; exact { hx with })
    | intro _
    | with_reducible apply State.crossAll_shape
    | with_reducible apply State.drawNoise_shape
    | with_reducible apply State.modXl_shape
    | with_reducible apply State.handOver_shape
    | with_reducible apply State.evalAll_shape
    | split
    | dsimp only
    | exact { hS with })

theorem State.rekey_shape (s : State) (hS : Shape s) : Shape (State.rekey s).2 := by
  unfold State.rekey
  try dsimp only
  repeat' (first
    | with_reducible assumption
    | (intro x hx; with_reducible exact hx)
    | (intro x hx; exact { hx with })
    | intro _
    | with_reducible apply ite_shape
    | with_reducible apply State.rekeyNow_shape
    | split
    | dsimp only
    | exact { hS with })

theorem State.setRemote_shape (s : State) (k src : Nat) (v : EvtEntry) (hS : Shape s) : Shape (State.setRemote s k src v) := by
  unfold State.setRemote
  try dsimp only
  repeat' (first
    | with_reducible assumption
    | (intro x hx; with_reducible exact hx)
    | (intro x hx; exact { hx with })
    | intro _
    | with_reducible apply ite_shape
    | with_reducible apply State.setPinned_shape
    | with_reducible apply State.updLink_shape
    | with_reducible apply State.reassert_shape
    | with_reducible apply State.routeChanged_shape
    | split
    | dsimp only
    | exact { hS with })

theorem State.srcRouteCmd_shape (s : State) (a : BitVec 448) (hS : Shape s) : Shape (State.srcRouteCmd s a).2 := by
  unfold State.srcRouteCmd
  try dsimp only
  repeat' (first
    | with_reducible assumption
    | (intro x hx; with_reducible exact hx)
    | (intro x hx; exact { hx with })
    | intro _
    | with_reducible apply ite_shape
    | with_reducible apply State.setRemote_shape
    | with_reducible apply State.evalAll_shape
    | split
    | dsimp only
    | exact { hS with })

theorem State.srcPrioCmd_shape (s : State) (a : BitVec 448) (hS : Shape s) : Shape (State.srcPrioCmd s a).2 := by
  unfold State.srcPrioCmd
  try dsimp only
  repeat' (first
    | with_reducible assumption
    | (intro x hx; with_reducible exact hx)
    | (intro x hx; exact { hx with })
    | intro _
    | with_reducible apply ite_shape
    | with_reducible apply State.setRemote_shape
    | with_reducible apply State.evalAll_shape
    | split
    | dsimp only
    | exact { hS with })

theorem State.updLanes_shape (s : State) (k : Nat) (f : Lane → Lane) (hS : Shape s) : Shape (State.updLanes s k f) := by
  unfold State.updLanes
  try dsimp only
  repeat' (first
    | with_reducible assumption
    | (intro x hx; with_reducible exact hx)
    | (intro x hx; exact { hx with })
    | intro _
    | with_reducible apply foldList_shape
    | with_reducible apply State.updLane_shape
    | split
    | dsimp only
    | exact { hS with })

theorem State.setLinkState_shape (s : State) (k : Nat) (st : BitVec 3) (hS : Shape s) : Shape (State.setLinkState s k st) := by
  unfold State.setLinkState
  try dsimp only
  repeat' (first
    | with_reducible assumption
    | (intro x hx; with_reducible exact hx)
    | (intro x hx; exact { hx with })
    | intro _
    | with_reducible apply ite_shape
    | with_reducible apply State.updLink_shape
    | split
    | dsimp only
    | exact { hS with })

theorem State.updShadow_shape (s : State) (p src : Nat) (f : Shadow → Shadow) (hS : Shape s) : Shape (State.updShadow s p src f) := by
  unfold State.updShadow
  try dsimp only
  repeat' (first
    | with_reducible assumption
    | (intro x hx; with_reducible exact hx)
    | (intro x hx; exact { hx with })
    | intro _
    | with_reducible apply State.modPartner_shape
    | split
    | dsimp only
    | exact { hS with })

theorem State.toStandby_shape (s : State) (p : Nat) (op : BitVec 4) (hS : Shape s) : Shape (State.toStandby s p op) := by
  unfold State.toStandby
  try dsimp only
  repeat' (first
    | with_reducible assumption
    | (intro x hx; with_reducible exact hx)
    | (intro x hx; exact { hx with })
    | intro _
    | with_reducible apply State.modPartner_shape
    | with_reducible apply State.updLink_shape
    | with_reducible apply State.sendRole_shape
    | split
    | dsimp only
    | exact { hS with })

theorem State.relinquish_shape (s : State) (p : Nat) (hS : Shape s) : Shape (State.relinquish s p) := by
  unfold State.relinquish
  try dsimp only
  repeat' (first
    | with_reducible assumption
    | (intro x hx; with_reducible exact hx)
    | (intro x hx; exact { hx with })
    | intro _
    | with_reducible apply ite_shape
    | with_reducible apply State.toStandby_shape
    | split
    | dsimp only
    | exact { hS with })

theorem State.settleHeld_shape (s : State) (k : Nat) (hS : Shape s) : Shape (State.settleHeld s k) := by
  unfold State.settleHeld
  try dsimp only
  repeat' (first
    | with_reducible assumption
    | (intro x hx; with_reducible exact hx)
    | (intro x hx; exact { hx with })
    | intro _
    | with_reducible apply ite_shape
    | with_reducible apply State.setLinkState_shape
    | with_reducible apply State.updLink_shape
    | split
    | dsimp only
    | exact { hS with })

theorem State.linkFalls_shape (s : State) (k : Nat) (reason : BitVec 4) (hS : Shape s) : Shape (State.linkFalls s k reason) := by
  unfold State.linkFalls
  try dsimp only
  repeat' (first
    | with_reducible assumption
    | (intro x hx; with_reducible exact hx)
    | (intro x hx; exact { hx with })
    | intro _
    | with_reducible apply ite_shape
    | with_reducible apply State.setLinkState_shape
    | with_reducible apply State.updLink_shape
    | with_reducible apply State.updLanes_shape
    | with_reducible apply State.settleHeld_shape
    | with_reducible apply State.modPartner_shape
    | split
    | dsimp only
    | exact { hS with })

theorem State.linkGoesDown_shape (s : State) (k : Nat) (reason : BitVec 4) (cause : Option (BitVec 8 × BitVec 32)) (hS : Shape s) : Shape (State.linkGoesDown s k reason cause) := by
  unfold State.linkGoesDown
  try dsimp only
  repeat' (first
    | with_reducible assumption
    | (intro x hx; with_reducible exact hx)
    | (intro x hx; exact { hx with })
    | intro _
    | with_reducible apply ite_shape
    | with_reducible apply State.report_shape
    | with_reducible apply State.linkFalls_shape
    | with_reducible apply State.relinquish_shape
    | split
    | dsimp only
    | exact { hS with })

theorem State.askSnapshot_shape (s : State) (k : Nat) (hS : Shape s) : Shape (State.askSnapshot s k) := by
  unfold State.askSnapshot
  try dsimp only
  repeat' (first
    | with_reducible assumption
    | (intro x hx; with_reducible exact hx)
    | (intro x hx; exact { hx with })
    | intro _
    | with_reducible apply State.updLink_shape
    | with_reducible apply State.queueEntry_shape
    | split
    | dsimp only
    | exact { hS with })

theorem State.present_shape (s : State) (k : Nat) (r : Rec) (hS : Shape s) : Shape (State.present s k r) := by
  unfold State.present
  try dsimp only
  repeat' (first
    | with_reducible assumption
    | (intro x hx; with_reducible exact hx)
    | (intro x hx; exact { hx with })
    | intro _
    | with_reducible apply State.updLink_shape
    | with_reducible apply State.enqueue_shape
    | split
    | dsimp only
    | exact { hS with })

theorem State.presentShadow_shape (s : State) (p k src : Nat) (hS : Shape s) : Shape (State.presentShadow s p k src).2 := by
  unfold State.presentShadow
  try dsimp only
  repeat' (first
    | with_reducible assumption
    | (intro x hx; with_reducible exact hx)
    | (intro x hx; exact { hx with })
    | intro _
    | with_reducible apply ite_shape
    | with_reducible apply State.present_shape
    | split
    | dsimp only
    | exact { hS with })

theorem State.promote_shape (s : State) (p k : Nat) (h : Shape s) : Shape (s.promote p k) := by
  have h1 := State.updLink_shape k (fun l => { l with promoted := true })
    (State.modPartner_shape (fun x => { x with active := setBit x.active p true }) h)
  have h2 : ∀ (n i : Nat) (b : Bool) (s : State), Shape s →
      Shape (foldFrom (fun i (a : Bool × State) => let b := a.2.presentShadow p k i; (a.1 || b.1, b.2)) i n (b, s)).2 := by
    intro n
    induction n with
    | zero => exact fun _ _ _ h => h
    | succ n ih => exact fun i b s h => ih _ _ _ (State.presentShadow_shape s p k i h)
  have h3 : ∀ (b : Bool) (s : State), Shape s → Shape (if b then s.degrade (.other 0x90010) 17 (BitVec.ofNat 16 p) 9 else s) := by
    intro b s h
    split
    · exact State.degrade_shape _ _ _ _ _ h
    · exact h
  unfold State.promote
  dsimp only
  refine ite_shape (State.askSnapshot_shape _ _ ?_) ?_ <;>
    exact State.updLink_shape _ _ (State.modPartner_shape _ (h3 _ _ (h2 _ 0 false _ h1)))

theorem State.promotePair_shape (s : State) (p : Nat) (hS : Shape s) : Shape (State.promotePair s p) := by
  unfold State.promotePair
  try dsimp only
  repeat' (first
    | with_reducible assumption
    | (intro x hx; with_reducible exact hx)
    | (intro x hx; exact { hx with })
    | intro _
    | with_reducible apply State.promote_shape
    | split
    | dsimp only
    | exact { hS with })

theorem State.tryPromote_shape (s : State) (p : Nat) (hS : Shape s) : Shape (State.tryPromote s p) := by
  unfold State.tryPromote
  try dsimp only
  repeat' (first
    | with_reducible assumption
    | (intro x hx; with_reducible exact hx)
    | (intro x hx; exact { hx with })
    | intro _
    | with_reducible apply ite_shape
    | with_reducible apply State.promote_shape
    | split
    | dsimp only
    | exact { hS with })

theorem State.lossPromote_shape (s : State) (k : Nat) (hS : Shape s) : Shape (State.lossPromote s k) := by
  unfold State.lossPromote
  try dsimp only
  repeat' (first
    | with_reducible assumption
    | (intro x hx; with_reducible exact hx)
    | (intro x hx; exact { hx with })
    | intro _
    | with_reducible apply ite_shape
    | with_reducible apply State.tryPromote_shape
    | split
    | dsimp only
    | exact { hS with })

theorem State.wakeLink_shape (s : State) (k : Nat) (hS : Shape s) : Shape (State.wakeLink s k) := by
  unfold State.wakeLink
  try dsimp only
  repeat' (first
    | with_reducible assumption
    | (intro x hx; with_reducible exact hx)
    | (intro x hx; exact { hx with })
    | intro _
    | with_reducible apply ite_shape
    | with_reducible apply foldList_shape
    | with_reducible apply foldBelow_shape
    | with_reducible apply State.updLink_shape
    | with_reducible apply State.updLane_shape
    | with_reducible apply State.sendPlain_shape
    | split
    | dsimp only
    | exact { hS with })

theorem State.sendCap_shape (s : State) (k : Nat) (hS : Shape s) : Shape (State.sendCap s k) := by
  unfold State.sendCap
  try dsimp only
  repeat' (first
    | with_reducible assumption
    | (intro x hx; with_reducible exact hx)
    | (intro x hx; exact { hx with })
    | intro _
    | with_reducible apply ite_shape
    | with_reducible apply State.sendPlain_shape
    | with_reducible apply State.updLink_shape
    | split
    | dsimp only
    | exact { hS with })

theorem State.startCap_shape (s : State) (k : Nat) (hS : Shape s) : Shape (State.startCap s k) := by
  unfold State.startCap
  try dsimp only
  repeat' (first
    | with_reducible assumption
    | (intro x hx; with_reducible exact hx)
    | (intro x hx; exact { hx with })
    | intro _
    | with_reducible apply ite_shape
    | with_reducible apply State.drawNoise_shape
    | with_reducible apply State.setLinkState_shape
    | with_reducible apply State.updLink_shape
    | with_reducible apply State.sendCap_shape
    | split
    | dsimp only
    | exact { hS with })

theorem State.answerUp_shape (s : State) (w : UpWait) (a : Answer) (hS : Shape s) : Shape (State.answerUp s w a) := by
  unfold State.answerUp
  try dsimp only
  repeat' (first
    | with_reducible assumption
    | (intro x hx; with_reducible exact hx)
    | (intro x hx; exact { hx with })
    | intro _
    | with_reducible apply State.finishSlot_shape
    | with_reducible apply State.failover_shape
    | split
    | dsimp only
    | exact { hS with })

theorem State.linkComesUp_shape (s : State) (k : Nat) (salt : BitVec 20) (hS : Shape s) : Shape (State.linkComesUp s k salt) := by
  unfold State.linkComesUp
  try dsimp only
  repeat' (first
    | with_reducible assumption
    | (intro x hx; with_reducible exact hx)
    | (intro x hx; exact { hx with })
    | intro _
    | with_reducible apply ite_shape
    | with_reducible apply foldList_shape
    | with_reducible apply foldBelow_shape
    | with_reducible apply State.setLinkState_shape
    | with_reducible apply State.updLink_shape
    | with_reducible apply State.reassert_shape
    | with_reducible apply State.answerUp_shape
    | with_reducible apply State.modPartner_shape
    | with_reducible apply State.startSync_shape
    | with_reducible apply State.sendRole_shape
    | with_reducible apply State.lossPromote_shape
    | split
    | dsimp only
    | exact { hS with })

theorem State.framingLost_shape (s : State) (k : Nat) (hS : Shape s) : Shape (State.framingLost s k) := by
  unfold State.framingLost
  try dsimp only
  repeat' (first
    | with_reducible assumption
    | (intro x hx; with_reducible exact hx)
    | (intro x hx; exact { hx with })
    | intro _
    | with_reducible apply ite_shape
    | with_reducible apply foldList_shape
    | with_reducible apply State.updLane_shape
    | with_reducible apply State.linkGoesDown_shape
    | split
    | dsimp only
    | exact { hS with })

theorem State.countBad_shape (s : State) (k : Nat) (hS : Shape s) : Shape (State.countBad s k) := by
  unfold State.countBad
  try dsimp only
  repeat' (first
    | with_reducible assumption
    | (intro x hx; with_reducible exact hx)
    | (intro x hx; exact { hx with })
    | intro _
    | with_reducible apply ite_shape
    | with_reducible apply State.updLink_shape
    | with_reducible apply State.framingLost_shape
    | split
    | dsimp only
    | exact { hS with })

theorem State.badFlit_shape (s : State) (k : Nat) (hS : Shape s) : Shape (State.badFlit s k) := by
  unfold State.badFlit
  try dsimp only
  repeat' (first
    | with_reducible assumption
    | (intro x hx; with_reducible exact hx)
    | (intro x hx; exact { hx with })
    | intro _
    | with_reducible apply ite_shape
    | with_reducible apply State.updLink_shape
    | with_reducible apply State.countBad_shape
    | split
    | dsimp only
    | exact { hS with })

theorem State.useAck_shape (s : State) (k : Nat) (a : BitVec 12) (hS : Shape s) : Shape (State.useAck s k a) := by
  unfold State.useAck
  try dsimp only
  repeat' (first
    | with_reducible assumption
    | (intro x hx; with_reducible exact hx)
    | (intro x hx; exact { hx with })
    | intro _
    | with_reducible apply ite_shape
    | with_reducible apply State.updLink_shape
    | with_reducible apply State.pump_shape
    | split
    | dsimp only
    | exact { hS with })

theorem State.replayAll_shape (s : State) (k : Nat) (hS : Shape s) : Shape (State.replayAll s k) := by
  unfold State.replayAll
  try dsimp only
  repeat' (first
    | with_reducible assumption
    | (intro x hx; with_reducible exact hx)
    | (intro x hx; exact { hx with })
    | intro _
    | with_reducible apply ite_shape
    | with_reducible apply foldList_shape
    | with_reducible apply State.sendLanes_shape
    | with_reducible apply State.updLink_shape
    | split
    | dsimp only
    | exact { hS with })

theorem State.replayAsked_shape (s : State) (k : Nat) (hS : Shape s) : Shape (State.replayAsked s k) := by
  unfold State.replayAsked
  try dsimp only
  repeat' (first
    | with_reducible assumption
    | (intro x hx; with_reducible exact hx)
    | (intro x hx; exact { hx with })
    | intro _
    | with_reducible apply ite_shape
    | with_reducible apply State.replayAll_shape
    | split
    | dsimp only
    | exact { hS with })

theorem State.shadowEntry_shape (s : State) (p src : Nat) (kind : BitVec 4) (hS : Shape s) : Shape (State.shadowEntry s p src kind) := by
  unfold State.shadowEntry
  try dsimp only
  repeat' (first
    | with_reducible assumption
    | (intro x hx; with_reducible exact hx)
    | (intro x hx; exact { hx with })
    | intro _
    | with_reducible apply ite_shape
    | with_reducible apply State.updShadow_shape
    | split
    | dsimp only
    | exact { hS with })

theorem State.viewEntry_shape (s : State) (k src : Nat) (kind : BitVec 4) (hS : Shape s) : Shape (State.viewEntry s k src kind) := by
  unfold State.viewEntry
  try dsimp only
  repeat' (first
    | with_reducible assumption
    | (intro x hx; with_reducible exact hx)
    | (intro x hx; exact { hx with })
    | intro _
    | with_reducible apply ite_shape
    | with_reducible apply State.updLink_shape
    | split
    | dsimp only
    | exact { hS with })

theorem State.sourceEntry_shape (s : State) (k : Nat) (c : LinkCfg) (at_ : BitVec 48) (e : BitVec 96) (hS : Shape s) : Shape (State.sourceEntry s k c at_ e) := by
  unfold State.sourceEntry
  try dsimp only
  repeat' (first
    | with_reducible assumption
    | (intro x hx; with_reducible exact hx)
    | (intro x hx; exact { hx with })
    | intro _
    | with_reducible apply ite_shape
    | with_reducible apply State.linkRefuse_shape
    | with_reducible apply State.viewEntry_shape
    | with_reducible apply State.present_shape
    | with_reducible apply State.shadowEntry_shape
    | split
    | dsimp only
    | exact { hS with })

theorem State.snapBit_shape (s : State) (k : Nat) (c : LinkCfg) (at_ : BitVec 48) (e : BitVec 96) (src : Nat) (v : Bool) (hS : Shape s) : Shape (State.snapBit s k c at_ e src v) := by
  unfold State.snapBit
  try dsimp only
  repeat' (first
    | with_reducible assumption
    | (intro x hx; with_reducible exact hx)
    | (intro x hx; exact { hx with })
    | intro _
    | with_reducible apply ite_shape
    | with_reducible apply State.reassert_shape
    | with_reducible apply State.updLink_shape
    | with_reducible apply State.updShadow_shape
    | with_reducible apply State.present_shape
    | split
    | dsimp only
    | exact { hS with })

theorem State.snapEntry_shape (s : State) (k : Nat) (c : LinkCfg) (at_ : BitVec 48) (e : BitVec 96) (hS : Shape s) : Shape (State.snapEntry s k c at_ e) := by
  unfold State.snapEntry
  try dsimp only
  repeat' (first
    | with_reducible assumption
    | (intro x hx; with_reducible exact hx)
    | (intro x hx; exact { hx with })
    | intro _
    | with_reducible apply foldBelow_shape
    | with_reducible apply State.snapBit_shape
    | split
    | dsimp only
    | exact { hS with })

theorem State.peerWord_shape (s : State) (k : Nat) (up : Bool) (hS : Shape s) : Shape (State.peerWord s k up) := by
  unfold State.peerWord
  try dsimp only
  repeat' (first
    | with_reducible assumption
    | (intro x hx; with_reducible exact hx)
    | (intro x hx; exact { hx with })
    | intro _
    | with_reducible apply State.updLink_shape
    | with_reducible apply State.lossPromote_shape
    | split
    | dsimp only
    | exact { hS with })

theorem State.snapEnd_shape (s : State) (k : Nat) (e : BitVec 96) (hS : Shape s) : Shape (State.snapEnd s k e) := by
  unfold State.snapEnd
  try dsimp only
  repeat' (first
    | with_reducible assumption
    | (intro x hx; with_reducible exact hx)
    | (intro x hx; exact { hx with })
    | intro _
    | with_reducible apply State.updLink_shape
    | with_reducible apply State.peerWord_shape
    | split
    | dsimp only
    | exact { hS with })

theorem State.valleyEntry_shape (s : State) (k : Nat) (c : LinkCfg) (at_ : BitVec 48) (e : BitVec 96) (hS : Shape s) : Shape (State.valleyEntry s k c at_ e) := by
  unfold State.valleyEntry
  try dsimp only
  repeat' (first
    | with_reducible assumption
    | (intro x hx; with_reducible exact hx)
    | (intro x hx; exact { hx with })
    | intro _
    | with_reducible apply ite_shape
    | with_reducible apply State.sourceEntry_shape
    | with_reducible apply State.snapEntry_shape
    | with_reducible apply State.snapEnd_shape
    | with_reducible apply State.peerWord_shape
    | with_reducible apply State.linkRefuse_shape
    | split
    | dsimp only
    | exact { hS with })

theorem State.oweShared_shape (s : State) (k : Nat) (hS : Shape s) : Shape (State.oweShared s k) := by
  unfold State.oweShared
  try dsimp only
  repeat' (first
    | with_reducible assumption
    | (intro x hx; with_reducible exact hx)
    | (intro x hx; exact { hx with })
    | intro _
    | with_reducible apply ite_shape
    | with_reducible apply State.updLink_shape
    | with_reducible apply State.queueEntry_shape
    | split
    | dsimp only
    | exact { hS with })

theorem State.noticeCredit_shape (s : State) (k : Nat) (e : BitVec 96) (hS : Shape s) : Shape (State.noticeCredit s k e) := by
  unfold State.noticeCredit
  try dsimp only
  repeat' (first
    | with_reducible assumption
    | (intro x hx; with_reducible exact hx)
    | (intro x hx; exact { hx with })
    | intro _
    | with_reducible apply ite_shape
    | with_reducible apply State.queueEntry_shape
    | with_reducible apply State.oweShared_shape
    | split
    | dsimp only
    | exact { hS with })

theorem State.inShadow_shape (s : State) (p src : Nat) (f : Shadow → Shadow) (hS : Shape s) : Shape (State.inShadow s p src f) := by
  unfold State.inShadow
  try dsimp only
  repeat' (first
    | with_reducible assumption
    | (intro x hx; with_reducible exact hx)
    | (intro x hx; exact { hx with })
    | intro _
    | with_reducible apply ite_shape
    | with_reducible apply State.updShadow_shape
    | split
    | dsimp only
    | exact { hS with })

theorem State.withdrawPromoted_shape (s : State) (h : Handle) (hS : Shape s) : Shape (State.withdrawPromoted s h) := by
  unfold State.withdrawPromoted
  try dsimp only
  repeat' (first
    | with_reducible assumption
    | (intro x hx; with_reducible exact hx)
    | (intro x hx; exact { hx with })
    | intro _
    | with_reducible apply State.removeInst_shape
    | with_reducible apply State.after_shape
    | with_reducible apply State.updVt_shape
    | with_reducible apply State.groupNoPending_shape
    | with_reducible apply State.ackAll_shape
    | with_reducible apply State.evalAll_shape
    | split
    | dsimp only
    | exact { hS with })

theorem State.completeEntry_shape (s : State) (p src : Nat) (hS : Shape s) : Shape (State.completeEntry s p src) := by
  unfold State.completeEntry
  try dsimp only
  repeat' (first
    | with_reducible assumption
    | (intro x hx; with_reducible exact hx)
    | (intro x hx; exact { hx with })
    | intro _
    | with_reducible apply ite_shape
    | with_reducible apply State.withdrawPromoted_shape
    | with_reducible apply State.inShadow_shape
    | split
    | dsimp only
    | exact { hS with })

theorem State.syncRx_shape (s : State) (e : BitVec 96) (hS : Shape s) : Shape (State.syncRx s e) := by
  unfold State.syncRx
  try dsimp only
  repeat' (first
    | with_reducible assumption
    | (intro x hx; with_reducible exact hx)
    | (intro x hx; exact { hx with })
    | intro _
    | with_reducible apply ite_shape
    | with_reducible apply State.modPartner_shape
    | with_reducible apply State.inShadow_shape
    | split
    | dsimp only
    | exact { hS with })

theorem State.roleRx_shape (s : State) (op : BitVec 4) (p : Nat) (hS : Shape s) : Shape (State.roleRx s op p) := by
  unfold State.roleRx
  try dsimp only
  repeat' (first
    | with_reducible assumption
    | (intro x hx; with_reducible exact hx)
    | (intro x hx; exact { hx with })
    | intro _
    | with_reducible apply ite_shape
    | with_reducible apply State.tryPromote_shape
    | with_reducible apply State.startSync_shape
    | split
    | dsimp only
    | exact { hS with })

theorem State.colRx_shape (s : State) (k : Nat) (e : BitVec 96) (hS : Shape s) : Shape (State.colRx s k e) := by
  unfold State.colRx
  try dsimp only
  repeat' (first
    | with_reducible assumption
    | (intro x hx; with_reducible exact hx)
    | (intro x hx; exact { hx with })
    | intro _
    | with_reducible apply State.inShadow_shape
    | with_reducible apply State.noticeCredit_shape
    | with_reducible apply State.completeEntry_shape
    | with_reducible apply State.syncRx_shape
    | with_reducible apply State.oweShared_shape
    | with_reducible apply State.pumpCol_shape
    | with_reducible apply State.roleRx_shape
    | with_reducible apply State.updLink_shape
    | split
    | dsimp only
    | exact { hS with })

theorem State.entryRx_shape (s : State) (k : Nat) (at_ : BitVec 48) (e : BitVec 96) (hS : Shape s) : Shape (State.entryRx s k at_ e) := by
  unfold State.entryRx
  try dsimp only
  repeat' (first
    | with_reducible assumption
    | (intro x hx; with_reducible exact hx)
    | (intro x hx; exact { hx with })
    | intro _
    | with_reducible apply ite_shape
    | with_reducible apply State.colRx_shape
    | with_reducible apply State.valleyEntry_shape
    | split
    | dsimp only
    | exact { hS with })

theorem State.flitEntries_shape (s : State) (k : Nat) (f : BitVec 256 × BitVec 48) (hS : Shape s) : Shape (State.flitEntries s k f) := by
  unfold State.flitEntries
  try dsimp only
  repeat' (first
    | with_reducible assumption
    | (intro x hx; with_reducible exact hx)
    | (intro x hx; exact { hx with })
    | intro _
    | with_reducible apply ite_shape
    | with_reducible apply State.entryRx_shape
    | split
    | dsimp only
    | exact { hS with })

theorem State.seqFlit_shape (s : State) (k : Nat) (f : BitVec 256) (hS : Shape s) : Shape (State.seqFlit s k f) := by
  unfold State.seqFlit
  try dsimp only
  repeat' (first
    | with_reducible assumption
    | (intro x hx; with_reducible exact hx)
    | (intro x hx; exact { hx with })
    | intro _
    | with_reducible apply ite_shape
    | with_reducible apply State.updLink_shape
    | with_reducible apply State.flitEntries_shape
    | split
    | dsimp only
    | exact { hS with })

theorem State.settleRoles_shape (s : State) (peer : BitVec 16) (first : Bool) (hS : Shape s) : Shape (State.settleRoles s peer first) := by
  unfold State.settleRoles
  try dsimp only
  repeat' (first
    | with_reducible assumption
    | (intro x hx; with_reducible exact hx)
    | (intro x hx; exact { hx with })
    | intro _
    | with_reducible apply ite_shape
    | with_reducible apply foldBelow_shape
    | with_reducible apply State.toStandby_shape
    | with_reducible apply State.promotePair_shape
    | split
    | dsimp only
    | exact { hS with })

theorem State.heartbeat_shape (s : State) (f : BitVec 256) (hS : Shape s) : Shape (State.heartbeat s f) := by
  unfold State.heartbeat
  try dsimp only
  repeat' (first
    | with_reducible assumption
    | (intro x hx; with_reducible exact hx)
    | (intro x hx; exact { hx with })
    | intro _
    | with_reducible apply State.modPartner_shape
    | with_reducible apply State.settleRoles_shape
    | split
    | dsimp only
    | exact { hS with })

theorem State.capFlit_shape (s : State) (k : Nat) (f : BitVec 256) (hS : Shape s) : Shape (State.capFlit s k f) := by
  unfold State.capFlit
  try dsimp only
  repeat' (first
    | with_reducible assumption
    | (intro x hx; with_reducible exact hx)
    | (intro x hx; exact { hx with })
    | intro _
    | with_reducible apply ite_shape
    | with_reducible apply State.linkComesUp_shape
    | with_reducible apply State.linkGoesDown_shape
    | split
    | dsimp only
    | exact { hS with })

theorem State.upFlit_shape (s : State) (k : Nat) (f : BitVec 256) (hS : Shape s) : Shape (State.upFlit s k f) := by
  unfold State.upFlit
  try dsimp only
  repeat' (first
    | with_reducible assumption
    | (intro x hx; with_reducible exact hx)
    | (intro x hx; exact { hx with })
    | intro _
    | with_reducible apply ite_shape
    | with_reducible apply State.updLink_shape
    | with_reducible apply State.useAck_shape
    | with_reducible apply State.replayAsked_shape
    | with_reducible apply State.heartbeat_shape
    | with_reducible apply State.seqFlit_shape
    | split
    | dsimp only
    | exact { hS with })

theorem State.sendStep_shape (s : State) (k : Nat) (hS : Shape s) : Shape (State.sendStep s k) := by
  unfold State.sendStep
  try dsimp only
  repeat' (first
    | with_reducible assumption
    | (intro x hx; with_reducible exact hx)
    | (intro x hx; exact { hx with })
    | intro _
    | with_reducible apply State.updLink_shape
    | with_reducible apply State.sendLanes_shape
    | split
    | dsimp only
    | exact { hS with })

theorem State.stepRx_shape (s : State) (k : Nat) (c : LinkCfg) (f : BitVec 256) (hS : Shape s) : Shape (State.stepRx s k c f) := by
  unfold State.stepRx
  try dsimp only
  repeat' (first
    | with_reducible assumption
    | (intro x hx; with_reducible exact hx)
    | (intro x hx; exact { hx with })
    | intro _
    | with_reducible apply ite_shape
    | with_reducible apply State.updLink_shape
    | with_reducible apply State.sendStep_shape
    | with_reducible apply State.startCap_shape
    | split
    | dsimp only
    | exact { hS with })

theorem State.stepIn_shape (s : State) (k : Nat) (c : LinkCfg) (f : BitVec 256) (hS : Shape s) : Shape (State.stepIn s k c f) := by
  unfold State.stepIn
  try dsimp only
  repeat' (first
    | with_reducible assumption
    | (intro x hx; with_reducible exact hx)
    | (intro x hx; exact { hx with })
    | intro _
    | with_reducible apply ite_shape
    | with_reducible apply State.countBad_shape
    | with_reducible apply State.updLink_shape
    | with_reducible apply State.stepRx_shape
    | split
    | dsimp only
    | exact { hS with })

theorem State.flitIn_shape (s : State) (k : Nat) (f : BitVec 256) (hS : Shape s) : Shape (State.flitIn s k f) := by
  unfold State.flitIn
  try dsimp only
  repeat' (first
    | with_reducible assumption
    | (intro x hx; with_reducible exact hx)
    | (intro x hx; exact { hx with })
    | intro _
    | with_reducible apply ite_shape
    | with_reducible apply State.recvLanes_shape
    | with_reducible apply State.stepIn_shape
    | with_reducible apply State.badFlit_shape
    | with_reducible apply State.updLink_shape
    | with_reducible apply State.capFlit_shape
    | with_reducible apply State.upFlit_shape
    | split
    | dsimp only
    | exact { hS with })

theorem State.releaseBurst_shape (s : State) (k : Nat) (flits : List (BitVec 256 × BitVec 48)) (tag : BitVec 256) (rest : List (BitVec 256 × BitVec 48)) (hS : Shape s) : Shape (State.releaseBurst s k flits tag rest) := by
  unfold State.releaseBurst
  try dsimp only
  repeat' (first
    | with_reducible assumption
    | (intro x hx; with_reducible exact hx)
    | (intro x hx; exact { hx with })
    | intro _
    | with_reducible apply foldList_shape
    | with_reducible apply State.flitEntries_shape
    | with_reducible apply State.updLink_shape
    | split
    | dsimp only
    | exact { hS with })

theorem State.failBurst_shape (s : State) (k : Nat) (hS : Shape s) : Shape (State.failBurst s k) := by
  unfold State.failBurst
  try dsimp only
  repeat' (first
    | with_reducible assumption
    | (intro x hx; with_reducible exact hx)
    | (intro x hx; exact { hx with })
    | intro _
    | with_reducible apply ite_shape
    | with_reducible apply State.updLink_shape
    | with_reducible apply State.report_shape
    | with_reducible apply State.linkGoesDown_shape
    | split
    | dsimp only
    | exact { hS with })

theorem State.answerQuad_shape (s : State) (q : Nat) (hS : Shape s) : Shape (State.answerQuad s q) := by
  unfold State.answerQuad
  try dsimp only
  repeat' (first
    | with_reducible assumption
    | (intro x hx; with_reducible exact hx)
    | (intro x hx; exact { hx with })
    | intro _
    | with_reducible apply foldList_shape
    | with_reducible apply State.finishSlot_shape
    | with_reducible apply State.updQuad_shape
    | split
    | dsimp only
    | exact { hS with })

theorem State.settleQuadPower_shape (s : State) (q : Nat) (hS : Shape s) : Shape (State.settleQuadPower s q) := by
  unfold State.settleQuadPower
  try dsimp only
  repeat' (first
    | with_reducible assumption
    | (intro x hx; with_reducible exact hx)
    | (intro x hx; exact { hx with })
    | intro _
    | with_reducible apply ite_shape
    | with_reducible apply State.answerQuad_shape
    | with_reducible apply State.updQuad_shape
    | split
    | dsimp only
    | exact { hS with })

theorem State.attemptFails_shape (s : State) (k : Nat) (hS : Shape s) : Shape (State.attemptFails s k) := by
  unfold State.attemptFails
  try dsimp only
  repeat' (first
    | with_reducible assumption
    | (intro x hx; with_reducible exact hx)
    | (intro x hx; exact { hx with })
    | intro _
    | with_reducible apply State.setLinkState_shape
    | with_reducible apply State.updLink_shape
    | with_reducible apply State.updLanes_shape
    | with_reducible apply State.settleHeld_shape
    | split
    | dsimp only
    | exact { hS with })

theorem State.sendFrames_shape (s : State) (k : Nat) (last : Bool) (count : BitVec 4) (idle : Bool) (hS : Shape s) : Shape (State.sendFrames s k last count idle) := by
  unfold State.sendFrames
  try dsimp only
  repeat' (first
    | with_reducible assumption
    | (intro x hx; with_reducible exact hx)
    | (intro x hx; exact { hx with })
    | intro _
    | with_reducible apply ite_shape
    | with_reducible apply foldList_shape
    | with_reducible apply State.updLane_shape
    | split
    | dsimp only
    | exact { hS with })

theorem State.startAttempt_shape (s : State) (k : Nat) (c : LinkCfg) (hS : Shape s) : Shape (State.startAttempt s k c) := by
  unfold State.startAttempt
  try dsimp only
  repeat' (first
    | with_reducible assumption
    | (intro x hx; with_reducible exact hx)
    | (intro x hx; exact { hx with })
    | intro _
    | with_reducible apply ite_shape
    | with_reducible apply foldList_shape
    | with_reducible apply State.setLinkState_shape
    | with_reducible apply State.updLink_shape
    | with_reducible apply State.updLanes_shape
    | with_reducible apply State.updLane_shape
    | with_reducible apply State.sendFrames_shape
    | split
    | dsimp only
    | exact { hS with })

theorem State.tryAttempt_shape (s : State) (k : Nat) (hS : Shape s) : Shape (State.tryAttempt s k) := by
  unfold State.tryAttempt
  try dsimp only
  repeat' (first
    | with_reducible assumption
    | (intro x hx; with_reducible exact hx)
    | (intro x hx; exact { hx with })
    | intro _
    | with_reducible apply ite_shape
    | with_reducible apply State.settleHeld_shape
    | with_reducible apply State.startAttempt_shape
    | split
    | dsimp only
    | exact { hS with })

theorem State.resumeHeld_shape (s : State) (hS : Shape s) : Shape (State.resumeHeld s) := by
  unfold State.resumeHeld
  try dsimp only
  repeat' (first
    | with_reducible assumption
    | (intro x hx; with_reducible exact hx)
    | (intro x hx; exact { hx with })
    | intro _
    | with_reducible apply ite_shape
    | with_reducible apply foldBelow_shape
    | with_reducible apply State.tryAttempt_shape
    | split
    | dsimp only
    | exact { hS with })

theorem State.countDown_shape (s : State) (k : Nat) (hS : Shape s) : Shape (State.countDown s k) := by
  unfold State.countDown
  try dsimp only
  repeat' (first
    | with_reducible assumption
    | (intro x hx; with_reducible exact hx)
    | (intro x hx; exact { hx with })
    | intro _
    | with_reducible apply foldBelow_shape
    | with_reducible apply State.sendFrames_shape
    | split
    | dsimp only
    | exact { hS with })

theorem State.dataBegins_shape (s : State) (k : Nat) (c : LinkCfg) (use : BitVec 4) (hS : Shape s) : Shape (State.dataBegins s k c use) := by
  unfold State.dataBegins
  try dsimp only
  repeat' (first
    | with_reducible assumption
    | (intro x hx; with_reducible exact hx)
    | (intro x hx; exact { hx with })
    | intro _
    | with_reducible apply ite_shape
    | with_reducible apply foldList_shape
    | with_reducible apply State.updLink_shape
    | with_reducible apply State.updLane_shape
    | with_reducible apply State.countDown_shape
    | with_reducible apply State.sendStep_shape
    | with_reducible apply State.startCap_shape
    | split
    | dsimp only
    | exact { hS with })

theorem State.switchRate_shape (s : State) (k : Nat) (rate : BitVec 2) (hS : Shape s) : Shape (State.switchRate s k rate) := by
  unfold State.switchRate
  try dsimp only
  repeat' (first
    | with_reducible assumption
    | (intro x hx; with_reducible exact hx)
    | (intro x hx; exact { hx with })
    | intro _
    | with_reducible apply foldList_shape
    | with_reducible apply State.updLink_shape
    | with_reducible apply State.updLanes_shape
    | with_reducible apply State.updLane_shape
    | split
    | dsimp only
    | exact { hS with })

theorem State.fallBack_shape (s : State) (k : Nat) (hS : Shape s) : Shape (State.fallBack s k) := by
  unfold State.fallBack
  try dsimp only
  repeat' (first
    | with_reducible assumption
    | (intro x hx; with_reducible exact hx)
    | (intro x hx; exact { hx with })
    | intro _
    | with_reducible apply State.switchRate_shape
    | with_reducible apply State.attemptFails_shape
    | split
    | dsimp only
    | exact { hS with })

theorem State.chooseLanes_shape (s : State) (k : Nat) (c : LinkCfg) (peerLocked : BitVec 4) (hS : Shape s) : Shape (State.chooseLanes s k c peerLocked) := by
  unfold State.chooseLanes
  try dsimp only
  repeat' (first
    | with_reducible assumption
    | (intro x hx; with_reducible exact hx)
    | (intro x hx; exact { hx with })
    | intro _
    | with_reducible apply ite_shape
    | with_reducible apply State.fallBack_shape
    | with_reducible apply State.attemptFails_shape
    | with_reducible apply State.dataBegins_shape
    | split
    | dsimp only
    | exact { hS with })

theorem State.laneFails_shape (s : State) (k : Nat) (reason : BitVec 4) (cause : BitVec 8) (lanes : List Nat) (hS : Shape s) : Shape (State.laneFails s k reason cause lanes) := by
  unfold State.laneFails
  try dsimp only
  repeat' (first
    | with_reducible assumption
    | (intro x hx; with_reducible exact hx)
    | (intro x hx; exact { hx with })
    | intro _
    | with_reducible apply ite_shape
    | with_reducible apply State.linkGoesDown_shape
    | with_reducible apply State.attemptFails_shape
    | split
    | dsimp only
    | exact { hS with })

theorem State.unlock_shape (s : State) (n : Nat) (hS : Shape s) : Shape (State.unlock s n) := by
  unfold State.unlock
  try dsimp only
  repeat' (first
    | with_reducible assumption
    | (intro x hx; with_reducible exact hx)
    | (intro x hx; exact { hx with })
    | intro _
    | with_reducible apply ite_shape
    | with_reducible apply State.updLink_shape
    | split
    | dsimp only
    | exact { hS with })

theorem State.lanesLost_shape (s : State) (los lol : List Nat) (hS : Shape s) : Shape (State.lanesLost s los lol) := by
  unfold State.lanesLost
  try dsimp only
  repeat' (first
    | with_reducible assumption
    | (intro x hx; with_reducible exact hx)
    | (intro x hx; exact { hx with })
    | intro _
    | with_reducible apply ite_shape
    | with_reducible apply foldList_shape
    | with_reducible apply foldBelow_shape
    | with_reducible apply State.updLane_shape
    | with_reducible apply State.unlock_shape
    | with_reducible apply State.laneFails_shape
    | split
    | dsimp only
    | exact { hS with })

theorem State.quadLoses_shape (s : State) (q : Nat) (hS : Shape s) : Shape (State.quadLoses s q) := by
  unfold State.quadLoses
  try dsimp only
  repeat' (first
    | with_reducible assumption
    | (intro x hx; with_reducible exact hx)
    | (intro x hx; exact { hx with })
    | intro _
    | with_reducible apply ite_shape
    | with_reducible apply foldBelow_shape
    | with_reducible apply State.attemptFails_shape
    | with_reducible apply State.updLink_shape
    | with_reducible apply State.laneFails_shape
    | split
    | dsimp only
    | exact { hS with })

theorem State.sendIdle_shape (s : State) (k : Nat) (hS : Shape s) : Shape (State.sendIdle s k) := by
  unfold State.sendIdle
  try dsimp only
  repeat' (first
    | with_reducible assumption
    | (intro x hx; with_reducible exact hx)
    | (intro x hx; exact { hx with })
    | intro _
    | with_reducible apply State.sendFrames_shape
    | with_reducible apply State.updLink_shape
    | split
    | dsimp only
    | exact { hS with })

theorem State.trainTick_shape (s : State) (k : Nat) (hS : Shape s) : Shape (State.trainTick s k) := by
  unfold State.trainTick
  try dsimp only
  repeat' (first
    | with_reducible assumption
    | (intro x hx; with_reducible exact hx)
    | (intro x hx; exact { hx with })
    | intro _
    | with_reducible apply ite_shape
    | with_reducible apply State.sendStep_shape
    | with_reducible apply State.sendFrames_shape
    | split
    | dsimp only
    | exact { hS with })

theorem State.phyTick_shape (s : State) (hS : Shape s) : Shape (State.phyTick s) := by
  unfold State.phyTick
  try dsimp only
  repeat' (first
    | with_reducible assumption
    | (intro x hx; with_reducible exact hx)
    | (intro x hx; exact { hx with })
    | intro _
    | with_reducible apply ite_shape
    | with_reducible apply foldBelow_shape
    | with_reducible apply State.updQuad_shape
    | with_reducible apply State.updLane_shape
    | with_reducible apply State.trainTick_shape
    | split
    | dsimp only
    | exact { hS with })

theorem State.linkTimer_shape (s : State) (k : Nat) (due : Link → Bool) (f : State → State) (hf : ∀ s, Shape s → Shape (f s)) (h : Shape s) :
    Shape (s.linkTimer k due f) := by
  unfold State.linkTimer
  split
  · exact hf _ h
  · exact h

theorem State.compactIf_shape (s : State) (n : Nat) (h : Shape s) : Shape (s.compactIf n) :=
  ite_shape (State.compact_shape _ _ h) h

theorem State.linkConfig_shape (s : State) (a : BitVec 448) (h : Shape s) : Shape (s.linkConfig a).2 := by
  unfold State.linkConfig
  dsimp only
  split
  · exact h
  · have hfr := State.modXl_shape (fun x => { x with devCache := x.devCache.filter (fun l => l.req != linkReq (arg a 0 8).toNat) })
      (State.freePin_shape s (linkReq (arg a 0 8).toNat) h) (fun _ hx => { hx with })
    split
    · exact h
    · split
      · exact h
      · split
        · exact h
        · split
          · exact h
          · rename_i base s2 heq
            have h1 : Shape s2 := by
              split at heq
              · cases heq; exact hfr
              · exact State.allocPin_shape _ _ _ (base, s2) heq (State.compactIf_shape _ _ hfr)
            split
            · dsimp only
              exact State.modRat_shape _ h (fun _ hr => { hr with })
            · have h2 := fun x => State.settleHeld_shape _ (arg a 0 8).toNat (State.setLinkState_shape _ (arg a 0 8).toNat 1
                (State.updLink_shape (arg a 0 8).toNat x (foldList_shape (l := (s.linkAt (arg a 0 8).toNat).lanes) h1 (fun n _ h => State.updLane_shape n Lane.squelch h))))
              exact foldBelow_shape (ite_shape (h2 _) (State.devFill_shape _ _ _ _ (h2 _))) (fun _ _ h => State.settleQuadPower_shape _ _ h)

theorem State.quadAnswer_shape (s : State) (m i : Nat) (r : BitVec 512) (q : Nat) (x : Answer × State) (hx : Shape x.2) :
    Shape (s.quadAnswer m i r q x) := by
  unfold State.quadAnswer
  split
  · exact State.updQuad_shape _ _ hx
  · exact State.answerSlot_shape _ _ _ _ hx

theorem State.quadCommand_shape (s : State) (m : Nat) (code : BitVec 16) (by_ : Issuers) (ready : BitVec 448 → Bool) (quad : BitVec 448 → Nat)
    (f : BitVec 448 → State → Answer × State) (hf : ∀ a s, Shape s → Shape (f a s).2) (h : Shape s) : Shape (s.quadCommand m code by_ ready quad f) := by
  have hx := fun i a => hf a _ (State.commit_shape _ m i (State.takeSlot_shape s m i h))
  unfold State.quadCommand
  dsimp only
  (repeat' split) <;> first
    | exact h
    | exact State.command_shape _ _ _ _ _ _ hf h
    | exact State.quadAnswer_shape _ _ _ _ _ _ (hx _ _)

theorem State.pinFinish_shape (s : State) (j : PinJob) (hS : Shape s) : Shape (State.pinFinish s j) := by
  unfold State.pinFinish
  try dsimp only
  repeat' (first
    | with_reducible assumption
    | (intro x hx; with_reducible exact hx)
    | (intro x hx; exact { hx with })
    | intro _
    | with_reducible apply ite_shape
    | with_reducible apply State.modXl_shape
    | with_reducible apply State.commit_shape
    | with_reducible apply State.quadAnswer_shape
    | with_reducible apply State.linkConfig_shape
    | with_reducible apply State.reqPin_shape
    | with_reducible apply State.answerSlot_shape
    | split
    | dsimp only
    | exact { hS with })

theorem State.pinStep_shape (s : State) (hS : Shape s) : Shape (State.pinStep s) := by
  unfold State.pinStep
  try dsimp only
  repeat' (first
    | with_reducible assumption
    | (intro x hx; with_reducible exact hx)
    | (intro x hx; exact { hx with })
    | intro _
    | with_reducible apply ite_shape
    | with_reducible apply State.moveBlockTo_shape
    | with_reducible apply State.modXl_shape
    | with_reducible apply State.pinFinish_shape
    | split
    | dsimp only
    | exact { hS with })

theorem State.linkUpCmd_shape (s : State) (m i : Nat) (r : BitVec 512) (hS : Shape s) : Shape (State.linkUpCmd s m i r) := by
  unfold State.linkUpCmd
  try dsimp only
  repeat' (first
    | with_reducible assumption
    | (intro x hx; with_reducible exact hx)
    | (intro x hx; exact { hx with })
    | intro _
    | with_reducible apply ite_shape
    | with_reducible apply State.takeSlot_shape
    | with_reducible apply State.commit_shape
    | with_reducible apply State.answerSlot_shape
    | with_reducible apply State.updLink_shape
    | with_reducible apply State.failover_shape
    | with_reducible apply State.tryAttempt_shape
    | split
    | dsimp only
    | exact { hS with })

theorem State.linkDownCmd_shape (s : State) (a : BitVec 448) (hS : Shape s) : Shape (State.linkDownCmd s a).2 := by
  unfold State.linkDownCmd
  try dsimp only
  repeat' (first
    | with_reducible assumption
    | (intro x hx; with_reducible exact hx)
    | (intro x hx; exact { hx with })
    | intro _
    | with_reducible apply State.updLink_shape
    | with_reducible apply State.relinquish_shape
    | with_reducible apply State.linkGoesDown_shape
    | split
    | dsimp only
    | exact { hS with })

theorem State.linkKeyCmd_shape (s : State) (a : BitVec 448) (hS : Shape s) : Shape (State.linkKeyCmd s a).2 := by
  unfold State.linkKeyCmd
  try dsimp only
  repeat' (first
    | with_reducible assumption
    | (intro x hx; with_reducible exact hx)
    | (intro x hx; exact { hx with })
    | intro _
    | with_reducible apply ite_shape
    | with_reducible apply State.updLink_shape
    | with_reducible apply State.tryAttempt_shape
    | split
    | dsimp only
    | exact { hS with })

theorem State.partnerRole_shape (s : State) (a : BitVec 448) (hS : Shape s) : Shape (State.partnerRole s a).2 := by
  unfold State.partnerRole
  try dsimp only
  repeat' (first
    | with_reducible assumption
    | (intro x hx; with_reducible exact hx)
    | (intro x hx; exact { hx with })
    | intro _
    | with_reducible apply ite_shape
    | with_reducible apply foldBelow_shape
    | with_reducible apply State.tryPromote_shape
    | with_reducible apply State.relinquish_shape
    | split
    | dsimp only
    | exact { hS with })

theorem State.testLane_shape (s : State) (a : BitVec 448) (hS : Shape s) : Shape (State.testLane s a).2 := by
  unfold State.testLane
  try dsimp only
  repeat' (first
    | with_reducible assumption
    | (intro x hx; with_reducible exact hx)
    | (intro x hx; exact { hx with })
    | intro _
    | with_reducible apply ite_shape
    | with_reducible apply State.updLane_shape
    | with_reducible apply State.settleQuadPower_shape
    | split
    | dsimp only
    | exact { hS with })

theorem State.enterTest_shape (s : State) (m i kind unit : Nat) (found : BitVec 32) (hS : Shape s) : Shape (State.enterTest s m i kind unit found) := by
  unfold State.enterTest
  try dsimp only
  repeat' (first
    | with_reducible assumption
    | (intro x hx; with_reducible exact hx)
    | (intro x hx; exact { hx with })
    | intro _
    | with_reducible apply ite_shape
    | with_reducible apply State.modCamp_shape
    | with_reducible apply State.updRidge_shape
    | with_reducible apply State.updBel_shape
    | with_reducible apply State.fenceBank_shape
    | split
    | dsimp only
    | exact { hS with })

theorem State.leaveTested_shape (s : State) (t : UnitTest) (hS : Shape s) : Shape (State.leaveTested s t) := by
  unfold State.leaveTested
  try dsimp only
  repeat' (first
    | with_reducible assumption
    | (intro x hx; with_reducible exact hx)
    | (intro x hx; exact { hx with })
    | intro _
    | with_reducible apply ite_shape
    | with_reducible apply State.updRidge_shape
    | with_reducible apply State.updBel_shape
    | with_reducible apply State.modCamp_shape
    | with_reducible apply State.noStandby_shape
    | with_reducible apply State.unfenceBank_shape
    | with_reducible apply State.modXl_shape
    | split
    | dsimp only
    | exact { hS with })

theorem State.testStep_shape (s : State) (hS : Shape s) : Shape (State.testStep s) := by
  unfold State.testStep
  try dsimp only
  repeat' (first
    | with_reducible assumption
    | (intro x hx; with_reducible exact hx)
    | (intro x hx; exact { hx with })
    | intro _
    | with_reducible apply ite_shape
    | with_reducible apply State.leaveTested_shape
    | with_reducible apply State.endTest_shape
    | split
    | dsimp only
    | exact { hS with })

theorem State.testUnit_shape (s : State) (m i : Nat) (req : BitVec 512) (found : BitVec 32) (hS : Shape s) : Shape (State.testUnit s m i req found) := by
  unfold State.testUnit
  try dsimp only
  repeat' (first
    | with_reducible assumption
    | (intro x hx; with_reducible exact hx)
    | (intro x hx; exact { hx with })
    | intro _
    | with_reducible apply ite_shape
    | with_reducible apply State.takeSlot_shape
    | with_reducible apply State.commit_shape
    | with_reducible apply State.answerSlot_shape
    | with_reducible apply State.enterTest_shape
    | split
    | dsimp only
    | exact { hS with })

theorem State.unstall_shape (s : State) (hS : Shape s) : Shape (State.unstall s) := by
  unfold State.unstall
  try dsimp only
  repeat' (first
    | with_reducible assumption
    | (intro x hx; with_reducible exact hx)
    | (intro x hx; exact { hx with })
    | intro _
    | with_reducible apply foldBelow_shape
    | with_reducible apply State.updPos_shape
    | split
    | dsimp only
    | exact { hS with })

theorem State.swapRidge_shape (s : State) (r : Nat) (h : Shape s) : Shape (s.swapRidge r).2 := by
  have h := State.unstall_shape _ h
  unfold State.swapRidge
  dsimp only
  split
  · exact h
  · split
    · exact h
    · exact State.reissueWalks_shape _ _ (State.modXl_shape _ (State.updRidge_shape _ _ (State.updRidge_shape _ _ h))
        (fun x hx => { hx with ridgeMap := (updList_length _ x.ridgeMap _).trans hx.ridgeMap }))

theorem State.returnRidge_shape (s : State) (r : Nat) (hS : Shape s) : Shape (State.returnRidge s r).2 := by
  unfold State.returnRidge
  try dsimp only
  repeat' (first
    | with_reducible assumption
    | (intro x hx; with_reducible exact hx)
    | (intro x hx; exact { hx with })
    | intro _
    | with_reducible apply ite_shape
    | with_reducible apply State.updRidge_shape
    | with_reducible apply State.takeover_shape
    | split
    | dsimp only
    | exact { hS with })

theorem State.swapBelay_shape (s : State) (b : Nat) (hS : Shape s) : Shape (State.swapBelay s b).2 := by
  unfold State.swapBelay
  try dsimp only
  repeat' (first
    | with_reducible assumption
    | (intro x hx; with_reducible exact hx)
    | (intro x hx; exact { hx with })
    | intro _
    | with_reducible apply ite_shape
    | with_reducible apply State.isolateBelay_shape
    | with_reducible apply State.updBel_shape
    | split
    | dsimp only
    | exact { hS with })

theorem State.returnBelay_shape (s : State) (b : Nat) (hS : Shape s) : Shape (State.returnBelay s b).2 := by
  unfold State.returnBelay
  try dsimp only
  repeat' (first
    | with_reducible assumption
    | (intro x hx; with_reducible exact hx)
    | (intro x hx; exact { hx with })
    | intro _
    | with_reducible apply ite_shape
    | with_reducible apply State.updBel_shape
    | with_reducible apply State.evalAll_shape
    | split
    | dsimp only
    | exact { hS with })

theorem State.retrain_shape (s : State) (k : Nat) (hS : Shape s) : Shape (State.retrain s k) := by
  unfold State.retrain
  try dsimp only
  repeat' (first
    | with_reducible assumption
    | (intro x hx; with_reducible exact hx)
    | (intro x hx; exact { hx with })
    | intro _
    | with_reducible apply State.relinquish_shape
    | with_reducible apply State.linkGoesDown_shape
    | with_reducible apply State.tryAttempt_shape
    | with_reducible apply State.updLink_shape
    | split
    | dsimp only
    | exact { hS with })

theorem State.swapLane_shape (s : State) (n : Nat) (hS : Shape s) : Shape (State.swapLane s n).2 := by
  unfold State.swapLane
  try dsimp only
  repeat' (first
    | with_reducible assumption
    | (intro x hx; with_reducible exact hx)
    | (intro x hx; exact { hx with })
    | intro _
    | with_reducible apply ite_shape
    | with_reducible apply State.updLane_shape
    | with_reducible apply State.attemptFails_shape
    | with_reducible apply State.tryAttempt_shape
    | with_reducible apply State.retrain_shape
    | with_reducible apply State.updLink_shape
    | split
    | dsimp only
    | exact { hS with })

theorem State.returnLane_shape (s : State) (n : Nat) (hS : Shape s) : Shape (State.returnLane s n).2 := by
  unfold State.returnLane
  try dsimp only
  repeat' (first
    | with_reducible assumption
    | (intro x hx; with_reducible exact hx)
    | (intro x hx; exact { hx with })
    | intro _
    | with_reducible apply ite_shape
    | with_reducible apply State.updLane_shape
    | with_reducible apply State.retrain_shape
    | split
    | dsimp only
    | exact { hS with })

theorem State.swapBank_shape (s : State) (b : Nat) (back : Bool) (hS : Shape s) : Shape (State.swapBank s b back).2 := by
  unfold State.swapBank
  try dsimp only
  repeat' (first
    | with_reducible assumption
    | (intro x hx; with_reducible exact hx)
    | (intro x hx; exact { hx with })
    | intro _
    | with_reducible apply ite_shape
    | with_reducible apply State.unfenceBank_shape
    | with_reducible apply State.fenceBank_shape
    | with_reducible apply State.modXl_shape
    | split
    | dsimp only
    | exact { hS with })

end Sys2Proof.Machine
end

