-- ==== Sys2Proof/Laws/ShapeSys.lean ====
section
/-! SUPPORT. The shape of the state is kept by every function on it: from State.swapCamp_shape in the order of the model's files. -/

namespace Sys2Proof.Machine

theorem State.swapCamp_shape (s : State) (b : Bool) (hS : Shape s) : Shape (State.swapCamp s b).2 := by
  unfold State.swapCamp
  try dsimp only
  repeat' (first
    | with_reducible assumption
    | (intro x hx; with_reducible exact hx)
    | (intro x hx; exact { hx with })
    | intro _
    | with_reducible apply ite_shape
    | with_reducible apply State.handRole_shape
    | split
    | dsimp only
    | exact { hS with })

theorem State.sliceSwap_shape (s : State) (a : BitVec 448) (hS : Shape s) : Shape (State.sliceSwap s a).2 := by
  unfold State.sliceSwap
  try dsimp only
  repeat' (first
    | with_reducible assumption
    | (intro x hx; with_reducible exact hx)
    | (intro x hx; exact { hx with })
    | intro _
    | with_reducible apply ite_shape
    | with_reducible apply State.returnRidge_shape
    | with_reducible apply State.swapRidge_shape
    | with_reducible apply State.returnBelay_shape
    | with_reducible apply State.swapBelay_shape
    | with_reducible apply State.returnLane_shape
    | with_reducible apply State.swapLane_shape
    | with_reducible apply State.swapCamp_shape
    | with_reducible apply State.swapBank_shape
    | split
    | dsimp only
    | exact { hS with })

theorem State.setCairn_shape (s : State) (i : Nat) (c : CairnRec) (h : Shape s) : Shape (s.setCairn i c) :=
  State.modCairn_shape _ h (fun _ hx => { hx with recs := Tbl.wf_set _ _ _ _ hx.recs })

theorem State.noteSevere_shape (s : State) (i : Nat) (r : Report) (reached created : Bool) (hS : Shape s) : Shape (State.noteSevere s i r reached created) := by
  unfold State.noteSevere
  try dsimp only
  repeat' (first
    | with_reducible assumption
    | (intro x hx; with_reducible exact hx)
    | (intro x hx; exact { hx with })
    | intro _
    | with_reducible apply ite_shape
    | with_reducible apply State.modCairn_shape
    | split
    | dsimp only
    | exact { hS with })

theorem State.notifyOne_shape (s : State) (n : Notify) (sev : BitVec 2) (hS : Shape s) : Shape (State.notifyOne s n sev) := by
  unfold State.notifyOne
  try dsimp only
  repeat' (first
    | with_reducible assumption
    | (intro x hx; with_reducible exact hx)
    | (intro x hx; exact { hx with })
    | intro _
    | with_reducible apply ite_shape
    | with_reducible apply State.sgiOccur_shape
    | split
    | dsimp only
    | exact { hS with })

theorem State.createCairn_shape (s : State) (r : Report) (hS : Shape s) : Shape (State.createCairn s r) := by
  unfold State.createCairn
  try dsimp only
  repeat' (first
    | with_reducible assumption
    | (intro x hx; with_reducible exact hx)
    | (intro x hx; exact { hx with })
    | intro _
    | with_reducible apply State.modCairn_shape
    | with_reducible apply State.setCairn_shape
    | with_reducible apply State.noteSevere_shape
    | with_reducible apply State.notifyOne_shape
    | split
    | dsimp only
    | exact { hS with })

theorem State.mergeCairn_shape (s : State) (i : Nat) (r : Report) (hS : Shape s) : Shape (State.mergeCairn s i r) := by
  unfold State.mergeCairn
  try dsimp only
  repeat' (first
    | with_reducible assumption
    | (intro x hx; with_reducible exact hx)
    | (intro x hx; exact { hx with })
    | intro _
    | with_reducible apply ite_shape
    | with_reducible apply State.setCairn_shape
    | with_reducible apply State.modCairn_shape
    | with_reducible apply State.noteSevere_shape
    | split
    | dsimp only
    | exact { hS with })

theorem State.drainReport_shape (s : State) (h : Shape s) : Shape s.drainReport := by
  unfold State.drainReport
  split
  · exact State.releaseHeld_shape _ h
  · rename_i r rest hq
    have h1 : Shape (s.modCairn (fun c => { c with queue := rest })) :=
      { h with cairn := { h.cairn with queue := by have := h.cairn.queue; rw [hq] at this; exact Nat.le_of_succ_le this } }
    dsimp only
    split
    · exact State.releaseHeld_shape _ (State.mergeCairn_shape _ _ _ h1)
    · exact State.releaseHeld_shape _ (State.createCairn_shape _ _ h1)

theorem State.ackCairn_shape (s : State) (i : Nat) (hS : Shape s) : Shape (State.ackCairn s i) := by
  unfold State.ackCairn
  try dsimp only
  repeat' (first
    | with_reducible assumption
    | (intro x hx; with_reducible exact hx)
    | (intro x hx; exact { hx with })
    | intro _
    | with_reducible apply ite_shape
    | with_reducible apply State.setCairn_shape
    | split
    | dsimp only
    | exact { hS with })

theorem State.stopHeart_shape (s : State) (cause : BitVec 4) (hS : Shape s) : Shape (State.stopHeart s cause) := by
  unfold State.stopHeart
  try dsimp only
  repeat' (first
    | with_reducible assumption
    | (intro x hx; with_reducible exact hx)
    | (intro x hx; exact { hx with })
    | intro _
    | with_reducible apply ite_shape
    | with_reducible apply foldBelow_shape
    | with_reducible apply State.modRope_shape
    | with_reducible apply State.linkGoesDown_shape
    | with_reducible apply State.attemptFails_shape
    | with_reducible apply State.updLane_shape
    | split
    | dsimp only
    | exact { hS with })

theorem State.isolateWrite_shape (s : State) (data : Word) (hS : Shape s) : Shape (State.isolateWrite s data) := by
  unfold State.isolateWrite
  try dsimp only
  repeat' (first
    | with_reducible assumption
    | (intro x hx; with_reducible exact hx)
    | (intro x hx; exact { hx with })
    | intro _
    | with_reducible apply ite_shape
    | with_reducible apply State.isolateBelay_shape
    | with_reducible apply State.isolateRidge_shape
    | split
    | dsimp only
    | exact { hS with })

theorem State.pulseWrite_shape (s : State) (data : Word) (seen : Bool) (hS : Shape s) : Shape (State.pulseWrite s data seen) := by
  unfold State.pulseWrite
  try dsimp only
  repeat' (first
    | with_reducible assumption
    | (intro x hx; with_reducible exact hx)
    | (intro x hx; exact { hx with })
    | intro _
    | with_reducible apply ite_shape
    | with_reducible apply State.modRope_shape
    | split
    | dsimp only
    | exact { hS with })

theorem State.pulseEnd_shape (s : State) (hS : Shape s) : Shape (State.pulseEnd s) := by
  unfold State.pulseEnd
  try dsimp only
  repeat' (first
    | with_reducible assumption
    | (intro x hx; with_reducible exact hx)
    | (intro x hx; exact { hx with })
    | intro _
    | with_reducible apply ite_shape
    | with_reducible apply State.modRope_shape
    | split
    | dsimp only
    | exact { hS with })

theorem State.noteBankEcc_shape (s : State) (b : Nat) (hS : Shape s) : Shape (State.noteBankEcc s b) := by
  unfold State.noteBankEcc
  try dsimp only
  repeat' (first
    | with_reducible assumption
    | (intro x hx; with_reducible exact hx)
    | (intro x hx; exact { hx with })
    | intro _
    | with_reducible apply State.modXl_shape
    | split
    | dsimp only
    | exact { hS with })

theorem State.fenceByTamri_shape (s : State) (b : Nat) (hS : Shape s) : Shape (State.fenceByTamri s b).2 := by
  unfold State.fenceByTamri
  try dsimp only
  repeat' (first
    | with_reducible assumption
    | (intro x hx; with_reducible exact hx)
    | (intro x hx; exact { hx with })
    | intro _
    | with_reducible apply ite_shape
    | with_reducible apply State.fenceBank_shape
    | with_reducible apply State.modXl_shape
    | split
    | dsimp only
    | exact { hS with })

theorem State.scrubPass_shape (s : State) (region index : Nat) (h : Shape s) : Shape (s.scrubPass region index) := by
  refine State.modXl_shape _ h (fun x hx => ?_)
  dsimp only
  split <;> exact { hx with }

theorem State.eccCorrected_shape (s : State) (region : Nat) (index : Nat) (hS : Shape s) : Shape (State.eccCorrected s region index) := by
  unfold State.eccCorrected
  try dsimp only
  repeat' (first
    | with_reducible assumption
    | (intro x hx; with_reducible exact hx)
    | (intro x hx; exact { hx with })
    | intro _
    | with_reducible apply ite_shape
    | with_reducible apply State.modXl_shape
    | with_reducible apply State.report_shape
    | with_reducible apply State.noteBankEcc_shape
    | with_reducible apply State.fenceByTamri_shape
    | split
    | dsimp only
    | exact { hS with })

theorem State.dropWay_shape (s : State) (set way : Nat) (hS : Shape s) : Shape (State.dropWay s set way) := by
  unfold State.dropWay
  try dsimp only
  repeat' (first
    | with_reducible assumption
    | (intro x hx; with_reducible exact hx)
    | (intro x hx; exact { hx with })
    | intro _
    | with_reducible apply State.modXl_shape
    | split
    | dsimp only
    | exact { hS with })

theorem State.dropDevWay_shape (s : State) (set way : Nat) (hS : Shape s) : Shape (State.dropDevWay s set way) := by
  unfold State.dropDevWay
  try dsimp only
  repeat' (first
    | with_reducible assumption
    | (intro x hx; with_reducible exact hx)
    | (intro x hx; exact { hx with })
    | intro _
    | with_reducible apply ite_shape
    | with_reducible apply State.modXl_shape
    | split
    | dsimp only
    | exact { hS with })

theorem State.zeroPrivWord_shape (s : State) (t w : Nat) (h : Shape s) : Shape (s.zeroPrivWord t w) := by
  have ho : ∀ a b, Shape (foldBelow b (fun i s => s.setEn (8192 + 64 * t + a + i) false) s) :=
    fun a b => foldBelow_shape h (fun _ _ h => State.setEn_shape _ _ _ h)
  unfold State.zeroPrivWord
  dsimp only
  repeat' (with_reducible apply ite_shape)
  · exact State.eachBit_shape _ _ _ _ _ (fun _ _ _ h => State.setEn_shape _ _ _ h) h
  · exact State.eachBit_shape _ _ _ _ _ (fun _ _ _ h => State.updSrc_shape _ _ h) h
  · exact foldBelow_shape (ho 0 48) (fun _ _ h => State.updSrc_shape _ _ h)
  · exact foldBelow_shape (ho 0 48) (fun _ _ h => State.updSrc_shape _ _ h)
  · exact State.cfgApply_shape _ _ _ _ h
  · exact State.cfgApply_shape _ _ _ _ (ho 0 32)
  · exact State.cfgApply_shape _ _ _ _ (ho 32 16)
  · exact State.cfgApply_shape _ _ _ _ (ho 16 32)
  · refine State.modWired_shape _ (ho 16 32) (fun x hx => ?_)
    refine { src := hx.src, bank := ?_ }
    dsimp only
    exact Tbl.wf_set _ _ _ _ hx.bank
  · exact State.cfgApply_shape _ _ _ _ (ho 0 32)
  · exact State.cfgApply_shape _ _ _ _ (ho 32 16)
  · exact h

theorem State.configLost_shape (s : State) (n : Nat) (hS : Shape s) : Shape (State.configLost s n) := by
  unfold State.configLost
  try dsimp only
  repeat' (first
    | with_reducible assumption
    | (intro x hx; with_reducible exact hx)
    | (intro x hx; exact { hx with })
    | intro _
    | with_reducible apply State.modRope_shape
    | with_reducible apply State.updSrc_shape
    | split
    | dsimp only
    | exact { hS with })

theorem State.rebuildInst_shape (s : State) (t n : Nat) (hS : Shape s) : Shape (State.rebuildInst s t n) := by
  unfold State.rebuildInst
  try dsimp only
  repeat' (first
    | with_reducible assumption
    | (intro x hx; with_reducible exact hx)
    | (intro x hx; exact { hx with })
    | intro _
    | with_reducible apply State.updInst_shape
    | split
    | dsimp only
    | exact { hS with })

theorem State.pinnedLost_shape (s : State) (i : Nat) (hS : Shape s) : Shape (State.pinnedLost s i) := by
  unfold State.pinnedLost
  try dsimp only
  repeat' (first
    | with_reducible assumption
    | (intro x hx; with_reducible exact hx)
    | (intro x hx; exact { hx with })
    | intro _
    | with_reducible apply ite_shape
    | with_reducible apply State.modXl_shape
    | split
    | dsimp only
    | exact { hS with })

theorem State.mapLost_shape (s : State) (v : Nat) (hS : Shape s) : Shape (State.mapLost s v) := by
  unfold State.mapLost
  try dsimp only
  repeat' (first
    | with_reducible assumption
    | (intro x hx; with_reducible exact hx)
    | (intro x hx; exact { hx with })
    | intro _
    | with_reducible apply ite_shape
    | with_reducible apply State.modXl_shape
    | with_reducible apply State.degrade_shape
    | split
    | dsimp only
    | exact { hS with })

theorem State.contextLost_shape (s : State) (c : Nat) (hS : Shape s) : Shape (State.contextLost s c) := by
  unfold State.contextLost
  try dsimp only
  repeat' (first
    | with_reducible assumption
    | (intro x hx; with_reducible exact hx)
    | (intro x hx; exact { hx with })
    | intro _
    | with_reducible apply ite_shape
    | with_reducible apply State.updFrame_shape
    | with_reducible apply State.degrade_shape
    | with_reducible apply State.evalAll_shape
    | split
    | dsimp only
    | exact { hS with })

theorem State.descLost_shape (s : State) (i : Nat) (h : Shape s) : Shape (s.descLost i) := by
  unfold State.descLost
  split
  · exact h
  · refine State.modXl_shape _ (State.modAcc_shape _ h (fun x hx => ?_)) (fun _ hx => { hx with })
    refine { slot := ?_, recs := hx.recs, snap := hx.snap }
    dsimp only
    exact Tbl.wf_upd _ _ _ _ hx.slot

theorem State.replayLost_shape (s : State) (k n : Nat) (hS : Shape s) : Shape (State.replayLost s k n) := by
  unfold State.replayLost
  try dsimp only
  repeat' (first
    | with_reducible assumption
    | (intro x hx; with_reducible exact hx)
    | (intro x hx; exact { hx with })
    | intro _
    | with_reducible apply ite_shape
    | with_reducible apply State.linkGoesDown_shape
    | split
    | dsimp only
    | exact { hS with })

theorem State.retainedLost_shape (s : State) (n : Nat) (hS : Shape s) : Shape (State.retainedLost s n) := by
  unfold State.retainedLost
  try dsimp only
  repeat' (first
    | with_reducible assumption
    | (intro x hx; with_reducible exact hx)
    | (intro x hx; exact { hx with })
    | intro _
    | with_reducible apply State.modMem_shape
    | with_reducible apply State.memFailed_shape
    | split
    | dsimp only
    | exact { hS with })

theorem State.campMemLost_shape (s : State) (b : Bool) (hS : Shape s) : Shape (State.campMemLost s b) := by
  unfold State.campMemLost
  try dsimp only
  repeat' (first
    | with_reducible assumption
    | (intro x hx; with_reducible exact hx)
    | (intro x hx; exact { hx with })
    | intro _
    | with_reducible apply ite_shape
    | with_reducible apply State.activeFails_shape
    | with_reducible apply State.standbyFails_shape
    | with_reducible apply State.pumpAll_shape
    | split
    | dsimp only
    | exact { hS with })

theorem State.eccLost_shape (s : State) (region index : Nat) (both : Bool) (hS : Shape s) : Shape (State.eccLost s region index both) := by
  unfold State.eccLost
  try dsimp only
  repeat' (first
    | with_reducible assumption
    | (intro x hx; with_reducible exact hx)
    | (intro x hx; exact { hx with })
    | intro _
    | with_reducible apply ite_shape
    | with_reducible apply State.report_shape
    | with_reducible apply State.degrade_shape
    | with_reducible apply State.configLost_shape
    | with_reducible apply State.zeroPrivWord_shape
    | with_reducible apply State.fenceByTamri_shape
    | with_reducible apply State.dropWay_shape
    | with_reducible apply State.pinnedLost_shape
    | with_reducible apply State.dropDevWay_shape
    | with_reducible apply State.rebuildInst_shape
    | with_reducible apply State.mapLost_shape
    | with_reducible apply State.contextLost_shape
    | with_reducible apply State.isolateBelay_shape
    | with_reducible apply State.campMemLost_shape
    | with_reducible apply State.updLog_shape
    | with_reducible apply State.descLost_shape
    | with_reducible apply State.setCairn_shape
    | with_reducible apply State.replayLost_shape
    | with_reducible apply State.retainedLost_shape
    | split
    | dsimp only
    | exact { hS with })

theorem State.chargeScrub_shape (s : State) (region index : Nat) (hS : Shape s) : Shape (State.chargeScrub s region index) := by
  unfold State.chargeScrub
  try dsimp only
  repeat' (first
    | with_reducible assumption
    | (intro x hx; with_reducible exact hx)
    | (intro x hx; exact { hx with })
    | intro _
    | with_reducible apply ite_shape
    | with_reducible apply State.charge_shape
    | split
    | dsimp only
    | exact { hS with })

theorem State.writeWake_shape (s : State) (size : Nat) (h : Shape s) : Shape (s.writeWake size) :=
  foldFrom_shape (State.modPwr_shape _ h) (fun _ _ h => State.memIssue_shape _ _ _ _ _ _ h)

theorem State.coldReset_shape (s : State) (_h : Shape s) : Shape s.coldReset := by
  have h1 : Tbl.wf Source.reset s.linesOnly = true :=
    foldList_set_wf Source.reset s.wired.src (fun p => p.1) (fun p => { Source.reset with line := p.2.line }) [] rfl
  have h2 : Tbl.wf Target.reset s.presentOnly = true :=
    foldList_set_wf Target.reset s.tgt (fun p => p.1) (fun p => { Target.reset with present := p.2.present }) [] rfl
  have h3 : Tbl.wf PassPort.reset s.passPins = true :=
    foldList_set_wf PassPort.reset s.pass (fun p => p.1) _ [] rfl
  have h4 : Tbl.wf Quad.reset s.quadPins = true := foldList_set_wf Quad.reset s.quads (fun p => p.1) _ [] rfl
  have h0 : Shape State.reset := by
    constructor <;> first
      | decide
      | (constructor <;> decide)
  exact { h0 with wired := { src := h1, bank := rfl }, tgt := h2, pass := h3, quads := h4 }

theorem State.bootRead_shape (s : State) (hS : Shape s) : Shape (State.bootRead s) := by
  unfold State.bootRead
  try dsimp only
  repeat' (first
    | with_reducible assumption
    | (intro x hx; with_reducible exact hx)
    | (intro x hx; exact { hx with })
    | intro _
    | with_reducible apply State.memEnter_shape
    | split
    | dsimp only
    | exact { hS with })

theorem State.bootReads_shape (s : State) (n : Nat) (hS : Shape s) : Shape (State.bootReads s n) := by
  unfold State.bootReads
  try dsimp only
  repeat' (first
    | with_reducible assumption
    | (intro x hx; with_reducible exact hx)
    | (intro x hx; exact { hx with })
    | intro _
    | with_reducible apply State.modMem_shape
    | with_reducible apply State.modRat_shape
    | split
    | dsimp only
    | exact { hS with })

theorem State.ownRekey_shape (s : State) (hS : Shape s) : Shape (State.ownRekey s) := by
  unfold State.ownRekey
  try dsimp only
  repeat' (first
    | with_reducible assumption
    | (intro x hx; with_reducible exact hx)
    | (intro x hx; exact { hx with })
    | intro _
    | with_reducible apply ite_shape
    | with_reducible apply State.modCamp_shape
    | with_reducible apply State.rekeyNow_shape
    | split
    | dsimp only
    | exact { hS with })

theorem State.bootFails_shape (s : State) (step : Nat) (hS : Shape s) : Shape (State.bootFails s step) := by
  unfold State.bootFails
  try dsimp only
  repeat' (first
    | with_reducible assumption
    | (intro x hx; with_reducible exact hx)
    | (intro x hx; exact { hx with })
    | intro _
    | with_reducible apply State.report_shape
    | with_reducible apply State.modBoot_shape
    | with_reducible apply State.openMailboxes_shape
    | split
    | dsimp only
    | exact { hS with })

theorem State.saveCheck_shape (s : State) (h w : BitVec 512) (hS : Shape s) : Shape (State.saveCheck s h w) := by
  unfold State.saveCheck
  try dsimp only
  repeat' (first
    | with_reducible assumption
    | (intro x hx; with_reducible exact hx)
    | (intro x hx; exact { hx with })
    | intro _
    | with_reducible apply ite_shape
    | with_reducible apply State.report_shape
    | split
    | dsimp only
    | exact { hS with })

theorem State.arm_shape (s : State) (seq : BitVec 32) (hS : Shape s) : Shape (State.arm s seq) := by
  unfold State.arm
  try dsimp only
  repeat' (first
    | with_reducible assumption
    | (intro x hx; with_reducible exact hx)
    | (intro x hx; exact { hx with })
    | intro _
    | with_reducible apply State.modPwr_shape
    | with_reducible apply State.writeHeader_shape
    | split
    | dsimp only
    | exact { hS with })

theorem State.placeTables_shape (s : State) (d : BitVec 512) (i : Image) (hS : Shape s) : Shape (State.placeTables s d i) := by
  unfold State.placeTables
  try dsimp only
  repeat' (first
    | with_reducible assumption
    | (intro x hx; with_reducible exact hx)
    | (intro x hx; exact { hx with })
    | intro _
    | with_reducible apply ite_shape
    | with_reducible apply State.drawAlloc_shape
    | with_reducible apply State.modBoot_shape
    | split
    | dsimp only
    | exact { hS with })

theorem State.bootSucceeds_shape (s : State) (d : BitVec 512) (i : Image) (memKHz : BitVec 32) (h w : BitVec 512) (hS : Shape s) : Shape (State.bootSucceeds s d i memKHz h w) := by
  unfold State.bootSucceeds
  try dsimp only
  repeat' (first
    | with_reducible assumption
    | (intro x hx; with_reducible exact hx)
    | (intro x hx; exact { hx with })
    | intro _
    | with_reducible apply ite_shape
    | with_reducible apply foldBelow_shape
    | with_reducible apply State.placeTables_shape
    | with_reducible apply State.bootReads_shape
    | with_reducible apply State.modCamp_shape
    | with_reducible apply State.modRat_shape
    | with_reducible apply State.modClk_shape
    | with_reducible apply State.openMailboxes_shape
    | with_reducible apply State.passRise_shape
    | with_reducible apply State.saveCheck_shape
    | with_reducible apply State.arm_shape
    | with_reducible apply State.ownRekey_shape
    | split
    | dsimp only
    | exact { hS with })

theorem State.entropyCairn_shape (s : State) (detail : Nat) (hS : Shape s) : Shape (State.entropyCairn s detail) := by
  unfold State.entropyCairn
  try dsimp only
  repeat' (first
    | with_reducible assumption
    | (intro x hx; with_reducible exact hx)
    | (intro x hx; exact { hx with })
    | intro _
    | with_reducible apply State.modCamp_shape
    | with_reducible apply State.report_shape
    | split
    | dsimp only
    | exact { hS with })

theorem State.drainWrites_shape (s : State) (hS : Shape s) : Shape (State.drainWrites s) := by
  unfold State.drainWrites
  try dsimp only
  repeat' (first
    | with_reducible assumption
    | (intro x hx; with_reducible exact hx)
    | (intro x hx; exact { hx with })
    | intro _
    | with_reducible apply ite_shape
    | with_reducible apply foldBelow_shape
    | with_reducible apply State.contest_shape
    | split
    | dsimp only
    | exact { hS with })

theorem State.warmDrain_shape (s : State) (held : State → State) (hh : ∀ s, Shape s → Shape (held s)) (h : Shape s) : Shape (s.warmDrain held) :=
  State.answerWrites_shape (State.modCp_shape _ (hh _ (State.drainWrites_shape _ h)))

theorem State.answerOwed_shape (s : State) (hS : Shape s) : Shape (State.answerOwed s) := by
  unfold State.answerOwed
  try dsimp only
  repeat' (first
    | with_reducible assumption
    | (intro x hx; with_reducible exact hx)
    | (intro x hx; exact { hx with })
    | intro _
    | with_reducible apply foldList_shape
    | with_reducible apply foldBelow_shape
    | with_reducible apply State.answerWaiters_shape
    | with_reducible apply State.answerQuad_shape
    | with_reducible apply State.answerUp_shape
    | with_reducible apply State.updLink_shape
    | with_reducible apply State.dropSaveLines_shape
    | with_reducible apply State.modPwr_shape
    | split
    | dsimp only
    | exact { hS with })

theorem State.abandonTest_shape (s : State) (hS : Shape s) : Shape (State.abandonTest s) := by
  unfold State.abandonTest
  try dsimp only
  repeat' (first
    | with_reducible assumption
    | (intro x hx; with_reducible exact hx)
    | (intro x hx; exact { hx with })
    | intro _
    | with_reducible apply ite_shape
    | with_reducible apply State.modCamp_shape
    | with_reducible apply State.leaveTest_shape
    | split
    | dsimp only
    | exact { hS with })

theorem State.warmMailboxes_shape (s : State) (hS : Shape s) : Shape (State.warmMailboxes s) := by
  unfold State.warmMailboxes
  try dsimp only
  repeat' (first
    | with_reducible assumption
    | (intro x hx; with_reducible exact hx)
    | (intro x hx; exact { hx with })
    | with_reducible exact Rations.warm_shape
    | intro _
    | with_reducible apply foldBelow_shape
    | with_reducible apply State.modXl_shape
    | with_reducible apply State.unstall_shape
    | with_reducible apply State.abandonTest_shape
    | with_reducible apply State.updMbx_shape
    | with_reducible apply State.modCamp_shape
    | split
    | dsimp only
    | exact { hS with })

theorem State.warmLogic_shape (s : State) (hS : Shape s) : Shape (State.warmLogic s) := by
  unfold State.warmLogic
  try dsimp only
  repeat' (first
    | with_reducible assumption
    | (intro x hx; with_reducible exact hx)
    | (intro x hx; exact { hx with })
    | with_reducible exact Rations.warm_shape
    | intro _
    | with_reducible apply foldBelow_shape
    | with_reducible apply State.updLane_shape
    | with_reducible apply State.settleQuadPower_shape
    | with_reducible apply State.updLink_shape
    | with_reducible apply State.modArb_shape
    | split
    | dsimp only
    | exact { hS with })

theorem State.replayLandings_shape (s : State) (hS : Shape s) : Shape (State.replayLandings s) := by
  unfold State.replayLandings
  try dsimp only
  repeat' (first
    | with_reducible assumption
    | (intro x hx; with_reducible exact hx)
    | (intro x hx; exact { hx with })
    | intro _
    | with_reducible apply ite_shape
    | with_reducible apply foldBelow_shape
    | with_reducible apply State.updBel_shape
    | with_reducible apply State.degrade_shape
    | split
    | dsimp only
    | exact { hS with })

theorem State.restartCamp_shape (s : State) (hS : Shape s) : Shape (State.restartCamp s) := by
  unfold State.restartCamp
  try dsimp only
  repeat' (first
    | with_reducible assumption
    | (intro x hx; with_reducible exact hx)
    | (intro x hx; exact { hx with })
    | intro _
    | with_reducible apply ite_shape
    | with_reducible apply State.modCamp_shape
    | with_reducible apply State.modRope_shape
    | with_reducible apply State.openMailboxes_shape
    | split
    | dsimp only
    | exact { hS with })

theorem Tbl.wfFrom_map_filter {α : Type} [DecidableEq α] (d : α) (g : α → α) (t : Tbl α) (lo : Option Nat) (h : Tbl.wfFrom d lo t = true) :
    Tbl.wfFrom d lo ((t.map (fun q => (q.1, g q.2))).filter (fun q => decide (q.2 ≠ d))) = true := by
  induction t generalizing lo with
  | nil => rfl
  | cons a rest ih =>
    obtain ⟨k, v⟩ := a
    simp only [Tbl.wfFrom, Bool.and_eq_true, decide_eq_true_eq] at h
    have hr := ih (some k) h.2
    by_cases hp : g v = d
    · simp only [List.map, List.filter, hp, ne_eq, not_true_eq_false, decide_false]
      refine Tbl.wfFrom_weaken d _ lo hr ?_
      intro l hl
      subst hl
      exact Or.inl (by simpa using h.1.1)
    · simp only [List.map, List.filter, hp, ne_eq, not_false_eq_true, decide_true, Tbl.wfFrom, Bool.and_eq_true]
      exact ⟨⟨h.1.1, trivial⟩, hr⟩

theorem Rations.warm_shape (r : Rations) (h : RationShape r) : RationShape r.warm :=
  { quota := Tbl.wfFrom_map_filter Quota.reset Quota.warm r.quota none h.quota, exhausted := h.exhausted }

theorem State.warmEnd_shape (s : State) (hS : Shape s) : Shape (State.warmEnd s) := by
  unfold State.warmEnd
  try dsimp only
  repeat' (first
    | with_reducible assumption
    | (intro x hx; with_reducible exact hx)
    | (intro x hx; exact { hx with })
    | with_reducible exact Rations.warm_shape
    | intro _
    | with_reducible apply foldBelow_shape
    | with_reducible apply State.modPwr_shape
    | with_reducible apply State.modBoot_shape
    | with_reducible apply State.replayPos_shape
    | with_reducible apply State.replayLandings_shape
    | with_reducible apply State.restartCamp_shape
    | with_reducible apply State.modRat_shape
    | with_reducible apply State.modRope_shape
    | with_reducible apply State.sampleLines_shape
    | with_reducible apply State.passRise_shape
    | with_reducible apply State.pumpAll_shape
    | with_reducible apply State.evalAll_shape
    | split
    | dsimp only
    | exact { hS with })

/-- A warm reset up to the drain: its cause, the heartbeat, the pairs given up. -/
theorem State.warmReset_shape (s : State) (cause : BitVec 2) (held : State → State) (hh : ∀ s, Shape s → Shape (held s)) (h : Shape s) :
    Shape (s.warmReset cause held) := by
  have hd : ∀ (s : State), Shape s → Shape (if s.clk.fail != 0 then s.modCp (fun c => { c with wbuf := [], held := [] }) else s.warmDrain held) :=
    fun s h => ite_shape (State.modCp_shape _ h) (State.warmDrain_shape _ _ hh h)
  unfold State.warmReset
  split
  · exact h
  · dsimp only
    have h1 := foldBelow_shape (n := 16) (State.stopHeart_shape _ 8 (State.modPwr_shape (fun p =>
      { p with resetCause := if s.clk.fail != 0 then 3 else cause, warmResets := satInc p.warmResets }) h)) (fun p _ h => State.relinquish_shape _ p h)
    repeat' (first
      | with_reducible apply ite_shape
      | with_reducible apply State.modPwr_shape
      | with_reducible apply State.warmEnd_shape
      | with_reducible apply State.modMem_shape
      | with_reducible apply State.warmLogic_shape
      | with_reducible apply foldBelow_shape
      | with_reducible apply State.warmMailboxes_shape
      | with_reducible apply State.answerOwed_shape
      | with_reducible apply State.abandonWake_shape
      | with_reducible apply State.modCp_shape
      | with_reducible apply State.warmDrain_shape _ _ hh
      | with_reducible apply State.stopHeart_shape
      | with_reducible exact h
      | (intro n s h; with_reducible exact State.updPass_shape _ _ h)
      | (intro n s h; with_reducible exact State.relinquish_shape _ _ h)
      | (refine State.modAcc_shape _ ?_ (fun _ hx => { slot := hx.slot, recs := hx.recs, snap := rfl })))

theorem State.warmKey_shape (s : State) (ring : BitVec 2) (data : Word) (held : State → State) (hh : ∀ s, Shape s → Shape (held s)) (h : Shape s) :
    Shape (s.warmKey ring data held) := ite_shape (State.warmReset_shape _ _ _ hh h) h

theorem State.tryPark_shape (s : State) (hS : Shape s) : Shape (State.tryPark s) := by
  unfold State.tryPark
  try dsimp only
  repeat' (first
    | with_reducible assumption
    | (intro x hx; with_reducible exact hx)
    | (intro x hx; exact { hx with })
    | intro _
    | with_reducible apply ite_shape
    | with_reducible apply foldBelow_shape
    | with_reducible apply State.modPwr_shape
    | with_reducible apply State.updLink_shape
    | split
    | dsimp only
    | exact { hS with })

theorem State.parkWrite_shape (s : State) (ring : BitVec 2) (data : Word) (hS : Shape s) : Shape (State.parkWrite s ring data) := by
  unfold State.parkWrite
  try dsimp only
  repeat' (first
    | with_reducible assumption
    | (intro x hx; with_reducible exact hx)
    | (intro x hx; exact { hx with })
    | intro _
    | with_reducible apply ite_shape
    | with_reducible apply foldBelow_shape
    | with_reducible apply State.ring_shape
    | with_reducible apply State.modPwr_shape
    | with_reducible apply State.updPass_shape
    | with_reducible apply State.tryPark_shape
    | split
    | dsimp only
    | exact { hS with })

theorem State.parkFails_shape (s : State) (cause : BitVec 3) (hS : Shape s) : Shape (State.parkFails s cause) := by
  unfold State.parkFails
  try dsimp only
  repeat' (first
    | with_reducible assumption
    | (intro x hx; with_reducible exact hx)
    | (intro x hx; exact { hx with })
    | intro _
    | with_reducible apply ite_shape
    | with_reducible apply foldBelow_shape
    | with_reducible apply State.modPwr_shape
    | with_reducible apply State.passRise_shape
    | split
    | dsimp only
    | exact { hS with })

theorem State.saveDecision_shape (s : State) (on : Bool) (hS : Shape s) : Shape (State.saveDecision s on) := by
  unfold State.saveDecision
  try dsimp only
  repeat' (first
    | with_reducible assumption
    | (intro x hx; with_reducible exact hx)
    | (intro x hx; exact { hx with })
    | intro _
    | with_reducible apply ite_shape
    | with_reducible apply State.modPwr_shape
    | with_reducible apply State.writeWake_shape
    | with_reducible apply State.sendWords_shape
    | split
    | dsimp only
    | exact { hS with })

theorem State.rearm_shape (s : State) (hS : Shape s) : Shape (State.rearm s) := by
  unfold State.rearm
  try dsimp only
  repeat' (first
    | with_reducible assumption
    | (intro x hx; with_reducible exact hx)
    | (intro x hx; exact { hx with })
    | intro _
    | with_reducible apply ite_shape
    | with_reducible apply State.arm_shape
    | split
    | dsimp only
    | exact { hS with })

theorem State.saveNow_shape (s : State) (m : Nat) (hS : Shape s) : Shape (State.saveNow s m) := by
  unfold State.saveNow
  try dsimp only
  repeat' (first
    | with_reducible assumption
    | (intro x hx; with_reducible exact hx)
    | (intro x hx; exact { hx with })
    | intro _
    | with_reducible apply ite_shape
    | with_reducible apply State.command_shape
    | with_reducible apply State.takeSlot_shape
    | with_reducible apply State.commit_shape
    | with_reducible apply State.sendWords_shape
    | with_reducible apply State.answerSlot_shape
    | with_reducible apply State.modPwr_shape
    | with_reducible apply State.failover_shape
    | with_reducible apply State.writeWake_shape
    | split
    | dsimp only
    | exact { hS with })

theorem State.violate_shape (s : State) (a : Access) (write : Bool) (cause : Nat) (h : Shape s) : Shape (s.violate a write cause) := by
  unfold State.violate
  dsimp only
  refine State.report_shape _ _ _ _ _ _ _ (State.modAcc_shape _ h (fun x hx => ?_))
  exact { slot := hx.slot, recs := Tbl.wf_set _ _ _ _ hx.recs, snap := hx.snap }

theorem State.frontEnd_shape (s : State) (a : Access) (write : Bool) (serve : State → State) (hf : ∀ s, Shape s → Shape (serve s)) (h : Shape s) :
    Shape (s.frontEnd a write serve) := by
  unfold State.frontEnd
  dsimp only
  split
  · exact h
  · split
    · exact h
    · split
      · exact State.respond_shape _ _ _ _ h
      · have h2 : Shape (if rescueFrame (accFrame a) then s else s.unpark) := by
          split
          · exact h
          · exact State.unpark_shape _ h
        split
        · exact ite_shape (State.refuseWrite_shape _ _ _ (State.violate_shape _ _ _ _ h2)) (State.respond_shape _ _ _ _ (State.violate_shape _ _ _ _ h2))
        · exact hf _ h2

theorem State.setSnap_shape (s : State) (f : Nat) (v : BitVec 32) (h : Shape s) : Shape (s.setSnap f v) :=
  State.modAcc_shape _ h (fun _ hx => { hx with snap := Tbl.wf_set _ _ _ _ hx.snap })

theorem State.plainRead_shape (s : State) (f o : Nat) (p : Acc) (hS : Shape s) : Shape (State.plainRead s f o p).2 := by
  unfold State.plainRead
  try dsimp only
  repeat' (first
    | with_reducible assumption
    | (intro x hx; with_reducible exact hx)
    | (intro x hx; exact { hx with })
    | intro _
    | with_reducible apply ite_shape
    | with_reducible apply State.setSnap_shape
    | split
    | dsimp only
    | exact { hS with })

theorem State.claimFrame_shape (s : State) (f : FrameId) (x : Word × State) (hx : s.claimFrame f = some x) (h : Shape s) : Shape x.2 := by
  unfold State.claimFrame at hx
  split at hx
  · cases hx
    exact h
  · split at hx
    · cases hx
      exact State.claimAt_shape _ _ _ _ h
    · cases hx

theorem State.performRead_shape (s : State) (f o : Nat) (p : Acc) (x : Word × State) (hx : s.performRead f o p = some x) (h : Shape s) : Shape x.2 := by
  unfold State.performRead at hx
  split at hx
  · split at hx
    · split at hx
      · cases hx
        exact h
      · rw [Option.map_eq_some_iff] at hx
        obtain ⟨b, hb, hx⟩ := hx
        rw [← hx]
        dsimp only
        exact State.claimFrame_shape s _ b hb h
    · cases hx
      exact State.plainRead_shape _ _ _ _ h
  · cases hx
    exact State.plainRead_shape _ _ _ _ h

theorem State.tryRead_shape (s t : State) (a : Access) (n : Nat) (ht : s.tryRead a n = some t) (h : Shape s) : Shape t := by
  unfold State.tryRead at ht
  split at ht
  · cases ht
  · obtain ⟨r, hr, rfl⟩ := Option.map_eq_some_iff.mp ht
    exact State.respond_shape _ _ _ _ (State.performRead_shape _ _ _ _ _ hr h)

theorem State.tryRead_getD_shape (s t : State) (a : Access) (n : Nat) (h : Shape s) (ht : Shape t) : Shape ((s.tryRead a n).getD t) := by
  cases he : s.tryRead a n with
  | none => exact ht
  | some u => exact State.tryRead_shape _ _ _ _ he h

theorem State.readAccess_shape (s : State) (a : Access) (h : Shape s) : Shape (s.readAccess a) := by
  unfold State.readAccess
  refine ite_shape h (State.frontEnd_shape _ _ _ _ (fun s h => ?_) h)
  dsimp only
  refine ite_shape (State.tryRead_getD_shape _ _ _ _ h h) (ite_shape (State.tryRead_getD_shape _ _ _ _ h ?_) ?_) <;> exact State.modCp_shape _ h

theorem State.clockWrite_shape (s : State) (o : Nat) (p : Acc) (d : Word) (ring : BitVec 2) (hS : Shape s) : Shape (State.clockWrite s o p d ring) := by
  unfold State.clockWrite
  try dsimp only
  repeat' (first
    | with_reducible assumption
    | (intro x hx; with_reducible exact hx)
    | (intro x hx; exact { hx with })
    | intro _
    | with_reducible apply State.ring_shape
    | with_reducible apply State.modClk_shape
    | with_reducible apply State.modPwr_shape
    | with_reducible apply State.parkWrite_shape
    | split
    | dsimp only
    | exact { hS with })

theorem State.ropeWrite_shape (s : State) (o : Nat) (p : Acc) (d : Word) (ring : BitVec 2) (hS : Shape s) : Shape (State.ropeWrite s o p d ring) := by
  unfold State.ropeWrite
  try dsimp only
  repeat' (first
    | with_reducible assumption
    | (intro x hx; with_reducible exact hx)
    | (intro x hx; exact { hx with })
    | intro _
    | with_reducible apply ite_shape
    | with_reducible apply State.ring_shape
    | with_reducible apply State.modRope_shape
    | with_reducible apply State.stopHeart_shape
    | with_reducible apply State.pulseWrite_shape
    | split
    | dsimp only
    | exact { hS with })

theorem State.rescueWrite_shape (s : State) (o : Nat) (p : Acc) (d : Word) (hS : Shape s) : Shape (State.rescueWrite s o p d) := by
  unfold State.rescueWrite
  try dsimp only
  repeat' (first
    | with_reducible assumption
    | (intro x hx; with_reducible exact hx)
    | (intro x hx; exact { hx with })
    | intro _
    | with_reducible apply ite_shape
    | with_reducible apply State.isolateWrite_shape
    | split
    | dsimp only
    | exact { hS with })

theorem State.rationWrite_shape (s : State) (o : Nat) (p : Acc) (d : Word) (hS : Shape s) : Shape (State.rationWrite s o p d) := by
  unfold State.rationWrite
  try dsimp only
  repeat' (first
    | with_reducible assumption
    | (intro x hx; with_reducible exact hx)
    | (intro x hx; exact { hx with })
    | intro _
    | with_reducible apply ite_shape
    | with_reducible apply State.modRat_shape
    | split
    | dsimp only
    | exact { hS with })

theorem State.cairnWrite_shape (s : State) (o : Nat) (p : Acc) (d : Word) (hS : Shape s) : Shape (State.cairnWrite s o p d) := by
  unfold State.cairnWrite
  try dsimp only
  repeat' (first
    | with_reducible assumption
    | (intro x hx; with_reducible exact hx)
    | (intro x hx; exact { hx with })
    | intro _
    | with_reducible apply ite_shape
    | with_reducible apply State.modCairn_shape
    | with_reducible apply State.ackCairn_shape
    | split
    | dsimp only
    | exact { hS with })

theorem State.accWrite_shape (s : State) (o : Nat) (p : Acc) (d : Word) (hS : Shape s) : Shape (State.accWrite s o p d) := by
  unfold State.accWrite
  try dsimp only
  repeat' (first
    | with_reducible assumption
    | (intro x hx; with_reducible exact hx)
    | (intro x hx; exact { hx with })
    | intro _
    | with_reducible apply State.modAcc_shape
    | split
    | dsimp only
    | exact { hS with })

theorem State.arbWrite_shape (s : State) (f o : Nat) (p : Acc) (d : Word) (h : Shape s) : Shape (s.arbWrite f o p d) := by
  unfold State.arbWrite
  (repeat' split)
  · refine State.modArb_shape _ h (fun x hx => ?_)
    dsimp only
    exact Tbl.wf_upd 0 x.limit _ _ hx
  · exact State.updArb_shape _ _ h
  · exact h
  · exact h

theorem State.reqWrite_shape (s : State) (m o : Nat) (p : Acc) (d : Word) (hS : Shape s) : Shape (State.reqWrite s m o p d) := by
  unfold State.reqWrite
  try dsimp only
  repeat' (first
    | with_reducible assumption
    | (intro x hx; with_reducible exact hx)
    | (intro x hx; exact { hx with })
    | intro _
    | with_reducible apply ite_shape
    | with_reducible apply State.updSlot_shape
    | with_reducible apply State.updMbx_shape
    | split
    | dsimp only
    | exact { hS with })

theorem State.mbxWrite_shape (s : State) (m o : Nat) (p : Acc) (d : Word) (hS : Shape s) : Shape (State.mbxWrite s m o p d) := by
  unfold State.mbxWrite
  try dsimp only
  repeat' (first
    | with_reducible assumption
    | (intro x hx; with_reducible exact hx)
    | (intro x hx; exact { hx with })
    | intro _
    | with_reducible apply ite_shape
    | with_reducible apply foldBelow_shape
    | with_reducible apply State.reqWrite_shape
    | with_reducible apply State.postSlot_shape
    | with_reducible apply State.releaseSlot_shape
    | with_reducible apply State.updMbx_shape
    | split
    | dsimp only
    | exact { hS with })

theorem State.wiredWrite_shape (s : State) (o : Nat) (p : Acc) (d : Word) (hS : Shape s) : Shape (State.wiredWrite s o p d) := by
  unfold State.wiredWrite
  try dsimp only
  repeat' (first
    | with_reducible assumption
    | (intro x hx; with_reducible exact hx)
    | (intro x hx; exact { hx with })
    | intro _
    | with_reducible apply ite_shape
    | with_reducible apply State.eachBit_shape
    | with_reducible apply State.setEn_shape
    | with_reducible apply State.setPend_shape
    | with_reducible apply State.clearStorm_shape
    | split
    | dsimp only
    | exact { hS with })

theorem State.perSource_shape (s : State) (op n : Nat) (hS : Shape s) : Shape (State.perSource s op n) := by
  unfold State.perSource
  try dsimp only
  repeat' (first
    | with_reducible assumption
    | (intro x hx; with_reducible exact hx)
    | (intro x hx; exact { hx with })
    | intro _
    | with_reducible apply ite_shape
    | with_reducible apply State.setPend_shape
    | with_reducible apply State.setEn_shape
    | split
    | dsimp only
    | exact { hS with })

theorem State.passWrite_shape (s : State) (n o : Nat) (p : Acc) (d : Word) (hS : Shape s) : Shape (State.passWrite s n o p d) := by
  unfold State.passWrite
  try dsimp only
  repeat' (first
    | with_reducible assumption
    | (intro x hx; with_reducible exact hx)
    | (intro x hx; exact { hx with })
    | intro _
    | with_reducible apply ite_shape
    | with_reducible apply State.updPass_shape
    | split
    | dsimp only
    | exact { hS with })

theorem State.doorStatWrite_shape (s : State) (o : Nat) (p : Acc) (d : Word) (hS : Shape s) : Shape (State.doorStatWrite s o p d) := by
  unfold State.doorStatWrite
  try dsimp only
  repeat' (first
    | with_reducible assumption
    | (intro x hx; with_reducible exact hx)
    | (intro x hx; exact { hx with })
    | intro _
    | with_reducible apply ite_shape
    | with_reducible apply State.modDoor_shape
    | split
    | dsimp only
    | exact { hS with })

theorem State.ridgeWrite_shape (s : State) (r o : Nat) (p : Acc) (d : Word) (hS : Shape s) : Shape (State.ridgeWrite s r o p d) := by
  unfold State.ridgeWrite
  try dsimp only
  repeat' (first
    | with_reducible assumption
    | (intro x hx; with_reducible exact hx)
    | (intro x hx; exact { hx with })
    | intro _
    | with_reducible apply ite_shape
    | with_reducible apply State.updRidge_shape
    | with_reducible apply State.walkFail_shape
    | split
    | dsimp only
    | exact { hS with })

theorem State.wearWrite_shape (s : State) (o : Nat) (p : Acc) (d : Word) (hS : Shape s) : Shape (State.wearWrite s o p d) := by
  unfold State.wearWrite
  try dsimp only
  repeat' (first
    | with_reducible assumption
    | (intro x hx; with_reducible exact hx)
    | (intro x hx; exact { hx with })
    | intro _
    | with_reducible apply ite_shape
    | with_reducible apply State.modWear_shape
    | split
    | dsimp only
    | exact { hS with })

theorem State.linkWrite_shape (s : State) (k o : Nat) (p : Acc) (d : Word) (hS : Shape s) : Shape (State.linkWrite s k o p d) := by
  unfold State.linkWrite
  try dsimp only
  repeat' (first
    | with_reducible assumption
    | (intro x hx; with_reducible exact hx)
    | (intro x hx; exact { hx with })
    | intro _
    | with_reducible apply State.updLink_shape
    | split
    | dsimp only
    | exact { hS with })

theorem State.quadWrite_shape (s : State) (q o : Nat) (p : Acc) (d : Word) (hS : Shape s) : Shape (State.quadWrite s q o p d) := by
  unfold State.quadWrite
  try dsimp only
  repeat' (first
    | with_reducible assumption
    | (intro x hx; with_reducible exact hx)
    | (intro x hx; exact { hx with })
    | intro _
    | with_reducible apply ite_shape
    | with_reducible apply State.updQuad_shape
    | split
    | dsimp only
    | exact { hS with })

theorem State.laneWrite_shape (s : State) (n o : Nat) (p : Acc) (d : Word) (hS : Shape s) : Shape (State.laneWrite s n o p d) := by
  unfold State.laneWrite
  try dsimp only
  repeat' (first
    | with_reducible assumption
    | (intro x hx; with_reducible exact hx)
    | (intro x hx; exact { hx with })
    | intro _
    | with_reducible apply ite_shape
    | with_reducible apply State.updLane_shape
    | split
    | dsimp only
    | exact { hS with })

theorem State.sharedWrite_shape (s : State) (x : FrameId) (t n : Nat) (tag : Option (BitVec 11)) (o : Nat) (p : Acc) (d : Word) (hS : Shape s) : Shape (State.sharedWrite s x t n tag o p d) := by
  unfold State.sharedWrite
  try dsimp only
  repeat' (first
    | with_reducible assumption
    | (intro x hx; with_reducible exact hx)
    | (intro x hx; exact { hx with })
    | intro _
    | with_reducible apply ite_shape
    | with_reducible apply State.updFrame_shape
    | with_reducible apply State.completeWrite_shape
    | with_reducible apply State.evalAll_shape
    | with_reducible apply State.unwindWrite_shape
    | split
    | dsimp only
    | exact { hS with })

theorem State.privWrite_shape (s : State) (t o : Nat) (p : Acc) (d : Word) (h : Shape s) : Shape (s.privWrite t o p d) := by
  unfold State.privWrite
  dsimp only
  split
  · exact State.eachBit_shape _ _ _ _ _ (fun _ _ _ h => State.setEn_shape _ _ _ h) h
  · exact State.eachBit_shape _ _ _ _ _ (fun _ _ _ h => State.setPend_shape _ _ _ h) h
  · refine State.eachBit_shape _ _ _ _ _ (fun _ _ _ h => ?_) h
    split
    · exact State.clearStorm_shape _ _ h
    · exact h
  · refine State.modWired_shape _ h (fun x hx => ?_)
    refine { src := hx.src, bank := ?_ }
    dsimp only
    exact Tbl.wf_upd _ _ _ _ hx.bank
  · split
    · exact State.perSource_shape _ _ _ h
    · exact h

theorem State.targetWrite_shape (s : State) (t : Fin 512) (n : Fin 4) (o : Nat) (p : Acc) (d : Word) (hS : Shape s) : Shape (State.targetWrite s t n o p d) := by
  unfold State.targetWrite
  try dsimp only
  repeat' (first
    | with_reducible assumption
    | (intro x hx; with_reducible exact hx)
    | (intro x hx; exact { hx with })
    | intro _
    | with_reducible apply ite_shape
    | with_reducible apply State.privWrite_shape
    | with_reducible apply State.updTgt_shape
    | with_reducible apply State.updPair_shape
    | with_reducible apply State.sharedWrite_shape
    | split
    | dsimp only
    | exact { hS with })

theorem State.residentWrite_shape (s : State) (c : Fin 2048) (o : Nat) (p : Acc) (d : Word) (hS : Shape s) : Shape (State.residentWrite s c o p d) := by
  unfold State.residentWrite
  try dsimp only
  repeat' (first
    | with_reducible assumption
    | (intro x hx; with_reducible exact hx)
    | (intro x hx; exact { hx with })
    | intro _
    | with_reducible apply State.sharedWrite_shape
    | split
    | dsimp only
    | exact { hS with })

theorem State.applyWrite_shape (s : State) (f o : Nat) (p : Acc) (d : Word) (h : Shape s) : Shape (s.applyWrite f o p d) := by
  unfold State.applyWrite
  repeat' (with_reducible apply ite_shape)
  all_goals first
    | with_reducible exact h
    | with_reducible exact State.rationWrite_shape _ _ _ _ h
    | with_reducible exact State.cairnWrite_shape _ _ _ _ h
    | with_reducible exact State.accWrite_shape _ _ _ _ h
    | with_reducible exact State.arbWrite_shape _ _ _ _ _ h
    | with_reducible exact State.mbxWrite_shape _ _ _ _ _ h
    | with_reducible exact State.wiredWrite_shape _ _ _ _ h
    | with_reducible exact State.perSource_shape _ _ _ h
    | with_reducible exact State.passWrite_shape _ _ _ _ _ h
    | with_reducible exact State.doorStatWrite_shape _ _ _ _ h
    | with_reducible exact State.ridgeWrite_shape _ _ _ _ _ h
    | with_reducible exact State.wearWrite_shape _ _ _ _ h
    | with_reducible exact State.linkWrite_shape _ _ _ _ _ h
    | with_reducible exact State.quadWrite_shape _ _ _ _ _ h
    | with_reducible exact State.laneWrite_shape _ _ _ _ _ h
    | with_reducible exact State.targetWrite_shape _ _ _ _ _ _ h
    | with_reducible exact State.residentWrite_shape _ _ _ _ _ h

theorem State.mainWrite_shape (s : State) (a : Access) (hS : Shape s) : Shape (State.mainWrite s a) := by
  unfold State.mainWrite
  try dsimp only
  repeat' (first
    | with_reducible assumption
    | (intro x hx; with_reducible exact hx)
    | (intro x hx; exact { hx with })
    | intro _
    | with_reducible apply ite_shape
    | with_reducible apply State.doorbellWrite_shape
    | with_reducible apply State.dbMarkWrite_shape
    | with_reducible apply State.openWrite_shape
    | with_reducible apply State.sgiWrite_shape
    | with_reducible apply State.cfgWrite_shape
    | with_reducible apply State.evalAll_shape
    | with_reducible apply State.applyWrite_shape
    | split
    | dsimp only
    | exact { hS with })

theorem State.serveOne_shape (x : Bool × State) (a : HeldAccess) (h : Shape x.2) : Shape (State.serveOne x a).2 := by
  unfold State.serveOne
  dsimp only
  (repeat' split) <;> dsimp only
  · exact State.modCp_shape _ h
  · exact State.settleWrite_shape _ (State.applyWrite_shape _ _ _ _ _ h)
  · exact State.modCp_shape _ h
  · rename_i heq
    exact State.tryRead_shape _ _ _ _ heq h
  · exact State.modCp_shape _ h

theorem State.serveHeld_shape (s : State) (h : Shape s) : Shape s.serveHeld := by
  have hf : ∀ (l : List HeldAccess) (x : Bool × State), Shape x.2 → Shape (l.foldl State.serveOne x).2 := by
    intro l
    induction l with
    | nil => exact fun _ h => h
    | cons a as ih => exact fun x h => ih _ (State.serveOne_shape x a h)
  have h0 : Shape (s.modCp (fun c => { c with held := [] })) := State.modCp_shape _ h
  exact hf _ (false, s.modCp (fun c => { c with held := [] })) h0

theorem State.answerHeld_shape (s : State) (hS : Shape s) : Shape (State.answerHeld s) := by
  unfold State.answerHeld
  try dsimp only
  repeat' (first
    | with_reducible assumption
    | (intro x hx; with_reducible exact hx)
    | (intro x hx; exact { hx with })
    | intro _
    | with_reducible apply ite_shape
    | with_reducible apply foldList_shape
    | with_reducible apply State.serveHeld_shape
    | with_reducible apply State.respond_shape
    | with_reducible apply State.modCp_shape
    | split
    | dsimp only
    | exact { hS with })

theorem State.rescueLaneWrite_shape (s : State) (a : Access) (hS : Shape s) : Shape (State.rescueLaneWrite s a) := by
  unfold State.rescueLaneWrite
  try dsimp only
  repeat' (first
    | with_reducible assumption
    | (intro x hx; with_reducible exact hx)
    | (intro x hx; exact { hx with })
    | with_reducible exact Rations.warm_shape
    | intro _
    | with_reducible apply ite_shape
    | with_reducible apply State.rescueWrite_shape
    | with_reducible apply State.warmKey_shape
    | with_reducible apply State.ring_shape
    | with_reducible apply State.answerHeld_shape
    | with_reducible apply State.clockWrite_shape
    | with_reducible apply State.ropeWrite_shape
    | split
    | dsimp only
    | exact { hS with })

theorem State.writeAccess_shape (s : State) (a : Access) (hS : Shape s) : Shape (State.writeAccess s a) := by
  unfold State.writeAccess
  try dsimp only
  repeat' (first
    | with_reducible assumption
    | (intro x hx; with_reducible exact hx)
    | (intro x hx; exact { hx with })
    | intro _
    | with_reducible apply ite_shape
    | with_reducible apply State.frontEnd_shape
    | with_reducible apply State.rescueLaneWrite_shape
    | with_reducible apply State.respond_shape
    | with_reducible apply State.openWrite_shape
    | with_reducible apply State.modCp_shape
    | with_reducible apply State.mainWrite_shape
    | split
    | dsimp only
    | exact { hS with })

theorem Tbl.wfFrom_map {α : Type} [DecidableEq α] (d : α) (g : α → α) (hg : ∀ x, g x = d → x = d) (t : Tbl α) (lo : Option Nat)
    (h : Tbl.wfFrom d lo t = true) : Tbl.wfFrom d lo (t.map (fun r => (r.1, g r.2))) = true := by
  induction t generalizing lo with
  | nil => rfl
  | cons a rest ih =>
    obtain ⟨k, v⟩ := a
    simp only [Tbl.wfFrom, Bool.and_eq_true, decide_eq_true_eq] at h
    simp only [List.map_cons, Tbl.wfFrom, Bool.and_eq_true, decide_eq_true_eq]
    exact ⟨⟨h.1.1, fun e => h.1.2 (hg _ e)⟩, ih _ h.2⟩

theorem State.mapP_shape (s : State) (g : Nat) (f : Inst → Inst) (h : Shape s) : Shape (s.mapP g f) := by
  have h1 : ∀ (u : Inst → Inst), Tbl.wf Target.reset (s.tgt.map (fun t => (t.1, { t.2 with store := t.2.store.map u }))) = true := fun u => by
    refine Tbl.wfFrom_map Target.reset (fun t => { t with store := t.store.map u }) ?_ _ none h.tgt
    rintro ⟨⟩ e
    simp only [Target.reset, Target.mk.injEq, List.map_eq_nil_iff] at e ⊢
    exact e
  have h2 : ∀ (u : Inst → Inst), Tbl.wf Vt.reset (s.vt.map (fun v => (v.1, { v.2 with bivouac := v.2.bivouac.map u }))) = true := fun u => by
    refine Tbl.wfFrom_map Vt.reset (fun v => { v with bivouac := v.bivouac.map u }) ?_ _ none h.vt
    rintro ⟨⟩ e
    simp only [Vt.reset, Vt.mk.injEq, List.map_eq_nil_iff] at e ⊢
    exact e
  have h3 : ∀ (u : Inst → Inst), Tbl.wf Belay.reset
      (s.bel.map (fun b => (b.1, { b.2 with landing := b.2.landing.map (fun l => { l with item := l.item.mapMoved u }) }))) = true := fun u => by
    refine Tbl.wfFrom_map Belay.reset (fun b => { b with landing := b.landing.map (fun l => { l with item := l.item.mapMoved u }) }) ?_ _ none h.bel
    rintro ⟨⟩ e
    simp only [Belay.reset, Belay.mk.injEq, List.map_eq_nil_iff] at e ⊢
    exact e
  exact { h with tgt := h1 _, vt := h2 _, bel := h3 _, xl := { h.xl with pos := (List.length_map _).trans h.xl.pos } }

theorem State.dueP_shape (s : State) (g : Nat) (hS : Shape s) : Shape (State.dueP s g) := by
  unfold State.dueP
  try dsimp only
  repeat' (first
    | with_reducible assumption
    | (intro x hx; with_reducible exact hx)
    | (intro x hx; exact { hx with })
    | intro _
    | with_reducible apply ite_shape
    | with_reducible apply State.mapP_shape
    | with_reducible apply State.updGrp_shape
    | split
    | dsimp only
    | exact { hS with })

theorem State.recheckP_shape (s : State) (g : Nat) (hS : Shape s) : Shape (State.recheckP s g) := by
  unfold State.recheckP
  try dsimp only
  repeat' (first
    | with_reducible assumption
    | (intro x hx; with_reducible exact hx)
    | (intro x hx; exact { hx with })
    | intro _
    | with_reducible apply ite_shape
    | with_reducible apply State.dueP_shape
    | with_reducible apply State.setDue_shape
    | split
    | dsimp only
    | exact { hS with })

theorem State.cgroupSet_shape (s : State) (a : BitVec 448) (hS : Shape s) : Shape (State.cgroupSet s a).2 := by
  unfold State.cgroupSet
  try dsimp only
  repeat' (first
    | with_reducible assumption
    | (intro x hx; with_reducible exact hx)
    | (intro x hx; exact { hx with })
    | intro _
    | with_reducible apply ite_shape
    | with_reducible apply State.updGrp_shape
    | with_reducible apply State.dueP_shape
    | with_reducible apply State.recheckP_shape
    | with_reducible apply State.evalAll_shape
    | split
    | dsimp only
    | exact { hS with })

theorem State.writeVt_shape (s : State) (v : Nat) (hS : Shape s) : Shape (State.writeVt s v) := by
  unfold State.writeVt
  try dsimp only
  repeat' (first
    | with_reducible assumption
    | (intro x hx; with_reducible exact hx)
    | (intro x hx; exact { hx with })
    | intro _
    | with_reducible apply foldBelow_shape
    | with_reducible apply State.memWrite_shape
    | split
    | dsimp only
    | exact { hS with })

theorem State.vtMake_shape (s : State) (a : BitVec 448) (hS : Shape s) : Shape (State.vtMake s a).2 := by
  unfold State.vtMake
  try dsimp only
  repeat' (first
    | with_reducible assumption
    | (intro x hx; with_reducible exact hx)
    | (intro x hx; exact { hx with })
    | intro _
    | with_reducible apply ite_shape
    | with_reducible apply State.settleQuota_shape
    | with_reducible apply State.drawAlloc_shape
    | with_reducible apply State.takePages_shape
    | with_reducible apply State.updVt_shape
    | with_reducible apply State.ring_shape
    | with_reducible apply State.modRat_shape
    | with_reducible apply State.writeVt_shape
    | split
    | dsimp only
    | exact { hS with })

theorem State.vtCreate_shape (s : State) (a : BitVec 448) (hS : Shape s) : Shape (State.vtCreate s a).2 := by
  unfold State.vtCreate
  try dsimp only
  repeat' (first
    | with_reducible assumption
    | (intro x hx; with_reducible exact hx)
    | (intro x hx; exact { hx with })
    | intro _
    | with_reducible apply State.ring_shape
    | with_reducible apply State.vtMake_shape
    | split
    | dsimp only
    | exact { hS with })

theorem State.residentSlot_shape (s : State) (c : Nat) (owner : BitVec 6) (ring : Option (BitVec 2)) (hS : Shape s) : Shape (State.residentSlot s c owner ring) := by
  unfold State.residentSlot
  try dsimp only
  repeat' (first
    | with_reducible assumption
    | (intro x hx; with_reducible exact hx)
    | (intro x hx; exact { hx with })
    | intro _
    | with_reducible apply ite_shape
    | with_reducible apply State.ring_shape
    | with_reducible apply State.setDesc_shape
    | split
    | dsimp only
    | exact { hS with })

theorem State.makeResident_shape (s : State) (v t c : Nat) (hS : Shape s) : Shape (State.makeResident s v t c) := by
  unfold State.makeResident
  try dsimp only
  repeat' (first
    | with_reducible assumption
    | (intro x hx; with_reducible exact hx)
    | (intro x hx; exact { hx with })
    | intro _
    | with_reducible apply ite_shape
    | with_reducible apply foldList_shape
    | with_reducible apply foldBelow_shape
    | with_reducible apply State.updPair_shape
    | with_reducible apply State.ring_shape
    | with_reducible apply State.updCtx_shape
    | with_reducible apply State.updFrame_shape
    | with_reducible apply State.updVt_shape
    | with_reducible apply State.groupNoPending_shape
    | with_reducible apply State.ackAll_shape
    | with_reducible apply State.unretain_shape
    | with_reducible apply State.memWrite_shape
    | with_reducible apply State.residentSlot_shape
    | with_reducible apply State.charge_shape
    | with_reducible apply State.readBack_shape
    | with_reducible apply State.releaseAllWaits_shape
    | with_reducible apply State.evalAll_shape
    | split
    | dsimp only
    | exact { hS with })

theorem State.vtResident_shape (s : State) (a : BitVec 448) (hS : Shape s) : Shape (State.vtResident s a).2 := by
  unfold State.vtResident
  try dsimp only
  repeat' (first
    | with_reducible assumption
    | (intro x hx; with_reducible exact hx)
    | (intro x hx; exact { hx with })
    | intro _
    | with_reducible apply ite_shape
    | with_reducible apply State.ring_shape
    | with_reducible apply State.makeResident_shape
    | split
    | dsimp only
    | exact { hS with })

theorem State.cancelBivouac_shape (s : State) (c : Nat) (hS : Shape s) : Shape (State.cancelBivouac s c) := by
  unfold State.cancelBivouac
  try dsimp only
  repeat' (first
    | with_reducible assumption
    | (intro x hx; with_reducible exact hx)
    | (intro x hx; exact { hx with })
    | intro _
    | with_reducible apply ite_shape
    | with_reducible apply State.modMem_shape
    | split
    | dsimp only
    | exact { hS with })

theorem State.saveActs_shape (s : State) (v : Nat) (acts : List Active) (hS : Shape s) : Shape (State.saveActs s v acts) := by
  unfold State.saveActs
  try dsimp only
  repeat' (first
    | with_reducible assumption
    | (intro x hx; with_reducible exact hx)
    | (intro x hx; exact { hx with })
    | intro _
    | with_reducible apply foldList_shape
    | with_reducible apply State.charge_shape
    | with_reducible apply State.memWrite_shape
    | split
    | dsimp only
    | exact { hS with })

theorem State.evict_shape (s : State) (v : Nat) (hS : Shape s) : Shape (State.evict s v) := by
  unfold State.evict
  try dsimp only
  repeat' (first
    | with_reducible assumption
    | (intro x hx; with_reducible exact hx)
    | (intro x hx; exact { hx with })
    | intro _
    | with_reducible apply foldList_shape
    | with_reducible apply State.ring_shape
    | with_reducible apply State.cancelBivouac_shape
    | with_reducible apply State.updStore_shape
    | with_reducible apply State.updPair_shape
    | with_reducible apply State.bivouacPut_shape
    | with_reducible apply State.updVt_shape
    | with_reducible apply State.saveActs_shape
    | with_reducible apply State.updFrame_shape
    | with_reducible apply State.updCtx_shape
    | with_reducible apply State.writeVt_shape
    | with_reducible apply State.residentSlot_shape
    | with_reducible apply State.releaseAllWaits_shape
    | with_reducible apply State.pumpRefill_shape
    | with_reducible apply State.evalAll_shape
    | split
    | dsimp only
    | exact { hS with })

theorem State.vtEvict_shape (s : State) (a : BitVec 448) (hS : Shape s) : Shape (State.vtEvict s a).2 := by
  unfold State.vtEvict
  try dsimp only
  repeat' (first
    | with_reducible assumption
    | (intro x hx; with_reducible exact hx)
    | (intro x hx; exact { hx with })
    | intro _
    | with_reducible apply ite_shape
    | with_reducible apply State.evict_shape
    | split
    | dsimp only
    | exact { hS with })

theorem State.destroy_shape (s : State) (v : Nat) (hS : Shape s) : Shape (State.destroy s v) := by
  unfold State.destroy
  try dsimp only
  repeat' (first
    | with_reducible assumption
    | (intro x hx; with_reducible exact hx)
    | (intro x hx; exact { hx with })
    | intro _
    | with_reducible apply ite_shape
    | with_reducible apply foldList_shape
    | with_reducible apply foldBelow_shape
    | with_reducible apply State.evict_shape
    | with_reducible apply State.settleQuota_shape
    | with_reducible apply State.updVt_shape
    | with_reducible apply State.groupNoPending_shape
    | with_reducible apply State.ackAll_shape
    | with_reducible apply State.ack_shape
    | with_reducible apply State.updGrp_shape
    | with_reducible apply State.memWrite_shape
    | with_reducible apply State.releasePages_shape
    | with_reducible apply State.evalAll_shape
    | split
    | dsimp only
    | exact { hS with })

theorem State.vtDestroy_shape (s : State) (a : BitVec 448) (hS : Shape s) : Shape (State.vtDestroy s a).2 := by
  unfold State.vtDestroy
  try dsimp only
  repeat' (first
    | with_reducible assumption
    | (intro x hx; with_reducible exact hx)
    | (intro x hx; exact { hx with })
    | intro _
    | with_reducible apply ite_shape
    | with_reducible apply State.destroy_shape
    | split
    | dsimp only
    | exact { hS with })

theorem State.runSlot_shape (s : State) (t n : Nat) (c : Option (BitVec 11)) (hS : Shape s) : Shape (State.runSlot s t n c).2 := by
  unfold State.runSlot
  try dsimp only
  repeat' (first
    | with_reducible assumption
    | (intro x hx; with_reducible exact hx)
    | (intro x hx; exact { hx with })
    | intro _
    | with_reducible apply ite_shape
    | with_reducible apply State.updVt_shape
    | with_reducible apply State.updPair_shape
    | with_reducible apply State.evalAll_shape
    | split
    | dsimp only
    | exact { hS with })

theorem State.vtRun_shape (s : State) (m : Nat) (a : BitVec 448) (hS : Shape s) : Shape (State.vtRun s m a).2 := by
  unfold State.vtRun
  try dsimp only
  repeat' (first
    | with_reducible assumption
    | (intro x hx; with_reducible exact hx)
    | (intro x hx; exact { hx with })
    | intro _
    | with_reducible apply ite_shape
    | with_reducible apply State.runSlot_shape
    | with_reducible apply State.ring_shape
    | split
    | dsimp only
    | exact { hS with })

theorem State.zeroStep_shape (s : State) (hS : Shape s) : Shape (State.zeroStep s) := by
  unfold State.zeroStep
  try dsimp only
  repeat' (first
    | with_reducible assumption
    | (intro x hx; with_reducible exact hx)
    | (intro x hx; exact { hx with })
    | intro _
    | with_reducible apply ite_shape
    | with_reducible apply State.modBoot_shape
    | with_reducible apply State.memAbove_shape
    | with_reducible apply State.memWrite_shape
    | split
    | dsimp only
    | exact { hS with })

theorem State.advance_shape (s : State) (hS : Shape s) : Shape (State.advance s) := by
  unfold State.advance
  try dsimp only
  repeat' (first
    | with_reducible assumption
    | (intro x hx; with_reducible exact hx)
    | (intro x hx; exact { hx with })
    | intro _
    | with_reducible apply ite_shape
    | with_reducible apply State.modClk_shape
    | split
    | dsimp only
    | exact { hS with })

theorem State.portCycles_shape (s : State) (hS : Shape s) : Shape (State.portCycles s) := by
  unfold State.portCycles
  try dsimp only
  repeat' (first
    | with_reducible assumption
    | (intro x hx; with_reducible exact hx)
    | (intro x hx; exact { hx with })
    | intro _
    | with_reducible apply foldBelow_shape
    | with_reducible apply State.updPass_shape
    | split
    | dsimp only
    | exact { hS with })

theorem tick_shape (s : State) (hS : Shape s) : Shape (tick s) := by
  unfold tick
  try dsimp only
  repeat' (first
    | with_reducible assumption
    | (intro x hx; with_reducible exact hx)
    | (intro x hx; exact { hx with })
    | intro _
    | with_reducible apply ite_shape
    | with_reducible apply State.advance_shape
    | with_reducible apply State.pulseEnd_shape
    | with_reducible apply State.portCycles_shape
    | with_reducible apply State.phyTick_shape
    | with_reducible apply State.serveHeld_shape
    | with_reducible apply State.testStep_shape
    | with_reducible apply State.tryPark_shape
    | with_reducible apply State.ownRekey_shape
    | with_reducible apply State.pinStep_shape
    | with_reducible apply State.zeroStep_shape
    | with_reducible apply State.releaseAllWaits_shape
    | split
    | dsimp only
    | exact { hS with })

theorem State.withFetchWord_shape (s : State) (nbits w : Nat) (hS : Shape s) : Shape (State.withFetchWord s nbits w) := by
  unfold State.withFetchWord
  try dsimp only
  repeat' (first
    | with_reducible assumption
    | (intro x hx; with_reducible exact hx)
    | (intro x hx; exact { hx with })
    | intro _
    | split
    | dsimp only
    | exact { hS with })

end Sys2Proof.Machine
end

