-- ==== Sys2Proof/Tests/Slice0.lean ====
section
/-! SUPPORT. Small tests of the model, and for each statement of Certificates/Slice0/Obligations.lean a witness: a concrete state and operands that meet the
hypotheses of each of its clauses together. -/

namespace Sys2Proof.Tests
set_option Elab.async false
open Sys2Proof.Machine

/-- A block that has started up and whose boot has succeeded: powered, ready, every pair loaded, nothing configured. -/
def up : State := { State.reset with
  pwr := { Power.reset with coldHeld := false, avail := true }, boot := { Boot.reset with aonUp := true, fastReady := true, sramZeroed := true, campReady := true },
  rope := { Rope.reset with serving := true, hbRunning := true }, clk := { Clocks.reset with checked := true, ticks := 5000, time := 5000, bosc := 10000 },
  camp := { Camp.reset with execA := true, execB := true, aOk := true, bOk := true, standby := 0 }, wired := { Wired.reset with live := true } }

/-- `up` with one wired source set. -/
def withSrc (n : Nat) (f : Source → Source) : State := up.updSrc n f

theorem witness_StepRunsFrontCommand : { up with pending := [.rationRound] }.pending = .rationRound :: [] := by decide +kernel

theorem witness_IdleStepIsOneTick : State.reset.pending = [] ∧ State.reset.linksAlive = false := by decide +kernel

theorem witness_EveryCommandAnswers : Instr.wf .rationRound = true ∧ Instr.wf (.scrubRead 0 10000000 none false) = false := by decide +kernel

/-- `up` with source 3 set, an edge source of ring 0 on the rising edge. -/
def edge3 (f : Source → Source) : State := { up with wired := { up.wired with src := [(3, f { Source.reset with trigger := 1 })] } }

theorem witness_WiredLineChangeFollowsTrigger :
    let s1 := edge3 id
    let s2 := edge3 (fun x => { x with pend := true })
    let s3 := edge3 (fun x => { x with trigger := 0, act := true })
    let s4 := edge3 (fun x => { x with trigger := 0 })
    let s5 := edge3 (fun x => { x with trigger := 0, pend := true, offered := true })
    (srcHasLine (.shared 3) = true ∧ ∀ s ∈ [s1, s2, s3, s4, s5], s.running = true ∧ s.wired.live = true ∧ (s.stormOf 3).2 = 0) ∧
    ((s1.srcAt 3).trigger ≠ 0 ∧ (s1.srcAt 3).ref ≠ true ∧ true ≠ (s1.srcAt 3).polarity ∧ (s1.srcAt 3).pend = false) ∧
    ((s2.srcAt 3).trigger ≠ 0 ∧ (s2.srcAt 3).ref ≠ true ∧ (s2.srcAt 3).pend = true ∧ (s2.srcAt 3).offered = false) ∧
    ((s1.srcAt 3).trigger ≠ 0 ∧ ¬(s1.srcAt 3).ref ≠ false) ∧
    ((s3.srcAt 3).trigger = 0 ∧ (s3.srcAt 3).act = true) ∧
    ((s4.srcAt 3).trigger = 0 ∧ (s4.srcAt 3).act = false ∧ true ≠ (s4.srcAt 3).polarity ∧ (s4.srcAt 3).pend = false) ∧
    ((s5.srcAt 3).trigger = 0 ∧ (s5.srcAt 3).act = false ∧ false = (s5.srcAt 3).polarity ∧ (s5.srcAt 3).pend = true) := by decide +kernel

theorem witness_OneSourceRegistersActOnOneSource :
    let s := edge3 (fun x => { x with offered := true })
    up.running = true ∧ s.running = true ∧ isReserved (srcNum (.shared 8191)) = false ∧ isReserved (srcNum (.priv 511 47)) = false ∧
      ((s.srcAt 3).isEdge 3 = true ∧ (s.srcAt 3).pend = false ∧ (s.stormOf 3).2 = 0) ∧ (up.srcAt 8191).isEdge 8191 = false ∧
      ((s.srcAt 3).offered = true ∧ (s.srcAt 3).storm = false ∧ ((edge3 (fun x => { x with offered := true, prio := 1 })).srcAt 3).prioNow ≠ 0) := by
  decide +kernel

theorem witness_WordWritesApplyEveryBit :
    up.running = true ∧ reaches .full 63 = true ∧ isReserved (srcBase (.shared 127) + 63) = false ∧ wrote1 .full (1 <<< 63) 63 = true ∧
      ((edge3 (fun x => { x with storm := true })).srcAt (srcBase (.shared 0) + 3)).storm = true ∧
      (let s := edge3 (fun x => { x with trigger := 2, stormLimit := 2, stormWindow := 100, winOpen := true, winStart := 4000, winCount := 2 })
       let x := s.srcAt (srcBase (.shared 0) + 3)
       s.running = true ∧ bitAt (8 : Word) 3 = true ∧ isReserved (srcBase (.shared 0) + 3) = false ∧ isSgi (srcBase (.shared 0) + 3) = false ∧
         s.wired.live = true ∧ x.trigger = 2 ∧ (s.stormOf (srcBase (.shared 0) + 3)).2 ≠ 0 ∧ x.winOpen = true ∧
         s.windowOver (srcBase (.shared 0) + 3) = false ∧ x.ref = x.line ∧ x.winCount = (s.stormOf (srcBase (.shared 0) + 3)).2) := by decide +kernel

theorem witness_StormGuardTripsPastItsLimit :
    let s := edge3 (fun x => { x with stormLimit := 2, stormWindow := 100, winOpen := true, winStart := 4000, winCount := 2 })
    let t := edge3 (fun x => { x with stormWindow := 10, winOpen := true, winStart := 4000, winCount := 2 })
    (s.running = true ∧ (s.srcAt 3).trigger ≠ 0 ∧ (s.srcAt 3).pend = false ∧ (s.srcAt 3).stormLimit ≠ 0 ∧ (s.srcAt 3).winOpen = true ∧
      s.windowOver 3 = false ∧ (s.srcAt 3).winCount = (s.srcAt 3).stormLimit.toNat ∧ s.cairn.queue.length < 64 ∧
      ∀ q ∈ s.cairn.queue, ¬(q.cause = 0x13 ∧ q.kind = 8 ∧ q.unit = BitVec.ofNat 16 3)) ∧
    (t.running = true ∧ (t.srcAt 3).winOpen = true ∧
      (t.srcAt 3).winStart.toNat + windowTicks (t.stormOf (srcNum (.shared 3))).1 ≤ t.clk.time.toNat) := by decide +kernel

theorem edge3_other {f : Source → Source} {m : Nat} (h : m ≠ 3) : (edge3 f).srcAt m = Source.reset := by
  simp [edge3, State.srcAt, Tbl.get, Ne.symm h]

theorem witness_CollectorEmitsInOrder :
    let s1 := edge3 (fun x => { x with wdraw := true })
    let s2 := edge3 (fun x => { x with pend := true, en := true, prio := 5 })
    let s3 := edge3 (fun x => { x with mergeOwed := 2 })
    (∀ s ∈ [s1, s2, s3, up], s.running = true ∧ s.wired.live = true ∧ Tbl.wf Source.reset s.wired.src = true ∧ s.posOf (srcHandle 3) = 0) ∧
    ((s1.srcAt 3).wdraw = true ∧ s1.onInput8 3 = false ∧
      ∀ m, m ≠ 3 → s1.posOf (srcHandle m) = 0 → (s1.srcAt m).wdraw = true ∧ s1.onInput8 m = false → emitsBefore 3 m) ∧
    ((s2.srcAt 3).ready = true ∧ (s2.srcAt 3).mergeOwed = 0 ∧ (∀ m, s2.posOf (srcHandle m) = 0 → (s2.srcAt m).wdraw = false) ∧
      ∀ m, m ≠ 3 → s2.posOf (srcHandle m) = 0 → (s2.srcAt m).mergeOwed ≠ 0 ∨ (s2.srcAt m).ready = true → emitsBefore 3 m) ∧
    ((s3.srcAt 3).mergeOwed ≠ 0 ∧ (∀ m, s3.posOf (srcHandle m) = 0 → (s3.srcAt m).wdraw = false) ∧
      ∀ m, m ≠ 3 → s3.posOf (srcHandle m) = 0 → (s3.srcAt m).mergeOwed ≠ 0 ∨ (s3.srcAt m).ready = true → emitsBefore 3 m) ∧
    (∀ m, up.posOf (srcHandle m) = 0 → (up.srcAt m).wdraw = false ∧ (up.srcAt m).ready = false ∧ (up.srcAt m).mergeOwed = 0) := by
  have quiet : (Source.reset.wdraw = false ∧ Source.reset.ready = false) ∧ Source.reset.mergeOwed = 0 := by decide
  refine ⟨by decide +kernel, ⟨by decide +kernel, by decide +kernel, fun m h _ hw => ?_⟩, ⟨by decide +kernel, by decide +kernel, fun m _ => ?_, fun m h _ hr => ?_⟩,
    ⟨by decide +kernel, fun m _ => ?_, fun m h _ hr => ?_⟩, fun m _ => ⟨rfl, rfl, rfl⟩⟩
  · rw [edge3_other h] at hw; exact absurd hw.1 (by decide)
  · by_cases h : m = 3
    · subst h; decide +kernel
    · rw [edge3_other h]; exact quiet.1.1
  · rw [edge3_other h] at hr; exact absurd hr (by decide)
  · by_cases h : m = 3
    · subst h; decide +kernel
    · rw [edge3_other h]; exact quiet.1.1
  · rw [edge3_other h] at hr; exact absurd hr (by decide)

theorem witness_SourceConfigWriteAppliesOrWaits :
    let d : Word := 0x0000000000000000
    let s := edge3 (fun x => { x with trigger := 0 })
    let b := { s with log := [((up.posOf (srcHandle 3)) * 2 ^ 30, { LogEntry.reset with state := 1 })] }
    (s.running = true ∧ s.wired.waiting = [] ∧ s.cfgMustWait (.word0 3) .full d = false ∧ s.liveHandle (srcHandle 3) = false ∧
      (s.srcAt 3).offered = false ∧ field d 56 2 = (s.srcAt 3).trigger ∧ bitAt d 8 = (s.srcAt 3).polarity) ∧
    (s.cfgMustWait (.word0 3) .full (1 <<< 56) = false ∧ s.wired.live = true ∧ (s.srcAt 3).trigger = 0 ∧ field (1 <<< 56 : Word) 56 2 ≠ (0 : BitVec 2)) ∧
    (b.running = true ∧ b.wired.waiting = [] ∧ b.posBusy (b.posOf (srcHandle 3)) = true ∧
      b.directRoute 3 ≠ (b.updSrc 3 (Source.setWord0 (5 <<< 16))).directRoute 3) := by decide +kernel

theorem witness_SgiSendMakesOneOccurrence :
    let n := 8192 + 64 * 7 + 2
    let d : Word := 0x70002
    let s := { up with wired := { up.wired with src := [(n, { Source.reset with en := true, prio := 5 })] } }
    field d 6 2 = (0 : BitVec 2) ∧ 8192 + 64 * (field d 16 9 : BitVec 9).toNat + (field d 0 4 : BitVec 4).toNat = n ∧
    (s.running = true ∧ s.cp.wbuf = [] ∧ (s.srcAt n).pend = false ∧ (s.srcAt n).eff = true ∧ (s.srcAt n).act = false ∧ (s.srcAt n).offered = false ∧
      (s.srcAt n).wdraw = false) ∧
    (up.running = true ∧ up.cp.wbuf = [] ∧ (up.srcAt n).pend = false ∧ (up.srcAt n).eff = false) := by decide +kernel

/-- A record of requester 77, event 3, with its parity, on the Pass: KIND `k`, SEQ 9 with its flag. -/
def beat (k : Nat) : BitVec 128 := BitVec.ofNat 128 (77 * 2 ^ 112 + k * 2 ^ 108 + 2 ^ 107 + 3 * 2 ^ 80 + 9 * 2 ^ 8)

/-- A device-table line of requester 77: valid, sixteen events, open to every port. -/
def line77 : DevLine :=
  { req := 77, entry := { DevEntry.reset with valid := true, owner := 1, eventBits := 4, ingress := 0x1FF, devGen := 1 }, locked := false }

/-- The odd parity of the low `n` bytes of a value. -/
def oddPar (d : BitVec 128) : BitVec 16 := 
  BitVec.ofNat 16 ((List.range 16).foldl (fun a i => a + if oddOk (field d (8 * i) 8 : BitVec 8) false then 0 else 2 ^ i) 0)

theorem witness_PassRecordMeetsItsChecksInOrder :
    let port := { PassPort.reset with live := true, resetN := true, credit := 32, seqRef := some 7 }
    let s := { up with pass := [(7, port)], xl := { up.xl with devCache := [line77] } }
    let z := { up with pass := [(7, { port with credit := 0 })] }
    let b2 : BitVec 128 := BitVec.ofNat 128 (0xFF0A * 2 ^ 112)
    (z.running = true ∧ (z.passAt 7).live = true ∧ (z.passAt 7).credit = 0) ∧
    (s.running = true ∧ (s.passAt 7).live = true ∧ (s.passAt 7).credit ≠ 0) ∧
    parityOk (beat 1) (oddPar (beat 1) ^^^ 1) 16 = false ∧
    (parityOk b2 (oddPar b2) 16 = true ∧ field (field b2 112 16 : BitVec 16) 4 12 = (0xFF0 : BitVec 12)) ∧
    (parityOk (beat 9) (oddPar (beat 9)) 16 = true ∧ field (field (beat 9) 112 16 : BitVec 16) 4 12 ≠ (0xFF0 : BitVec 12) ∧
      field (beat 9) 108 4 ∉ ([1, 2, 3, 4, 8] : List (BitVec 4))) ∧
    (parityOk (beat 1) (oddPar (beat 1)) 16 = true ∧ field (field (beat 1) 112 16 : BitVec 16) 4 12 ≠ (0xFF0 : BitVec 12) ∧
      passKind (field (beat 1) 108 4) = some .event ∧ s.devLine (field (beat 1) 112 16) = some line77 ∧ line77.entry.valid = true ∧
      bitAt line77.entry.ingress 7 = true ∧ (field (beat 1) 80 20 : BitVec 20).toNat < 2 ^ line77.entry.eventBits.toNat ∧
      (s.passAt 7).seqRef = some 7 ∧ bitAt (beat 1) 107 = true ∧ field (beat 1) 8 8 ≠ (7 + 1 : BitVec 8)) := by decide +kernel

theorem witness_PassResetDropsAndRestoresLive :
    (up.passAt 7).resetN = false ∧ (up.passAt 7).live = false ∧ (up.passAt 7).pclk = none ∧ up.running = true ∧ up.boot.campReady = true ∧ up.pwr.state = 0 := by decide +kernel

/-- The handle of event 3 of requester 77. -/
def h77 : Handle := { cls := 2, req := 77, evt := 3 }

/-- A record as it waits at couloir input 11. -/
def wiredRec (h : Handle) (k : RKind) : Rec :=
  { origin := .handle h, kind := k, payload := 0, srcTime := 4990, input := 11, arrival := 0, replayed := false, count := 0, unchecked := false,
    devGen := 1, wid := none, snap := false, written := false, raw := 0, par := 0 }

theorem witness_SyncCompletesOrTimesOut :
    let item : PassItem := .sync 9 true 77 4000 (some 5)
    let s := { up with pass := [(0, { PassPort.reset with live := true, resetN := true, credit := 31, buf := [item] })] }
    let first : PassItem := .record { wiredRec h77 .event with input := 0 }
    let t := { s with clk := { s.clk with ticks := 6000 }, pass := [(0, { PassPort.reset with live := true, resetN := true, credit := 30, buf := [first, item] })] }
    (s.running = true ∧ (s.passAt 0).buf = [] ++ item :: [] ∧ s.inFlight (fun r => r.fromDoorbell && arrHigher 5 r.arrival) = false ∧
      (∀ r ∈ s.inqAt 8, r.fromDoorbell = true → arrHigher 5 r.arrival = false) ∧ s.inFlight (fun r => r.input == 0) = false ∧
      s.clk.ticks < 4000 + 2000) ∧
    (t.running = true ∧ (t.passAt 0).buf = [first] ++ item :: [] ∧ 4000 + 2000 ≤ t.clk.ticks) := by decide +kernel

theorem witness_DoorbellFormsOneRecord :
    let s := { up with xl := { up.xl with devCache := [line77] } }
    let m := { master := 77, tag := 1, arrival := 0 : Marker }
    let f := { up with door := { up.door with markers := List.replicate 16 m } }
    (s.running = true ∧ s.cp.wbuf = [] ∧ field (77 : BitVec 16) 4 12 ≠ (0xFF0 : BitVec 12) ∧ field (0x50000000F : Word) 20 12 = (0 : BitVec 12) ∧
      s.devLine 77 = some line77 ∧ line77.entry.valid = true ∧ bitAt line77.entry.ingress 8 = true ∧
      (field (0x50000000F : Word) 0 20 : BitVec 20).toNat < 2 ^ line77.entry.eventBits.toNat) ∧
    field (0x100000 : Word) 20 12 ≠ (0 : BitVec 12) ∧
    ((∀ n, n < 8 → ∀ a, PassItem.sync (field (5 : Word) 0 16) true 77 a none ∉ (up.passAt n).buf) ∧ up.door.markers.length < 16) ∧
    ((∀ n, n < 8 → ∀ a, PassItem.sync (field (5 : Word) 0 16) true 77 a none ∉ (f.passAt n).buf) ∧ f.door.markers.length = 16) := by
  have none7 : ∀ (s : State), s.pass = [] → ∀ n, n < 8 → ∀ a, PassItem.sync (field (5 : Word) 0 16) true 77 a none ∉ (s.passAt n).buf := by
    intro s hs n _ a h
    have e : (s.passAt n).buf = [] := by unfold State.passAt; rw [hs]; rfl
    rw [e] at h; cases h
  exact ⟨by decide +kernel, by decide +kernel, ⟨none7 _ rfl, by decide +kernel⟩, ⟨none7 _ rfl, by decide +kernel⟩⟩

theorem up_xl : XlatShape up.xl := ⟨rfl, rfl, rfl, rfl, rfl, rfl⟩

/-- `up` with one record at couloir input 11. -/
def at11 (r : Rec) (x : Source) : State := { up with inq := [(11, [r])], wired := { up.wired with src := [(3, x)] } }

/-- Where only input `k` may beside input `i` present a record to a couloir, and loses to it, every rival loses. -/
theorem beats_rivals {s : State} {p i k : Nat} (h : ∀ j, j < 12 → j ≠ i → s.couloirHead p j = none ∨ j = k) (hb : s.couloirBeats p i k) :
    ∀ j y, (j ≠ i ∧ s.contends p j y) → s.couloirBeats p i j := by
  intro j y hj
  rcases h j hj.2.1 hj.1 with h | rfl
  · rw [hj.2.2.1] at h; cases h
  · exact hb

theorem witness_CouloirGrantTranslatesByClass :
    let r0 := wiredRec (srcHandle 3) .event
    let r2 := wiredRec h77 .event
    let r7 := { r2 with input := 7 }
    let port7 := [(7, { PassPort.reset with live := true, resetN := true, credit := 31, buf := [.record r7] })]
    let a := { at11 r0 { Source.reset with trigger := 1, prio := 9, target := 40 } with pass := port7 }
    let b := at11 r0 { Source.reset with trigger := 1 }
    let c := at11 r2 { Source.reset with trigger := 1 }
    let d := { up with pass := port7 }
    let fits (s : State) (r : Rec) (i : Nat) : Prop :=
      s.ridgeOf 0 < 5 ∧ s.couloirOpen 0 = true ∧ s.noRoom 0 r = false ∧ s.contends 0 i r ∧ (s.posAt 0).withhold = false ∧
        ∀ j y, j ≠ i ∧ s.contends 0 j y → s.couloirBeats 0 i j
    let falls (s : State) (r : Rec) (h : Handle) : Prop :=
      r.input = 11 ∧ r.origin = .handle h ∧ r.wid = none ∧ (s.posAt 0).blocks h = false ∧ s.overflows h.cls = false
    XlatShape a.xl ∧ XlatShape b.xl ∧ XlatShape c.xl ∧ XlatShape d.xl ∧ a.contends 0 7 r7 ∧
    (fits a r0 11 ∧ fits b r0 11 ∧ fits c r2 11 ∧ fits d r7 7) ∧
    (falls a r0 (srcHandle 3) ∧ (srcHandle 3).cls = 0 ∧ (a.directRoute (handleSrc (srcHandle 3))).prio ≠ 0 ∧
      (a.directRoute (handleSrc (srcHandle 3))).virt = false ∧
      (Tbl.get [] (a.posAt 0).egress (ledgeOf ((a.directRoute (handleSrc (srcHandle 3))).target.setWidth 9))).length < 8) ∧
    (falls b r0 (srcHandle 3) ∧ (b.directRoute (handleSrc (srcHandle 3))).prio = 0 ∧ r0.kind ≠ .withdraw) ∧
    (falls c r2 h77 ∧ h77.cls = 2 ∧ c.devLine h77.req = none ∧ ∀ w ∈ (c.posAt 0).walks, w.handle ≠ h77) := by
  refine ⟨up_xl, up_xl, up_xl, up_xl, ⟨?_, ?_, ?_, ?_⟩,
    ⟨⟨?_, ?_, ?_, ⟨?_, ?_, ?_, ?_⟩, ?_, beats_rivals (k := 7) ?_ (.inl ?_)⟩, ⟨?_, ?_, ?_, ⟨?_, ?_, ?_, ?_⟩, ?_, beats_rivals (k := 0) ?_ (.inl ?_)⟩,
      ⟨?_, ?_, ?_, ⟨?_, ?_, ?_, ?_⟩, ?_, beats_rivals (k := 0) ?_ (.inl ?_)⟩, ⟨?_, ?_, ?_, ⟨?_, ?_, ?_, ?_⟩, ?_, beats_rivals (k := 0) ?_ (.inr ?_)⟩⟩,
    ?_, ?_, ?_⟩ <;> decide +kernel

/-- `up` with one outstanding walk of `h77` at position 0. -/
def walking (readDev : Bool) (owner : MemOwner) (res : Option (BitVec 2)) : State :=
  { up with
    mem := { up.mem with done := [(owner, res)] },
    xl := { up.xl with
      pos := [{ Pos.reset with walks := [{ handle := h77, queue := [wiredRec h77 .event], readDev := readDev, gotDev := false, started := 4000 }] },
              Pos.reset, Pos.reset, Pos.reset],
      dev := [(77, { DevEntry.reset with valid := true, eventBits := 20, ingress := 0x1FF, devGen := 1 })],
      evt := [(77 * 2 ^ 20 + 3, { EvtEntry.reset with valid := true, gen := 1, route := { Route.reset with target := 40, prio := 9 } })] } }

theorem witness_WalkCompleteUsesItsReads :
    let s := walking false (.walkEvt 0 h77) none
    let t := walking true (.walkDev 0 h77) (some 1)
    let w (b : Bool) : Walk := { handle := h77, queue := [{ wiredRec h77 .event with input := 0 }], readDev := b, gotDev := false, started := 4000 }
    let s := { s with xl := { s.xl with pos := [{ Pos.reset with walks := [w false] }, Pos.reset, Pos.reset, Pos.reset] } }
    let r := { wiredRec h77 .event with input := 0 }
    XlatShape s.xl ∧ XlatShape t.xl ∧
    (s.ridgeOf 0 < 5 ∧ s.running = true ∧ (s.posAt 0).unserved = none ∧ (s.posAt 0).stopped = false ∧ (s.posAt 0).blocks h77 = false ∧
      (s.devEntry 77).valid = true ∧ (s.devEntry 77).pinned = false ∧ h77.evt.toNat < 2 ^ (s.devEntry 77).eventBits.toNat ∧ (s.posAt 0).walks.find? (fun y => y.handle == h77) = some (w false) ∧
      (w false).queue = [r] ∧ s.mem.done = [(.walkEvt 0 h77, none)] ∧ recCheck r h77 (s.devEntry 77) = none ∧ (s.evtEntry 77 3).valid = true ∧
      (s.evtEntry 77 3).gen = (s.devEntry 77).devGen ∧ r.kind = .event ∧ (s.evtEntry 77 3).route.level = false ∧ (s.evtEntry 77 3).route.prio ≠ 0 ∧
      (s.evtEntry 77 3).route.virt = false ∧ (Tbl.get [] (s.posAt 0).egress (ledgeOf ((s.evtEntry 77 3).route.target.setWidth 9))).length < 8 ∧
      r.origin = .handle h77 ∧ s.overflows 2 = false) ∧
    (t.ridgeOf 0 < 5 ∧ t.running = true ∧ (t.posAt 0).unserved = none ∧ (t.posAt 0).stopped = false ∧ ((t.posAt 0).walks.find? (fun y => y.handle == h77)).isSome = true ∧
      t.mem.done = [(.walkDev 0 h77, some 1)] ∧ canReport t (.ridge 0) 0x09 14 (BitVec.ofNat 16 (16 + t.ridgeOf 0))) := by
  refine ⟨⟨rfl, rfl, rfl, ?_, ?_, ?_⟩, ⟨rfl, rfl, rfl, ?_, ?_, ?_⟩, ?_, ?_, ?_, ?_, ?_, ?_, ?_, ?_, ?_⟩ <;> decide +kernel

/-- A routed record for target 40. -/
def routed (h : Handle) (k : RKind) : Routed :=
  { record := wiredRec h k, serial := 12, route := { Route.reset with target := 40, prio := 9, vector := 3 }, target := 40, ring := 0, slot := none,
    biv := none }

/-- A pending instance at target 40, of handle `h`, with serial `n`. -/
def inst (h : Handle) (n : BitVec 32) : Inst :=
  { origin := .handle h, serial := n, more := [], level := false, prio := 9, payload := 0, vector := 3, replayed := false, counted := false, count := 0,
    target := 40, ring := 0, slot := none, input := 11, arrival := 0, landed := 4000, settle := false, group := 0, due := false, spilled := false,
    openEntry := false, line := 0, refilled := false, moving := false, promoted := false, newPrio := none }

theorem witness_PlainTransferComparesCopies :
    let i : PItem := .record (routed (srcHandle 3) .event)
    let s := { up with xl := { up.xl with pos := [{ Pos.reset with egress := [(1, [i])] }, Pos.reset, Pos.reset, Pos.reset] } }
    XlatShape s.xl ∧ s.running = true ∧ (s.posAt 0).unserved = none ∧ Tbl.get [] (s.posAt 0).egress 1 = i :: [] ∧ (s.posAt 0).hold = [] ∧
      (s.posAt 0).parked = [] ∧ (s.posAt 0).stuck = [] ∧ s.landingRoom 0 i = true ∧ (s.servingBelay i.target.toNat).isSome = true ∧ (s.plainAt (16 * s.ridgeOf 0 + 1)).retired = none ∧
      canReport s (.other (0x30000 + 1)) 0x07 3 (BitVec.ofNat 16 1) ∧ (s.plainAt (16 * s.ridgeOf 0 + 1)).lastUnc = none := by
  refine ⟨⟨rfl, rfl, rfl, rfl, rfl, rfl⟩, ?_, ?_, ?_, ?_, ?_, ?_, ?_, ?_, ?_, ⟨?_, ?_, ?_⟩, ?_⟩ <;> decide +kernel

/-- An outstanding memory request. -/
def request (id : BitVec 8) (o : MemOwner) (w : Bool) : MemReq :=
  { id := id, act := 8, scope := 0, unit := 0, above := false, qos := 0, par := 0, input := 20, owner := o, write := w, addr := 0, data := 0, inRation := true, again := false, since := 3000 }

theorem witness_MemoryAnswersAndTimeouts :
    let r1 := request 255 (.walkEvt 0 h77) false
    let r2 := request 255 .config true
    let r3 := request 255 .scrub false
    let s (r : MemReq) : State := { up with mem := { up.mem with out := [r] } }
    (∀ r ∈ [r1, r2, r3], (s r).running = true ∧ (s r).mem.waits = [] ∧ (s r).mem.queued = [] ∧ (s r).rat.contract = none ∧
      (s r).mem.out.find? (fun q => q.id == 255 && q.write == r.write) = some r) ∧
    (r1.owner = .walkEvt 0 h77 ∧ r1.write = false) ∧ r2.write = true ∧ (s r1).mem.out.find? (fun q => q.id == 254 && q.write == false) = none ∧
    (r3.owner = .scrub ∧ r3.again = false ∧ r3.write = false ∧ (3 : BitVec 2) ≠ 0) ∧
    (s r3).mem.out.find? (fun q => q.id == 255 && decide (q.since + 2000 ≤ (s r3).clk.ticks)) = some r3 := by decide +kernel

theorem witness_RoundBoundaryRestartsTheCounts :
    let s := { up with rat := { up.rat with nextContract := some { bytes := 64, latency := 800, percentile := 9990, keepWarm := false } } }
    (s.running = true ∧ s.cairn.held = [] ∧ s.rat.waiters = [] ∧ (∀ f ∈ s.frame, f.2.limit = 0) ∧ s.rat.nextContract.isSome = true) ∧
      up.rat.nextContract = none ∧ ∀ a sc u, (s.quotaAt a sc u).round ≤ s.rat.round :=
  ⟨by decide +kernel, by decide +kernel, fun _ _ _ => Nat.le_refl 0⟩

theorem witness_WindowStarvationAndWarmth :
    let s := { up with rat := { up.rat with windowRounds := 1024 } }
    let t := { up with arb := { up.arb with limit := [(5, 100)], req := [(60 + 19, { ArbReq.init 4 with wait := 101 })] } }
    let w := { up with
      rat := { up.rat with contract := some { bytes := 64, latency := 800, percentile := 9990, keepWarm := true } }, boot := { up.boot with tableSize := 64 } }
    (s.running = true ∧ 1024 ≤ s.rat.windowRounds) ∧
    (t.running = true ∧ arbKey 5 19 = some 79 ∧ Tbl.get 0 t.arb.limit 5 ≠ 0 ∧ (Tbl.get 0 t.arb.limit 5).toNat < (t.arbAt 79).wait ∧
      (t.arbAt 79).told = false ∧ canReport t (.other (0x50000 + 32 * 5 + 19)) 0x19 15 (BitVec.ofNat 16 (32 * 5 + 19))) ∧
    (w.running = true ∧ w.keepWarm = true ∧ w.rat.warmAt + 5000 ≤ w.clk.ticks) := by
  refine ⟨?_, ⟨?_, ?_, ?_, ?_, ?_, ?_, ?_, ?_⟩, ?_⟩ <;> decide +kernel

/-- `up` with one item in belay 20's landing and the store of target 40 given. -/
def landed (i : PItem) (store : List Inst) : State :=
  { up with bel := [(20, { Belay.reset with landing := [{ pos := 0, item := i }] })], tgt := [(40, { Target.reset with present := true, store := store })] }

theorem witness_LandedRecordsInsertOrWithdraw :
    let e := routed h77 .event
    let w := routed (srcHandle 3) .withdraw
    let s := { landed (.record e) [] with log := [(12, { LogEntry.reset with origin := .handle h77, state := 1 })] }
    let m := landed (.moved (inst h77 13) none) [inst (srcHandle 3) 11]
    let t := landed (.record w) [inst (srcHandle 3) 11]
    let u := landed (.record w) []
    (∀ x ∈ [(s, PItem.record e), (m, .moved (inst h77 13) none), (t, .record w), (u, .record w)],
      x.1.running = true ∧ x.1.servingBelay (2 * 20) = some 20 ∧ (x.1.belAt 20).landing = { pos := 0, item := x.2 } :: [] ∧ x.2.target.toNat / 2 = 20 ∧
        x.1.wired.waiting = []) ∧
    (e.record.origin = .handle h77 ∧ e.biv = none ∧ roomy s e.target.toNat ∧ e.record.kind = .event ∧ e.route.cgroup = 0 ∧
      e.record.count = 0 ∧ (s.logAt e.serial.toNat).state = 1) ∧
    (roomy m 40 ∧ (∀ y ∈ (m.tgtAt 40).store, y.serial ≠ 13)) ∧
    (w.record.kind = .withdraw ∧ w.record.origin = .handle (srcHandle 3) ∧
      t.pendingHere w (srcHandle 3) = some (inst (srcHandle 3) 11, none) ∧ u.pendingHere w (srcHandle 3) = none) := by
  refine ⟨?_, ⟨?_, ?_, ⟨?_, ?_⟩, ?_, ?_⟩, ⟨⟨?_, ?_⟩, ?_⟩, ?_⟩ <;> decide +kernel

/-- `landed` with the tables that route `h77` to target 41. -/
def moved77 (i : PItem) : State :=
  let s := landed i [inst h77 11]
  { s with xl := { s.xl with
      pos := [{ Pos.reset with moves := [{ handle := h77, target := 40, done := false }] }, Pos.reset, Pos.reset, Pos.reset],
      dev := [(77, { DevEntry.reset with valid := true, eventBits := 20, ingress := 0x1FF, devGen := 1 })],
      evt := [(77 * 2 ^ 20 + 3, { EvtEntry.reset with valid := true, gen := 1, route := { Route.reset with target := 41, prio := 9 } })] } }

theorem witness_NoticesMoveAndReRank :
    (∀ i ∈ ([.rerank h77 7 40, .rerank h77 0 40, .moveNotice h77 40] : List PItem),
      let s := moved77 i
      XlatShape s.xl ∧ s.running = true ∧ s.servingBelay (2 * 20) = some 20 ∧ (40 : BitVec 9).toNat / 2 = 20 ∧ roomy s 40 ∧ notActive s h77 ∧
        notBivouacked s h77 ∧ (s.belAt 20).landing = { pos := 0, item := i } :: [] ∧ (s.tgtAt 40).store.filter (fun y => y.isOf h77) = [inst h77 11]) ∧
    (let s := moved77 (.moveNotice h77 40)
     (∀ k y, y ∈ (s.tgtAt k).store → y.origin = .handle h77 → k = 40) ∧ Tbl.wf Target.reset s.tgt = true ∧
      s.routeOf h77 = some { Route.reset with target := 41, prio := 9 } ∧ s.posOf h77 = 0 ∧ (s.posAt 0).waits = [] ∧ (s.posAt 0).stuck = [] ∧
      (s.posAt (s.posOf h77)).moves = [{ handle := h77, target := 40, done := false }]) ∧
    (moved77 (.moveNotice h77 40)).servingBelay (2 * 20) = some 20 := by
  refine ⟨?_, ⟨?_, ?_, ?_, ?_, ?_, ?_⟩, ?_⟩
  · intro i hi
    simp only [List.mem_cons, List.not_mem_nil, or_false] at hi
    rcases hi with rfl | rfl | rfl <;> refine ⟨⟨?_, ?_, ?_, ?_, ?_, ?_⟩, ?_, ?_, ?_, ⟨?_, ?_⟩, ⟨?_, ?_⟩, ?_, ?_, ?_⟩ <;> first | decide +kernel | (intro p hp; cases hp)
  · intro k y hy _
    by_cases hk : k = 40
    · exact hk
    · rw [show (State.tgtAt (moved77 (.moveNotice h77 40)) k).store = [] by simp [moved77, landed, State.tgtAt, Tbl.get, Ne.symm hk]; rfl] at hy; cases hy
  all_goals decide +kernel

theorem witness_HoldsLift :
    let a := landed (.moveNotice h77 40) [{ inst h77 11 with settle := true }]
    let x := { inst h77 11 with group := 5, counted := true, count := 1 }
    let b := { landed (.moveNotice h77 40) [x] with grp := [(5, { Group.reset with time := 100, pending := true })] }
    let c := { up with ctx := [(2047, { Ctx.reset with used := true, vt := 7, target := 40, refilling := true })] }
    let y := { inst h77 11 with spilled := true, openEntry := true }
    let d := { landed (.moveNotice h77 40) [y] with mem := { up.mem with done := [(.refill 40 11, none)] } }
    (a.running = true ∧ a.settling 11 = some 40) ∧
    (b.running = true ∧ b.pendingOfGroup 5 = some (40, x) ∧ x.landed.toNat + (b.grpAt 5).time.toNat + 1 ≤ b.clk.time.toNat) ∧
    (c.running = true ∧ (c.ctxAt 2047).used = true ∧ (c.ctxAt 2047).refilling = true ∧ (c.vtAt (c.ctxAt 2047).vt.toNat).bivouac = []) ∧
    (d.running = true ∧ d.servingBelay 40 = some 20 ∧ d.mem.done = (.refill (BitVec.ofNat 9 40) 11, none) :: [] ∧
      (d.tgtAt 40).store.find? (fun z => z.serial == 11) = some y ∧ d.onChip 40 < 512 ∧ y.group = 0 ∧ y.moving = false ∧ y.newPrio = none ∧
      ∀ z ∈ (d.tgtAt 40).store, z.spilled = true → z.serial = 11) := by decide +kernel

/-- Target 40 with two pending wired instances, of priorities 9 and 12. -/
def two : State := landed (.moveNotice h77 40) [inst (srcHandle 3) 11, { inst (srcHandle 4) 12 with prio := 12 }]

theorem claimable_two (a : Nat × Inst) (h : claimable two 40 0 none a) : a = (0, inst (srcHandle 3) 11) ∨ a = (1, { inst (srcHandle 4) 12 with prio := 12 }) := by
  have := h.1
  have e : two.storeOf 40 = [(0, inst (srcHandle 3) 11), (1, { inst (srcHandle 4) 12 with prio := 12 })] := by decide +kernel
  rw [e] at this
  simpa using this

theorem witness_ClaimsTakeTheHighestRanked :
    let best : Nat × Inst := (1, { inst (srcHandle 4) 12 with prio := 12 })
    two.frameOf (.phys 40 0) = some (40, 0, none) ∧ up.frameOf (.phys 511 3) = some (511, 3, none) ∧
    two.readWaits (frameNumber (.phys 40 0)) 0 = false ∧ up.readWaits (frameNumber (.phys 511 3)) 0 = false ∧
    (two.running = true ∧ two.servingBelay 40 = some (40 / 2) ∧ (two.pairAt 160).stack.length < 16 ∧ roomy two 40 ∧ claimable two 40 0 none best ∧
      (∀ a, claimable two 40 0 none a → a ≠ best → rankAbove best a = true) ∧ best.2.origin = .handle (srcHandle 4) ∧ (srcHandle 4).cls = 0) ∧
    (∀ a, ¬claimable up 511 3 none a) ∧ up.servingBelay 511 = some (511 / 2) := by
  refine ⟨?_, ?_, ?_, ?_, ⟨?_, ?_, ?_, ⟨?_, ?_⟩, ⟨?_, ?_, ?_, ?_, ?_, ?_⟩, ?_, ?_, ?_⟩, ?_, ?_⟩
  any_goals decide +kernel
  · intro h e
    have : h = srcHandle 4 := by injection e with e; exact e.symm
    subst this
    decide +kernel
  · intro a ha hne
    rcases claimable_two a ha with rfl | rfl
    · decide +kernel
    · exact absurd rfl hne
  · intro a h
    have := h.1
    rw [show up.storeOf 511 = [] by decide +kernel] at this
    cases this

/-- An active edge message instance. -/
def active (n : BitVec 32) : Active :=
  { inst := inst h77 n, word := (inst h77 n).word, asserted := false, recorded := none, marked := false, notices := false }

theorem witness_CompletionsRetireOrAreStray :
    let s := { landed (.moveNotice h77 40) [] with pair := [(160, { Pair.reset with stack := [active 11] })] }
    let w := (inst h77 11).word
    let t := { s with tgt := [] }
    (s.running = true ∧ s.servingBelay 40 = some (40 / 2) ∧ roomy s 40 ∧
      (s.pairAt 160).stack.find? (fun a => a.inst.slot == none && (field a.word 59 2 : BitVec 2) == field w 59 2 && (field a.word 0 32 : BitVec 32) == field w 0 32) =
        some (active 11) ∧ (active 11).inst.origin = .handle h77) ∧
    ((∀ a ∈ (s.pairAt 160).stack, ((field a.word 59 2 : BitVec 2) == field (0 : Word) 59 2) = false) ∧ (s.frameAt 160).strayCount + 1 ≠ (s.frameAt 160).strayLimit.setWidth 32 ∧
      (s.frameAt 160).strayCount ≠ 0xFFFFFFFF) ∧
    ((t.tgtAt 40).present = false ∧ t.running = true ∧ t.servingBelay 40 = some 20 ∧ roomy t 40 ∧ bitAt (1 : Word) 0 = true ∧
      ∀ a ∈ (t.pairAt 160).stack, a.inst.slot = none ∧ a.inst.origin.cls = 2 ∧ a.inst.level = false ∧ a.inst.group = 0) ∧
    (s.tgtAt 40).present = true := by
  refine ⟨⟨?_, ?_, ⟨?_, ?_⟩, ?_, ?_⟩, ?_, ⟨?_, ?_, ?_, ⟨?_, ?_⟩, ?_, ?_⟩, ?_⟩ <;> decide +kernel

theorem witness_TargetPinsAreSeen :
    let s := landed (.moveNotice h77 40) [inst h77 11]
    let t := { s with tgt := [(511, { Target.reset with store := [inst h77 11] })], clk := { s.clk with ticks := 10000 } }
    (s.running = true ∧ Tbl.wf Target.reset s.tgt = true ∧ Tbl.wf Pair.reset s.pair = true ∧ (s.tgtAt 40).present = true) ∧
    (t.running = true ∧ (t.servingBelay 511).isSome = true ∧ (t.tgtAt 511).present = false ∧ (t.tgtAt 511).absTold = false ∧ (t.tgtAt 511).store ≠ [] ∧
      (t.tgtAt 511).absSince + 10000 ≤ t.clk.ticks ∧ canReport t (.belay (511 / 2)) 0x12 10 (BitVec.ofNat 16 511)) := by
  refine ⟨?_, ?_, ?_, ?_, ?_, ?_, ?_, ?_, ?_, ?_⟩ <;> decide +kernel

/-- A valley link's configuration: one lane, lane 0 of quad 3, 16 sources, 128 of the reset values. -/
def cfg15 : LinkCfg := { LinkCfg.reset with quad := 3, firstLane := 3, width := 1, sources := 16, snapPeriod := 100 }

/-- `up` with link 15 configured, in state `st`, otherwise as `f` leaves it; its quad has power and locks. -/
def link (st : BitVec 3) (f : Link → Link) : State :=
  { up with
    links := [(15, f { Link.reset with cfg := some cfg15, state := st, wantUp := true, train := { Training.reset with use := 1 } })],
    quads := [(3, { Quad.reset with refOk := true, pllA := true, pllB := true, calDone := true, powered := true })],
    clk := { up.clk with ticks := 200000, time := 200000 } }

/-- A flit of 224 bits before its CRC, of a type and a SEQ, with an acknowledgement and a payload. -/
def flit (type : BitVec 4) (seq ack : BitVec 12) (payload : BitVec 192) : BitVec 256 := flitOf (flitBody type false false seq ack payload)

theorem witness_FlitReceiveFollowsItsSequence :
    let s := link 5 id
    let r := link 5 (fun l => { l with tx := { l.tx with seq := 1, replay := [flit 4 0 0 0] } })
    let ahead (f : BitVec 256) : Nat := ((field f 8 12 : BitVec 12) - (s.linkAt 15).rx.expect).toNat
    let good := flit 4 0 0xFFF 0xF1
    let dup := flit 4 0xFFF 0xFFF 0
    let early := flit 4 3 0xFFF 0
    let ack := flit 0 0 0 0
    (∀ q ∈ [s, r], q.running = true ∧ (q.linkAt 15).state = 5 ∧ (q.linkAt 15).rxIdle = false ∧ (q.linkAt 15).cfg = some cfg15) ∧
    (cfg15.auth = false ∧ cfg15.col = false ∧ cfg15.paired = false) ∧
    (crc32 (good ^^^ 1) 28 ≠ field (good ^^^ 1) 224 32 ∧ (s.linkAt 15).rx.settleEnd ≤ s.clk.ticks ∧ (s.linkAt 15).rx.crcRun < 7) ∧
    (crc32 good 28 = field good 224 32 ∧ field good 0 4 = (4 : BitVec 4) ∧ bitAt good 4 = false ∧ (s.linkAt 15).tx.replay = [] ∧ ahead good = 0 ∧
      field good 32 4 = (1 : BitVec 4) ∧ field good 128 96 = (0 : BitVec 96) ∧ (field good 36 12 : BitVec 12).toNat < cfg15.sources) ∧
    (crc32 dup 28 = field dup 224 32 ∧ field dup 0 4 = (4 : BitVec 4) ∧ bitAt dup 4 = false ∧ 2048 ≤ ahead dup) ∧
    (crc32 early 28 = field early 224 32 ∧ field early 0 4 = (4 : BitVec 4) ∧ bitAt early 4 = false ∧ 0 < ahead early ∧ ahead early < 2048 ∧
      (s.linkAt 15).rx.asked ≠ some (s.linkAt 15).rx.expect) ∧
    (crc32 ack 28 = field ack 224 32 ∧ field ack 0 4 = (0 : BitVec 4) ∧ bitAt ack 4 = false ∧ (r.linkAt 15).tx.replay = [flit 4 0 0 0] ∧
      field ack 20 12 = (r.linkAt 15).tx.seq - 1 ∧ (r.linkAt 15).tx.queue = []) := by
  refine ⟨?_, ?_, ?_, ?_, ?_, ?_, ?_⟩ <;> decide +kernel

theorem witness_LinkTimersAct :
    let a := link 5 (fun l => { l with tx := { l.tx with replay := [flit 4 0 0 0], timer := 199800, expiries := 6 } })
    let b := link 5 (fun l => { l with tx := { l.tx with replay := [flit 4 0 0 0], timer := 199800, expiries := 7 } })
    let c := link 5 (fun l => { l with tx := { l.tx with ackOwed := true } })
    let d := link 5 (fun l => { l with snapWait := true, snapAsked := 198000, txIdle := true, snapAt := 160000 })
    let e := link 4 (fun l => { l with rx := { l.rx with capSentAt := 199900 } })
    (∀ s ∈ [a, b, c, d, e], s.running = true ∧ (s.linkAt 15).cfg = some cfg15) ∧
    ((a.linkAt 15).state = 5 ∧ (a.linkAt 15).tx.replay ≠ [] ∧ (a.linkAt 15).tx.timer + 200 ≤ a.clk.ticks ∧ (a.linkAt 15).tx.expiries < 7) ∧
    ((b.linkAt 15).tx.timer + 200 ≤ b.clk.ticks ∧ 7 ≤ (b.linkAt 15).tx.expiries ∧ canReport b (.other (0x90000 + 15)) 0x0D 5 (BitVec.ofNat 16 15)) ∧
    ((c.linkAt 15).state = 5 ∧ (c.linkAt 15).txIdle = false ∧ (c.linkAt 15).tx.ackOwed = true) ∧
    ((d.linkAt 15).state = 5 ∧ (d.linkAt 15).snapWait = true ∧ (d.linkAt 15).snapAsked + 2000 ≤ d.clk.ticks ∧ (d.linkAt 15).txIdle = true ∧
      (d.linkAt 15).snapAt + 400 * cfg15.snapPeriod ≤ d.clk.ticks) ∧
    ((e.linkAt 15).state = 4 ∧ (e.linkAt 15).rx.capSeen = false ∧ (e.linkAt 15).rx.capSentAt + 100 ≤ e.clk.ticks) := by
  refine ⟨?_, ?_, ⟨?_, ?_, ⟨?_, ?_, ?_⟩⟩, ?_, ?_, ?_⟩ <;> decide +kernel

/-- A burst: an ENTRY flit of two NOPs, SEQ 0, and its TAG flit, SEQ 1, whose tag is AES-128-GMAC under key 5, salts 0, zone side, XSEQ 1. -/
def burst : BitVec 256 × BitVec 256 :=
  (0x295a6b97000000000000000000000000000000000000000000000000fff00004, 0xb215373a0000000000000001fc55351d33e814961324de2353673f7cfff00105)

/-- `link` with AUTH set, key 5 in slot 0, and the burst held, its TAG as `f` leaves it. -/
def burstHeld (f : BitVec 256 → BitVec 256) : State :=
  link 5 (fun l =>
    { l with cfg := some { cfg15 with auth := true }, keys := [some 5, none], rx := { l.rx with hold := [(burst.1, 199000), (f burst.2, 199001)], xseq := 2, expect := 2 } })

theorem witness_BurstsAndOrphansLeave :
    let a := link 5 (fun l => { l with tx := { l.tx with burst := [flitBody 4 false false 0 0 0], burstAt := 199996 } })
    let b := burstHeld id
    let c := burstHeld (fun t => t ^^^ (1 <<< 40))
    let d := link 5 (fun l => { l with orphaned := true, releasing := true, txIdle := true, orphans := [1, 2] })
    let e := link 5 (fun l => { l with orphaned := true, releasing := true, orphans := [1] })
    (∀ s ∈ [a, b, c, d, e], s.running = true ∧ (s.linkAt 15).state = 5 ∧ (s.linkAt 15).cfg.isSome = true) ∧
    ((a.linkAt 15).tx.xseq + 2 < 2 ^ 55 ∧ (a.linkAt 15).tx.burst ≠ [] ∧ (a.linkAt 15).tx.burstAt + 4 ≤ a.clk.ticks ∧
      (a.linkAt 15).tx.replay.length < 256 ∧ (a.linkAt 15).tx.queue = [] ∧ (a.linkAt 15).tx.crcFlips = 0) ∧
    (takeBurst (b.linkAt 15).rx.hold = some ([(burst.1, 199000)], burst.2, []) ∧ b.burstGood 15 [burst.1] burst.2 0 = true ∧
      field burst.1 32 192 = (0 : BitVec 192)) ∧
    (takeBurst (c.linkAt 15).rx.hold = some ([(burst.1, (199000 : BitVec 48))], burst.2 ^^^ (1 <<< 40 : BitVec 256), []) ∧ c.burstGood 15 [burst.1] (burst.2 ^^^ (1 <<< 40)) 0 = false ∧
      (c.linkAt 15).rx.authTimes = [] ∧ canReport c (.other (0x90000 + 15)) 0x0E 5 (BitVec.ofNat 16 15)) ∧
    ((d.linkAt 15).orphaned = true ∧ (d.linkAt 15).releasing = true ∧ d.snapQueued 15 = false ∧ (d.linkAt 15).txIdle = true) ∧
    ((e.linkAt 15).orphaned = true ∧ (e.linkAt 15).releasing = true ∧ e.snapQueued 15 = false ∧ (e.linkAt 15).txIdle = false ∧
      (e.linkAt 15).orphans = [1] ∧ (e.linkAt 15).tx.queue = [] ∧ (e.linkAt 15).tx.burst = [] ∧ (e.linkAt 15).tx.replay.length < 256 ∧
      (e.linkAt 15).tx.xseq + 2 < 2 ^ 55) := by
  refine ⟨?_, ?_, ?_, ⟨?_, ?_, ?_, ⟨?_, ?_, ?_⟩⟩, ?_, ?_⟩ <;> decide +kernel

theorem witness_ColLinkTimersAct :
    let s := { link 5 (fun l => { l with cfg := some { cfg15 with col := true } }) with partner := { up.partner with everUp := true, lastHb := 194000, hbSentAt := 198000 } }
    let t := { s with links := [(15, { s.linkAt 15 with owedShared := 3, owedAt := 199900, txIdle := true })] }
    (s.running = true ∧ s.colLink = some 15 ∧ t.colLink = some 15) ∧
    ((s.linkAt 15).state = 5 ∧ (s.linkAt 15).txIdle = false ∧ s.rope.hbRunning = true ∧ s.partner.hbSentAt + 2000 ≤ s.clk.ticks) ∧
    (s.partner.everUp = true ∧ s.partner.lost = false ∧ s.partner.lastHb + 6000 ≤ s.clk.ticks ∧ (∀ j, j < 16 → (s.linkAt j).peerUp ≠ some false) ∧
      canReport s (.other (0x90000 + 15)) 0x0F 5 (BitVec.ofNat 16 15)) ∧
    ((t.linkAt 15).state = 5 ∧ 0 < (t.linkAt 15).owedShared ∧ (t.linkAt 15).owedAt + 100 ≤ t.clk.ticks ∧ (t.linkAt 15).txIdle = true) := by
  refine ⟨?_, ?_, ⟨?_, ?_, ?_, ?_, ⟨?_, ?_, ?_⟩⟩, ?_⟩ <;> decide +kernel

theorem witness_TrainingLocksAndFreezes :
    let a := link 1 id
    let b := link 3 (fun l => { l with train := { l.train with stage := .locking, start := 160000 } })
    let held (stage : TrainStage) : State := { link 3 (fun l => { l with train := { l.train with stage := stage, start := 160000, locked := 1 } }) with
      lanes := [(15, { Lane.reset with locked := true, info := infoWord 0 0 1 true false 0 false })] }
    let c := held .locking
    let d := held .frozen
    let ready : BitVec 64 := 0x0110
    (∀ s ∈ [a, b, c, d], s.running = true ∧ (s.linkAt 15).cfg = some cfg15 ∧ s.trains (s.linkAt 15) = [(0, 15)] ∧ s.laneLink 15 = some 15) ∧
    (cfg15.width = 1 ∧ cfg15.auth = false ∧ cfg15.lanes = [15]) ∧
    ((a.linkAt 15).state = 1 ∧ (a.linkAt 15).wantUp = true ∧ a.heldFor (a.linkAt 15) = none ∧ a.rope.hbRunning = true ∧ (a.quadAt 3).ready = true ∧
      (a.laneAt 15).test = 0 ∧ (a.linkAt 15).train.lossAt + ((a.linkAt 15).train.tries + 1) * cfg15.retry * 100 ≤ a.clk.ticks) ∧
    ((b.linkAt 15).train.stage = .locking ∧ (b.linkAt 15).train.switchAt ≤ b.clk.ticks ∧ (b.laneAt 15).excluded = false ∧ (b.laneAt 15).locked = false ∧
      (field (0 : BitVec 16) 0 2 : BitVec 2).toNat < cfg15.width ∧ field (0 : BitVec 16) 2 2 = widthCode cfg15.width) ∧
    ((c.linkAt 15).state = 3 ∧ (c.linkAt 15).train.stage = .locking ∧ (c.laneAt 15).locked = true ∧ (d.linkAt 15).state = 3 ∧
      (d.linkAt 15).train.stage = .frozen ∧ max (b.linkAt 15).train.start (b.linkAt 15).train.switchAt + 10000 ≤ b.clk.ticks) ∧
    (bitAt (c.linkAt 15).train.locked 0 = true ∧ bitAt (peerInfo 0 0) 8 = false ∧
      (∀ i, i < 4 → bitAt (c.linkAt 15).train.locked i = true → bitAt (peerInfo ready i) 8 = true) ∧
      useLanes cfg15.width (c.linkAt 15).train.locked (peerMask (c.linkAt 15).train.locked ready) = 1 ∧
      useLanes cfg15.width (c.linkAt 15).train.locked (peerMask (c.linkAt 15).train.locked 0x0100) = 0 ∧ (c.linkAt 15).train.stepped = false) ∧
    ((b.linkAt 15).state = 3 ∧ (b.linkAt 15).train.stepped = false ∧ (b.linkAt 15).train.start + 40000 ≤ b.clk.ticks) := by decide +kernel

theorem witness_SteppedStartAgreesAndFallsBack :
    let cfg := { cfg15 with rate := 2 }
    let tr (f : Training → Training) : State := link 3 (fun l => { l with cfg := some cfg, train := f l.train })
    let a := tr (fun t => { t with stage := .stepping })
    let f := flitOf 0x03010000000E
    let g := flitOf 0x010001010000000E
    let b := tr (fun t => { t with stage := .stepping, agreedTx := true, agreedRx := true, chosen := 2 })
    let c := tr (fun t => { t with stage := .frozen, stepped := true, switchAt := 150000, peerRates := 7, rateNow := 2 })
    let d := tr (fun t => { t with stage := .locking, stepped := true, switchAt := 150000, peerRates := 7, rateNow := 0 })
    (∀ s ∈ [a, b, c, d], s.running = true ∧ (s.linkAt 15).cfg = some cfg ∧ (s.linkAt 15).state = 3) ∧
    ((a.linkAt 15).train.stage = .stepping ∧ (a.linkAt 15).rxIdle = false ∧ crc32 f 28 = field f 224 32 ∧ field f 0 32 = (0xE : BitVec 32) ∧
      field f 32 8 = (1 : BitVec 8) ∧ highestRate (ratesOf cfg.rate &&& field f 40 8) 4 = some 1) ∧
    (crc32 g 28 = field g 224 32 ∧ field g 0 32 = (0xE : BitVec 32) ∧ field g 32 8 = (1 : BitVec 8) ∧ cfg.auth = false ∧
      highestRate (ratesOf cfg.rate &&& field g 40 8) 4 = some 0 ∧ field g 48 8 = BitVec.ofNat 8 0 ∧ bitAt g 56 = true) ∧
    ((b.linkAt 15).train.stage = .stepping ∧ (b.linkAt 15).train.agreedTx = true ∧ (b.linkAt 15).train.agreedRx = true ∧ (b.linkAt 15).train.chosen ≠ 0) ∧
    ((c.linkAt 15).train.stage = .frozen ∧ (c.linkAt 15).train.stepped = true ∧ (c.linkAt 15).train.switchAt + 50000 ≤ c.clk.ticks ∧
      highestRate (ratesOf cfg.rate &&& (c.linkAt 15).train.peerRates) (c.linkAt 15).train.rateNow.toNat = some 1) ∧
    ((d.linkAt 15).train.stage = .locking ∧ (d.linkAt 15).train.switchAt + 50000 ≤ d.clk.ticks ∧ (d.linkAt 15).train.rateNow = 0) := by decide +kernel

theorem witness_IdleLinksWakeAndTimeOut :
    let cfg := { cfg15 with idleAfter := 5 }
    let a := link 5 (fun l => { l with cfg := some cfg, lastActive := 199500 })
    let b := link 5 (fun l => { l with cfg := some cfg, txIdle := true, txIdleAt := 110000, tx := { l.tx with ackOwed := true } })
    let c := link 5 (fun l => { l with cfg := some cfg, rxIdle := true, rxIdleAt := 100000 })
    (∀ s ∈ [a, b, c], s.running = true ∧ (s.linkAt 15).cfg = some cfg ∧ (s.linkAt 15).state = 5) ∧
    (cfg.idleAfter ≠ 0 ∧ (a.linkAt 15).txIdle = false ∧ (a.linkAt 15).tx.replay = [] ∧ (a.linkAt 15).tx.ackOwed = false ∧
      (a.linkAt 15).tx.queue = [] ∧ (a.linkAt 15).lastActive + 100 * cfg.idleAfter ≤ a.clk.ticks) ∧
    ((b.linkAt 15).txIdle = true ∧ (b.linkAt 15).tx.queue = [] ∧ (b.linkAt 15).tx.ackOwed = true ∧ (b.linkAt 15).txIdleAt + 90000 ≤ b.clk.ticks) ∧
    ((a.linkAt 15).rxIdle = false ∧ bitAt (0x4100 : BitVec 16) 14 = true ∧ bitAt (0x4100 : BitVec 16) 8 = true ∧ bitAt (0x4100 : BitVec 16) 9 = false ∧
      field (0x4100 : BitVec 16) 10 4 = (0 : BitVec 4)) ∧
    ((c.linkAt 15).rxIdle = true ∧ (c.linkAt 15).rxIdleAt + 100000 ≤ c.clk.ticks ∧ cfg.col = false ∧ cfg.paired = false ∧
      canReport c (.other (0x90000 + 15)) 0x0B 5 (BitVec.ofNat 16 15)) := by
  refine ⟨?_, ?_, ?_, ?_, ?_, ?_, ?_, ?_, ⟨?_, ?_, ?_⟩⟩ <;> decide +kernel

theorem witness_LanesAndQuadsAreWatched :
    let a := { link 5 id with lanes := [(15, { Lane.reset with signal := true, locked := true, inUse := true, rxUse := true, squelched := false })] }
    let q := { up with quads := [(3, { Quad.reset with powered := true, refOk := true, pllA := true, pllB := true })] }
    let n := { link 0 id with quads := [(3, { Quad.reset with ref := true })] }
    let c (f : Lane → Lane) : State := { up with lanes := [(15, f { Lane.reset with test := 4, chkLocked := true })] }
    let i := c (fun x => { x with armed := true, inject := 1 })
    let j := { a with lanes := [(15, { a.laneAt 15 with test := 5, armed := true, inject := 3 })] }
    (a.running = true ∧ (a.quadAt (15 / 4)).powered = true ∧ a.laneLink 15 = some 15 ∧ (a.linkAt 15).cfg = some cfg15 ∧ cfg15.col = false ∧
      cfg15.paired = false ∧ (a.linkAt 15).state = 5 ∧ (∀ n, n < 16 → bitAt ((0 : BitVec 16) ||| 0x8000) n = true → n = 15) ∧ (a.laneAt 15).rxUse = true ∧ (a.linkAt 15).rxIdle = false ∧
      (a.linkAt 15).train.switchAt ≤ a.clk.ticks) ∧
    canReport a (.other (0x90000 + 15)) 0x0B 5 (BitVec.ofNat 16 15) ∧ canReport a (.other (0x90000 + 15)) 0x0C 5 (BitVec.ofNat 16 15) ∧
    (q.running = true ∧ (q.quadAt 3).powered = true ∧ (∀ k, k < 16 → (q.linkAt k).lanes = []) ∧ (∃ n ∈ (a.linkAt 15).lanes, n / 4 = 3)) ∧
    canReport q (.other (0x90020 + 3)) 0x14 6 (BitVec.ofNat 16 3) ∧
    (n.running = true ∧ n.quadNeeded 3 = true ∧ (n.quadAt 3).powered = false ∧ (n.quadAt 3).ref = true ∧ (n.quadAt 3).waiters = []) ∧
    ((c id).running = true ∧ ((c id).laneAt 15).test = 4 ∧ ((c id).laneAt 15).chkLocked = true) ∧
    (i.running = true ∧ (i.laneAt 15).test = 4 ∧ (i.laneAt 15).chkLocked = true ∧ (i.laneAt 15).armed = true ∧ (i.laneAt 15).inject = 1 ∧
      i.injects 15 = true ∧ (i.laneAt 15).injectAt ≤ i.clk.ticks) ∧
    (j.running = true ∧ (j.laneAt 15).test = 5 ∧ (j.laneAt 15).armed = true ∧ (j.laneAt 15).inject = 3 ∧ (j.laneAt 15).injectAt ≤ j.clk.ticks ∧
      j.laneLink 15 = some 15 ∧ j.injects 15 = true) ∧
    (((c (fun x => { x with chkLocked := false })).laneAt 15).test = 4 ∧ ((c (fun x => { x with chkLocked := false })).laneAt 15).chkLocked = false) ∧
    [true, false].length % 2 = 0 := by
  refine ⟨?_, ⟨?_, ?_, ?_⟩, ⟨?_, ?_, ?_⟩, ?_, ⟨?_, ?_, ?_⟩, ?_, ?_, ?_, ?_, ?_, ?_⟩ <;> decide +kernel

theorem witness_CampPairsTakeOver :
    let c (sb : BitVec 3) (a b : Bool) : State := { up with camp := { up.camp with standby := sb, execA := a, execB := b } }
    (∀ s ∈ [c 0 true true, c 1 true true, c 3 true false, c 2 true false, c 2 false false],
      s.running = true ∧ s.mem.queued = [] ∧ s.mem.waits = [] ∧ s.xl.jobs = [] ∧ s.xl.moving = none ∧ s.camp.testing = none ∧ s.cairn.queue.length < 63 ∧ s.secondFault = false ∧ (∀ q ∈ s.cairn.queue, q.kind ≠ 13)) ∧
    ((c 0 true true).camp.execOf (c 0 true true).camp.active = true ∧ (c 0 true true).camp.standby = 0) ∧
    ((c 3 true false).camp.execOf false = true ∧ (c 3 true false).camp.standby = 3) ∧ (c 0 true true).camp.execOf true = true ∧
    ((c 2 true false).camp.standby = 2 ∧ (c 2 true false).camp.execOf false = true) ∧
    ((c 2 false false).camp.standby = 2 ∧ (c 2 false false).camp.execOf false = false) := by decide +kernel

theorem witness_RidgeFaultsMoveThePosition :
    let i : PItem := .record (routed (srcHandle 3) .event)
    let s := { up with xl := { up.xl with pos := [Pos.reset, Pos.reset, Pos.reset, { Pos.reset with egress := [(1, [i])] }] } }
    let n := { s with xl := { s.xl with ridge := [Ridge.reset 0, Ridge.reset 1, Ridge.reset 2, Ridge.reset 3, { Ridge.reset 4 with role := 3 }] } }
    let ok (s : State) : Prop := s.running = true ∧ (s.ridgeAt 3).role = 0 ∧ s.secondFault = false ∧ (s.ridgeAt 3).position.toNat = 3 ∧
      s.camp.testing = none ∧ (s.posAt 3).walks = [] ∧ (s.posAt 3).waits = [] ∧ (s.posAt 3).unserved = none ∧ ∀ i ∈ (s.posAt 3).items, s.itemIntact i = true
    let data : Word := 0x80030000
    XlatShape s.xl ∧ XlatShape n.xl ∧ ok s ∧ ok n ∧ s.spare = some 4 ∧ n.spare = none ∧ canReport s (.ridge 3) 0x03 1 (BitVec.ofNat 16 3) ∧
      canReport s (.ridge 3) 0x04 1 (BitVec.ofNat 16 3) ∧ canReport n (.ridge 3) 0x03 1 (BitVec.ofNat 16 3) ∧
      (bitAt data 31 = true ∧ bitAt data 0 = false ∧ (field data 16 8 : BitVec 8).toNat = 3) := by
  refine ⟨⟨?_, ?_, ?_, ?_, ?_, ?_⟩, ⟨?_, ?_, ?_, ?_, ?_, ?_⟩, ?_, ?_, ?_, ?_, ⟨?_, ?_, ?_⟩, ⟨?_, ?_, ?_⟩, ⟨?_, ?_, ?_⟩, ?_⟩ <;> decide +kernel

theorem witness_BelayFaultsStartCover :
    let n := { up with bel := [(254, { Belay.reset with role := 4, isolated := true })] }
    let data : Word := 0x80FF0001
    (∀ s ∈ [up, n], s.running = true ∧ s.secondFault = false ∧ (s.belAt 255).role = 0) ∧ (up.belAt (255 ^^^ 1)).role = 0 ∧
      (n.belAt (255 ^^^ 1)).role = 4 ∧ canReport up (.belay 255) 0x05 2 (BitVec.ofNat 16 255) ∧ canReport up (.belay 255) 0x06 2 (BitVec.ofNat 16 255) ∧
      canReport n (.belay 255) 0x05 2 (BitVec.ofNat 16 255) ∧
      (bitAt data 31 = true ∧ bitAt data 0 = true ∧ (field data 16 8 : BitVec 8).toNat = 255 ∧ bitAt (0xFF0001 : Word) 31 = false) := by
  refine ⟨?_, ?_, ?_, ⟨?_, ?_, ?_⟩, ⟨?_, ?_, ?_⟩, ⟨?_, ?_, ?_⟩, ?_⟩ <;> decide +kernel

/-- A report of a ridge's check. -/
def report1 : Report :=
  { cause := 3, kind := 1, unit := 0, sev := 2, detail := 7, last := 7, first := 4000, latest := 4000, count := 1 }

theorem witness_ScrubsAndReportsReachTheCairns :
    let l := { up with log := [(77, { LogEntry.reset with state := 1 })] }
    let rec0 : CairnRec := { CairnRec.reset with cause := 3, sev := 1, valid := true, new := true, kind := 1, count := 4 }
    let a := { up with cairn := { up.cairn with queue := [report1] } }
    let b := { up with cairn := { up.cairn with queue := [report1], recs := [(383, rec0)] } }
    let n : Notify := Notify.reset
    let full := { a with cairn := { a.cairn with recs := (List.range 384).map (fun i => (i, { rec0 with unit := BitVec.ofNat 16 (i + 1), sev := 3 })) } }
    (up.running = true ∧ sramWords 0 - 1 < sramWords 0) ∧
    (canReport up (.other (0xA0000 + 12)) 0x01 4 (BitVec.ofNat 16 12) ∧ canReport up (.other 0xA0000) 0x02 4 0 ∧
      canReport l (.other 0xA000A) 0x02 4 (BitVec.ofNat 16 10)) ∧
    up.sameFault (faultKey 0x02 4 0) = false ∧ (l.log.filter (fun e => !e.2.overflow))[1 / 2]? = some (77, { LogEntry.reset with state := 1 }) ∧
    (a.running = true ∧ a.cairn.queue = report1 :: [] ∧ a.cairn.held = [] ∧ a.recordOf report1 = none ∧ a.cairnSlot = some 0 ∧
      n.enable = false ∧ a.cairn.notify0 = n ∧ a.cairn.notify1 = n) ∧
    (b.running = true ∧ b.recordOf report1 = some 383 ∧ (b.cairnAt (383 : BitVec 9).toNat).valid = true) ∧
    (full.running = true ∧ full.recordOf report1 = none ∧ full.cairnSlot = none) := by
  refine ⟨?_, ⟨⟨?_, ?_, ?_⟩, ⟨?_, ?_, ?_⟩, ⟨?_, ?_, ?_⟩⟩, ?_, ?_, ?_, ?_, ?_⟩ <;> decide +kernel

theorem witness_HeartbeatRopeAndClocksAct :
    let f := { up with clk := { up.clk with fail := 0b10000 } }
    let m := { up with rope := { up.rope with map := [(63, { mapped := true, output := 15 })] } }
    let h := { m with rope := { m.rope with inputs := 1 <<< 63 } }
    let data : Word := 0x8000003F
    (up.aon = true ∧ up.rope.hbRunning = true ∧ up.roundCause = none) ∧ (f.aon = true ∧ f.clk.fail ≠ 0) ∧ bitAt (1 : Word) 0 = true ∧
    (up.rope.serving = true ∧ up.rope.pulseUntil = none ∧ bitAt data 31 = true ∧ (up.ropeOf (field data 0 6 : BitVec 6).toNat).mapped = false) ∧
    ((h.ropeOf 63).mapped = true ∧ bitAt h.rope.inputs 63 = true) ∧
    ((m.ropeOf 63).mapped = true ∧ bitAt m.rope.inputs 63 = false ∧ bitAt m.ropeOutputs (m.ropeOf 63).output.toNat = false) ∧
    (up.clk.checked = true ∧ bitAt up.clk.fail 4 = false) ∧ canReport up (.other 0xB0000) 0x14 0 0 ∧
    (bitAt f.clk.fail 4 = true ∧ f.pwr.warmHeld = false) ∧
    (up.pwr.coldHeld = false ∧ up.pwr.off = false ∧ up.boot.fastReady = true ∧ up.clk.time.toNat ≤ (5000 : Word).toNat ∧
      (4999 : Word).toNat < up.clk.time.toNat) := by
  refine ⟨?_, ?_, ?_, ?_, ?_, ?_, ?_, ⟨?_, ?_, ?_⟩, ?_, ?_⟩ <;> decide +kernel

/-- The public key that signed the images below. -/
def signer : PubKey :=
  { x := 0x15ae86fc65bc06fa7d86f9a0db1264bfb28495d8ac71a703d3b997651718d103, y := 0x327667fdf5be2888f0dcb7c99c6dfa2ff50ad07f666a73177a14fc3fe2957f83 }

/-- A Tamri image of 64 bytes of code, 0 to 63, VERSION 5, SECURITY_VERSION 3, signed with OpenSSL under `signer` as key 1. -/
def image : Image :=
  { header := 0x40000000030000000500010004524d4154, r := 0xf2a1fd3c3ae7935c57d328b248e35d540b730cd0fc251b82c1f4344a57b1a520,
    s := 0xbcbde99b8be5b79020028894370559196f92d5cd968b8dd43c7d202acfe8972f, code := (List.range 64).map (fun i => BitVec.ofNat 8 i) }

/-- A microcode bank of the same code, VERSION 6. -/
def patch : Image :=
  { image with
    header := 0x4000000000000000060001000448435450, r := 0xec24474ab37d43dbdc23ee469681143cf92c8caff72f6039aa5b97484fc80b2a,
    s := 0x5e388f8325c025da662ecf1099c8c639f9d029f551ab75f37f2edf7ee2d76421 }

theorem test_image_signed : imgSigned { key0 := { x := 0, y := 0 }, key1 := signer } image = true := by decide +kernel

theorem test_patch_signed : imgSigned { key0 := { x := 0, y := 0 }, key1 := signer } patch = true := by decide +kernel

/-- FIPS 180-4's example message "abc". -/
theorem test_sha256 : sha256 [0x61, 0x62, 0x63] = 0xba7816bf8f01cfea414140de5dae2223b00361a396177a9cb410ff61f20015ad := by decide +kernel

/-- The first test case of the GCM specification: key, IV and data all zero or empty. -/
theorem test_gmac : gmac 0 0 [] = 0x5a45e7a4571d7f3661307efacefce258 := by decide +kernel

/-- A platform descriptor: 16 MiB of tables at 0x100000, 260 KiB of NVM. -/
def desc : BitVec 512 := 0x29e861ad000000000000000000000000000000000000000000000000000410000000000000000000000000000100000000000000001000000000000054414c50

/-- A wake header armed with SAVE_SEQ 9, and the last-words record of that save. -/
def wakeHeader : BitVec 512 := 0x29a72e20000000000000000000000000000000000000000000000000000000000000000000000000000000000000000000000000000000900000001454b4157

def lastWords : BitVec 512 := 0x40afa56400000000000000000000000000000000000000000000000000000000000000000000000000000000000000200000000000000000000000095453414c

/-- The block at FAST_READY, before its boot. -/
def started : State :=
  { up with
    boot := { up.boot with campReady := false }, camp := { Camp.reset with execA := true, aOk := true }, rom := { key0 := signer, key1 := signer },
    pass := [(7, { PassPort.reset with resetN := true })] }

theorem witness_ColdResetAndStartUp :
    let a := { State.reset with pwr := { Power.reset with coldHeld := false }, boot := { Boot.reset with aonUp := true, sramZeroed := true } }
    (Tbl.wf Source.reset up.wired.src = true ∧ Tbl.wf Target.reset up.tgt = true ∧ Tbl.wf PassPort.reset up.pass = true ∧ Tbl.wf Quad.reset up.quads = true) ∧
    State.reset.pwr.coldHeld = true ∧ (a.aon = true ∧ a.pwr.off = false ∧ a.boot.sramZeroed = true ∧ a.boot.fastReady = false) ∧
    (isReserved 8191 = false ∧ (a.stormOf 8191).2 = 0 ∧ (a.srcAt 8191).isEdge 8191 = false ∧ (a.srcAt 8191).act = false) := by decide +kernel

theorem witness_BootAndEntropyAct :
    let e := { up with camp := { up.camp with rekeyed := true } }
    let n := { up with boot := { up.boot with entropy := true } }
    let f := { up with camp := { up.camp with startFails := 4 } }
    (started.running = true ∧ started.camp.execA = true ∧ started.boot.campReady = false ∧ started.boot.failed = false ∧ started.boot.entropy = false) ∧
    canReport started (.other 0x80000) 0x16 13 0 ∧ descOk 0 = false ∧ (descOk desc = true ∧ bootImageOk patch = false) ∧
    (bootImageOk image = true ∧ imgSigned started.rom { image with r := 1 } = false ∧ imgSigned started.rom image = true) ∧
    (started.pwr.state = 0 ∧ (started.passAt 7).resetN = true ∧ (started.passAt 7).live = false ∧ (started.passAt 7).buf = []) ∧
    (headerGood 0 = false ∧ headerGood wakeHeader = true ∧ field wakeHeader 32 8 = (1 : BitVec 8) ∧ slotGood wakeHeader lastWords = true ∧
      slotGood wakeHeader 0 = false) ∧ canReport started (.other 0) 0x17 0 0 ∧
    (e.running = true ∧ e.aon = true ∧ e.boot.entropy = false ∧ (∀ k, k < 16 → (e.linkAt k).state ≠ 2) ∧ e.camp.rekeyed = true) ∧
    (up.boot.campReady = true ∧ up.camp.rekeyed = false ∧ up.served = true ∧ up.xl.sweep = false ∧
      ∀ q ∈ up.xl.pos, q.moves = [] ∧ q.walks = [] ∧ q.waits = [] ∧ q.items = []) ∧
    (up.pwr.off = false ∧ up.camp.startFails < 4 ∧ 4 ≤ f.camp.startFails ∧ f.boot.entropy = false ∧ n.boot.entropy = true) ∧
    canReport f (.other 0) 0x18 0 0 ∧ canReport n (.other 0) 0x18 0 0 := by
  refine ⟨?_, ⟨?_, ?_, ?_⟩, ?_, ?_, ?_, ?_, ?_, ⟨?_, ?_, ?_⟩, ?_, ?_, ?_, ⟨?_, ?_, ?_⟩, ⟨?_, ?_, ?_⟩⟩ <;> decide +kernel

theorem witness_WarmResetKeepsWhatItMust :
    let f := { up with clk := { up.clk with fail := 1 } }
    (up.linksAlive = true ∧ up.pwr.warmHeld = false ∧ up.clk.fail = 0 ∧ field (0x5752 : Word) 0 16 = (0x5752 : BitVec 16)) ∧
      (f.linksAlive = true ∧ f.pwr.warmHeld = false ∧ f.clk.fail ≠ 0) ∧ (up.camp.testing = none ∧ { up.camp with standby := 3 }.standby = 3) ∧ field (0x5753 : Word) 0 16 ≠ (0x5752 : BitVec 16) := by decide +kernel

theorem witness_ParkEntersAbandonsAndWakes :
    let b := { up with cp := { up.cp with wbuf := [{ wid := 0, tag := 0, frame := 289, left := 1, err := 0 }] } }
    let p := { up with pwr := { up.pwr with state := 2, parking := true, parkAt := 0 }, clk := { up.clk with ticks := 10000 } }
    let k := { up with pwr := { up.pwr with state := 3, latches := [3] }, wired := { up.wired with src := [(3, { Source.reset with trigger := 1 })] } }
    (up.running = true ∧ up.pwr.state = 0 ∧ bitAt (1 : Word) 0 = true ∧ up.parkQuiet = true ∧ up.noGathering = true) ∧
    (b.running = true ∧ b.pwr.state = 0 ∧ b.parkQuiet = false) ∧ (p.running = true ∧ p.pwr.parking = true ∧ p.pwr.parkAt + 10000 ≤ p.clk.ticks) ∧
    (k.linksAlive = true ∧ k.pwr.state = 3 ∧ 3 ∈ k.pwr.latches ∧ (k.srcAt 3).isEdge 3 = true ∧ (k.stormOf 3).2 = 0) := by decide +kernel

theorem witness_PowerFailureSaves :
    let a := { up with boot := { up.boot with nvmSize := 0x41000 }, pwr := { up.pwr with armed := true, saveSeq := 9 }, clk := { up.clk with fail := 1 } }
    let w (x : Save) : State := { up with pwr := { up.pwr with warn := true, save := x, saveHead := true } }
    let h := { NvHeader.reset with state := 2 }
    let size := 0x3140 + 16 * min a.log.length 15596
    (∀ s ∈ [a, up], s.running = true ∧ s.aon = true ∧ s.pwr.warn = false ∧ s.pwr.state = 0 ∧ s.pwr.warmHeld = false ∧ s.pwr.parking = false ∧ s.pwr.save = .none) ∧
    a.clk.fail ≠ 0 ∧ (a.boot.campReady = true ∧ a.pwr.armed = true ∧ 0x41000 ≤ a.boot.nvmSize.toNat ∧ 240 + 5 * ((size + 1023) / 1024) ≤ 8 * energy 5) ∧
    (∀ r ∈ a.mem.waits ++ a.mem.queued ++ a.mem.out, r.owner ≠ .save) ∧ ¬(240 + 5 * ((size + 1023) / 1024) ≤ 8 * energy 1) ∧ 2 ≤ energy 1 ∧ energy 0 < 2 ∧
    1520 ≤ 8 * energy 255 ∧ ¬(0x41000 ≤ up.boot.nvmSize.toNat) ∧
    ((w (.wake h)).running = true ∧ (w (.wake h)).pwr.save = .wake h ∧ (w (.wake h)).pwr.saveHead = true ∧
      ∀ r ∈ (w (.wake h)).mem.waits ++ (w (.wake h)).mem.queued ++ (w (.wake h)).mem.out, r.owner ≠ .save) ∧
    ((w .words).running = true ∧ (w .words).pwr.save = .words) ∧ ((w .none).running = true ∧ (w .none).aon = true ∧ (w .none).pwr.warn = true) ∧
    (up.aon = true ∧ up.pwr.off = false ∧ up.rope.hbRunning = true) := by decide +kernel

theorem witness_WearIsMeasured :
    let s := { up with clk := { up.clk with ticks := 1000000000 } }
    WearShape s.wear ∧ s.aon = true ∧ s.wear.next < 8 ∧ s.wear.measuredAt + 1000000000 ≤ s.clk.ticks ∧ s.wear.binnedAt + 100000000 ≤ s.clk.ticks :=
  ⟨⟨rfl, rfl, rfl⟩, by decide +kernel⟩

/-- An 8-byte access of master 0, ring 0, with parity bits for zeros. -/
def access (addr : BitVec 26) : Access :=
  { addr := addr, size8 := true, sizeOk := true, data := 0, parity := 0xFF, master := 0, ring := 0, tag := 1, rescue := false }

theorem witness_RegistersAreReadAndWritten :
    let a := access 0x4008
    let s := { up with acc := { up.acc with slot := [(4, { Desc.reset with w0 := 0x1FF, w1 := 0 })] } }
    let full := { s with cp := { s.cp with nextWid := 1, wbuf := List.replicate 16 { wid := 0, tag := 0, frame := 4, left := 1, err := 0 } } }
    let reads (n : Nat) : State := { s with cp := { s.cp with held := List.replicate n { acc := a, write := false, wid := 0 } } }
    (s.running = true ∧ s.clocksFail = false ∧ s.refusal a false = none) ∧ (full.running = true ∧ full.clocksFail = false ∧ full.refusal a false = none) ∧
    ((reads 1).running = true ∧ (reads 1).clocksFail = false ∧ (reads 1).refusal a false = none) ∧ (reads 8).running = true ∧
    a.rescue = false ∧ rescueFrame (accFrame a) = false ∧
    (frameIdOf (accFrame a) = none ∧ s.readWaits (accFrame a) (accOff a) = false ∧ s.readsHeld = [] ∧ allRO (accFrame a) (accOff a) = false) ∧
    (s.refusal (access 0x4000) false = none ∧ allRO (accFrame (access 0x4000)) (accOff (access 0x4000)) = true ∧ accPart (access 0x4000) ≠ .hi) ∧
    accPart { access 0x4004 with size8 := false } = .hi ∧
    ((reads 1).readsHeld ≠ [] ∧ (reads 1).readsHeld.length < 8 ∧ 8 ≤ (reads 8).readsHeld.length ∧ full.readWaits (accFrame a) (accOff a) = true) ∧
    (up.refusal { a with ring := 3 } true = some 3 ∧ up.bufferFull = false ∧ up.cp.wbuf = []) ∧
    canReport up (.other 0x70020) 0x10 16 (BitVec.ofNat 16 ((up.governing a.addr.toNat).getD (accFrame a))) ∧
    (s.refusal a true = none ∧ accFrame a = 4 ∧ accOff a = 0x008 ∧ s.cp.wbuf = [] ∧ s.cp.held = []) ∧ full.bufferFull = true := by
  refine ⟨?_, ?_, ?_, ?_, ?_, ?_, ?_, ?_, ?_, ?_, ?_, ⟨?_, ?_, ?_⟩, ?_, ?_⟩ <;> decide +kernel

/-- A request of 56 argument bytes: its code, and values at byte offsets of ARGS. -/
def req (code : Nat) (args : List (Nat × Nat)) : BitVec 512 :=
  BitVec.ofNat 512 (code + 2 ^ 32 * 56 + 2 ^ 64 * args.foldl (fun a p => a + p.2 * 2 ^ (8 * p.1)) 0)

/-- A state with one request posted in slot 7 of mailbox `m`. -/
def post (s : State) (m : Nat) (r : BitVec 512) : State :=
  s.updMbx m (fun x => { x with isOpen := true, order := [7], slots := [(7, { Slot.reset with req := r, posted := true })] })

/-- What `turnOf` asks of a state built by `post`, as a test. -/
def turns (s : State) (m : Nat) (code : BitVec 16) : Bool :=
  s.running && s.camp.executing && !s.boot.failed && !s.rekeyDue && s.camp.testing == none && s.nextMbox == some m && (s.mbxAt m).order == [7] && reqCode (s.slotAt m 7).req == code &&
    !headerBad (s.slotAt m 7).req && !bitAt (s.slotAt m 7).req 40

theorem turn_of {s : State} {m : Nat} {code : BitVec 16} (h : turns s m code = true) : turnOf s m 7 code := by
  simp only [turns, Bool.and_eq_true, Bool.not_eq_true', beq_iff_eq] at h
  obtain ⟨⟨⟨⟨⟨⟨⟨⟨⟨h1, h2⟩, h3⟩, ha⟩, hb⟩, h4⟩, h5⟩, h6⟩, h7⟩, h8⟩ := h
  exact ⟨h1, h2, h3, ha, hb, h4, ⟨[], h5⟩, h6, h7, .inl h8⟩

theorem witness_MailboxSlotsMove :
    let one := post up 33 (req 0x0090 [])
    let closed := { up with mbx := [] }
    let f (r : BitVec 512) (e : Bool) : State := (post { up with boot := { up.boot with failed := e } } 33 r)
    let n := (f (req 0x0090 [] ||| (1 <<< 40)) true).updMbx 33 (fun x => { x with enable := true, target := 9, sgi := 4 })
    ((up.updMbx 33 (fun x => { x with isOpen := true })).running = true ∧ ((up.updMbx 33 (fun x => { x with isOpen := true })).mbxAt 33).isOpen = true ∧
      ((up.updMbx 33 (fun x => { x with isOpen := true })).slotAt 33 7) = Slot.reset) ∧
    ((one.mbxAt 33).isOpen = true ∧ (one.slotAt 33 7).posted = true) ∧ (closed.mbxAt 33).isOpen = false ∧
    (turns (post up 33 (req 0x0099 [])) 33 0x0099 = true ∧ (0x0099 : BitVec 16) ∉ knownCodes) ∧ turns (post up 33 (req 1 [])) 33 1 = true ∧
    turns (post up 33 (req 0x00A1 [])) 33 0x00A1 = true ∧
    (∀ s ∈ [f (req 0x0001 []) true, f (req 0x0090 [] ||| (1 <<< 41)) false, f (req 0x0090 []) true, n],
      s.running = true ∧ s.camp.executing = true ∧ s.rekeyDue = false ∧ s.camp.testing = none ∧ s.nextMbox = some 33 ∧ (s.mbxAt 33).order = 7 :: []) ∧
    (let s := f (req 0x0001 []) true
     (s.mbxAt 33).enable = false ∧ s.boot.failed = true ∧ reqCode (s.slotAt 33 7).req = 0x0001) ∧
    (let s := f (req 0x0090 [] ||| (1 <<< 41)) false
     reqCode (s.slotAt 33 7).req = 0x0090 ∧ headerBad (s.slotAt 33 7).req = true ∧ s.boot.failed = false ∧ (s.mbxAt 33).enable = false) ∧
    (let s := f (req 0x0090 []) true
     reqCode (s.slotAt 33 7).req = 0x0090 ∧ s.boot.failed = true ∧ (s.mbxAt 33).enable = false) ∧
    (reqCode (n.slotAt 33 7).req = 0x0090 ∧ n.boot.failed = true ∧ (n.mbxAt 33).enable = true ∧ bitAt (n.slotAt 33 7).req 40 = true ∧
      (n.srcAt (8192 + 64 * 9 + 4)).pend = false ∧ (n.stormOf (8192 + 64 * 9 + 4)).2 = 0) := by
  refine ⟨?_, ?_, ?_, ?_, ?_, ?_, ?_, ?_, ?_, ?_, ?_⟩ <;> decide +kernel

/-- `up` with requester 77 mapped, of sixteen events, and free pages. -/
def mapped : State :=
  { up with boot := { up.boot with tableFree := 5000 }, xl := { up.xl with dev := [(77, line77.entry)] } }

/-- `post` of a DEV_MAP or EVT_MAP family request of requester 77. -/
def req77 (code : Nat) (args : List (Nat × Nat)) : BitVec 512 := req code ((0, 77) :: args)

theorem witness_DevicesAndEventsAreMapped :
    let a := post { mapped with xl := up.xl } 1 (req77 0x20 [(2, 1), (3, 4), (4, 0x1FF), (6, 0x3F)])
    let b := post mapped 1 (req77 0x20 [(2, 1), (3, 4), (4, 0x1FF), (6, 31)])
    let c := post mapped 1 (req77 0x21 [(4, 15), (8, 8), (9, 0x40), (12, 9)])
    let d := post mapped 1 (req77 0x22 [(4, 15)])
    let e := post mapped 2 (req77 0x22 [(4, 15)])
    let z := post up 1 (req77 0x22 [(4, 15)])
    (∀ s ∈ [a, b], turns s 1 0x20 = true ∧ s.allQuiet = true ∧ (∀ p ∈ s.xl.pos, p.walks = []) ∧ (arg (argsOf s 1 7) 0 16 : BitVec 16) = 77 ∧
      (arg (argsOf s 1 7) 2 8 : BitVec 8) = 1 ∧ (arg (argsOf s 1 7) 3 8 : BitVec 8).toNat ≤ 20 ∧ (arg (argsOf s 1 7) 5 8 : BitVec 8).toNat ≤ 1 ∧
      ownerOk (arg (argsOf s 1 7) 6 8) = true ∧ (s.devEntry 77).pinned = false) ∧ reservedRequester 77 = false ∧
    ((a.devEntry 77).valid = false ∧ (a.devEntry 77).devGen ≠ 0xFFFFFFFF ∧ tablePages (arg (argsOf a 1 7) 3 5) ≤ a.boot.tableFree) ∧
    ((b.devEntry 77).valid = true ∧ (b.devEntry 77).eventBits = arg (argsOf b 1 7) 3 5) ∧
    (turns c 1 0x21 = true ∧ turns d 1 0x22 = true ∧ turns e 2 0x22 = true ∧ guestOf 1 = none ∧ guestOf 2 = some 0) ∧
    (∀ s ∈ [c, d, e], (∀ p ∈ s.xl.pos, p.walks = []) ∧ s.posQuiet (s.posOf (msgHandle 77 15)) = true ∧ (s.devEntry 77).valid = true ∧
      (s.devEntry 77).pinned = false ∧ s.blockMoves 77 = false) ∧
    (lowestBad (routeBad (argsOf c 1 7) 8) = none ∧ (arg (argsOf c 1 7) 4 32 : BitVec 32).toNat < 2 ^ (c.devEntry 77).eventBits.toNat ∧
      (c.evtEntry 77 15).valid = false ∧ (e.devEntry 77).owner.toNat ≠ 0) ∧
    (turns z 1 0x22 = true ∧ z.posQuiet (z.posOf (msgHandle 77 15)) = true ∧ (z.devEntry 77).valid = false) := by
  refine ⟨?_, ?_, ?_, ?_, ?_, ?_, ?_, ?_⟩ <;> decide +kernel

theorem witness_TheTranslationStoresChange :
    let pin : State := { mapped with xl := { mapped.xl with
      dev := [(77, { line77.entry with pinned := true, pinBase := 0 })], blocks := [{ req := 77, base := 0, len := 16 }] } }
    let a := post mapped 1 (req77 0x23 [])
    let b := post pin 1 (req77 0x24 [])
    let frag := post { mapped with xl := { mapped.xl with blocks := [{ req := 0x500, base := 15, len := 16360 }] } } 1 (req77 0x23 [])
    let inv (k : Nat) : State := post mapped 1 (req 0x25 [(0, k), (2, 77)])
    let c := post { up with boot := { up.boot with entropy := true }, camp := { up.camp with rekeyed := true } } 0 (req 0x26 [])
    let d := post up 0 (req 0x26 [])
    let z : Zeroing := { act := 2, belay := 7, page := 9, pages := 3, next := 9 * 128, left := 0, vt := none }
    let e := { up with xl := { up.xl with sweep := true, rewrites := [.slot 16447] }, boot := { up.boot with zeroing := [z] } }
    (∀ s ∈ [a, b, frag], s.allQuiet = true ∧ (s.rat.contract = none ∧ s.rat.nextContract = none) ∧ ∀ p ∈ s.xl.pos, p.walks = []) ∧
    (∀ s ∈ [a, frag], turns s 1 0x23 = true ∧ (s.devEntry 77).valid = true ∧ (s.devEntry 77).pinned = false ∧ (s.devEntry 77).eventBits.toNat ≤ 14 ∧
      s.setLocked 77 = false ∧ s.pinnedUsed + 2 ^ (s.devEntry 77).eventBits.toNat ≤ 16384) ∧
    (firstFit (2 ^ (a.devEntry 77).eventBits.toNat) 0 a.pinRuns = some 0 ∧ firstFit (2 ^ (frag.devEntry 77).eventBits.toNat) 0 frag.pinRuns = none) ∧
    (turns b 1 0x24 = true ∧ reservedRequester 77 = false ∧ (b.devEntry 77).pinned = true) ∧
    (∀ k ∈ [1, 2, 3], turns (inv k) 1 0x25 = true ∧ guestOf 1 = none ∧ (inv k).allQuiet = true ∧ (arg (argsOf (inv k) 1 7) 0 8 : BitVec 8).toNat = k) ∧
    ((inv 1).devEntry 77).valid = true ∧
    (turns c 0 0x26 = true ∧ c.served = true ∧ c.boot.entropy = true ∧ c.xl.sweep = false ∧
      ∀ q ∈ c.xl.pos, q.moves = [] ∧ q.walks = [] ∧ q.waits = [] ∧ q.items = []) ∧
    (turns d 0 0x26 = true ∧ d.served = true ∧ d.boot.entropy = false) ∧
    (e.running = true ∧ e.xl.sweep = true ∧ e.boot.zeroing = z :: [] ∧ e.camp.executing = true ∧ e.xl.rewrites = .slot 16447 :: []) := by
  refine ⟨?_, ?_, ?_, ?_, ?_, ?_, ?_, ?_, ?_⟩ <;> decide +kernel

theorem witness_RemoteSourcesAndGroupsAreSet :
    let l := link 5 id
    let a := post l 1 (req 0x10 [(0, 15), (2, 15), (4, 8), (5, 9)])
    let b := post l 1 (req 0x12 [(0, 15), (1, 200), (2, 15)])
    let c := post up 1 (req 0x12 [(0, 15), (2, 15)])
    let d := post l 1 (req 0x12 [(0, 15), (2, 16)])
    let g (args : List (Nat × Nat)) : State := post up 1 (req 0x30 args)
    (∀ s ∈ [a, b], (arg (argsOf s 1 7) 0 8 : BitVec 8).toNat = 15 ∧ (arg (argsOf s 1 7) 2 16 : BitVec 16).toNat = 15 ∧
      s.posQuiet (s.posOf (remoteHandle 15 15)) = true ∧ s.linkMoves 15 = false ∧ (s.linkAt 15).cfg = some cfg15 ∧ cfg15.col = false ∧ 15 < cfg15.sources ∧
      s.liveHandle (remoteHandle 15 15) = false) ∧
    (turns a 1 0x10 = true ∧ lowestBad (routeBad (argsOf a 1 7) 4) = none) ∧ turns b 1 0x12 = true ∧
    (turns c 1 0x12 = true ∧ (c.linkAt 15).cfg = none ∧ c.posQuiet (c.posOf (remoteHandle 15 15)) = true ∧ c.linkMoves 15 = false) ∧
    (turns d 1 0x12 = true ∧ (d.linkAt 15).cfg = some cfg15 ∧ cfg15.sources ≤ (arg (argsOf d 1 7) 2 16 : BitVec 16).toNat ∧
      d.posQuiet (d.posOf (remoteHandle 15 16)) = true ∧ d.linkMoves 15 = false) ∧
    (turns (g []) 1 0x30 = true ∧ (arg (argsOf (g []) 1 7) 0 16 : BitVec 16).toNat = 0) ∧
    (let s := g [(0, 65535), (2, 3), (4, 100), (9, 0x3F)]
     turns s 1 0x30 = true ∧ (arg (argsOf s 1 7) 0 16 : BitVec 16).toNat ≠ 0 ∧ (arg (argsOf s 1 7) 8 8 : BitVec 8) = 0 ∧
       (arg (argsOf s 1 7) 4 32 : BitVec 32).toNat < 2 ^ 20 ∧ ownerOk (arg (argsOf s 1 7) 9 8) = true ∧ (s.grpAt 65535).pending = false ∧ s.pendingOfGroup 65535 = none) ∧
    (let s := g [(0, 65535), (8, 1)]
     turns s 1 0x30 = true ∧ (arg (argsOf s 1 7) 0 16 : BitVec 16).toNat ≠ 0 ∧ (arg (argsOf s 1 7) 8 8 : BitVec 8) = 1 ∧ (s.grpAt 65535).pending = false) ∧
    (let s := post { landed (.moveNotice h77 40) [{ inst h77 11 with group := 65535 }] with grp := [(65535, { Group.reset with pending := true })] } 1
        (req 0x30 [(0, 65535), (8, 1)])
     turns s 1 0x30 = true ∧ (s.grpAt 65535).pending = true) := by
  refine ⟨?_, ?_, ?_, ?_, ?_, ?_, ?_, ?_, ?_⟩ <;> decide +kernel

/-- `mapped` with virtual target 7 defined, of ring 2, and where `r` says so resident in slot 5 of target 20. -/
def vt7 (r run : Bool) : State :=
  { mapped with
    vt := [(7, { Vt.reset with defined := true, owner := 3, ring := 2, dbTarget := 8, dbRing := 1, dbLevel := 3, cap := 100, area := 128, resident := r,
                               running := run, slot := if r then 5 else 0 })],
    ctx := if r then [(5, { Ctx.reset with used := true, vt := 7, ring := 2, target := 20 })] else [],
    pair := if run then [(82, { Pair.reset with running := some 5 })] else [] }

theorem witness_VirtualTargetsLive :
    let a := post mapped 1 (req 0x40 [(0, 7), (2, 3), (3, 2), (4, 8), (6, 1), (7, 3), (8, 100)])
    let b := post (vt7 false false) 1 (req 0x41 [(0, 7), (2, 20)])
    let c := post (vt7 true false) 1 (req 0x42 [(0, 7)])
    let d := post (vt7 false false) 1 (req 0x43 [(0, 7)])
    let e := post (vt7 false false) 1 (req 0x42 [(0, 7)])
    let f := post (vt7 true false) 1 (req 0x44 [(0, 20), (2, 2), (4, 7)])
    let g := post (vt7 true true) 1 (req 0x44 [(0, 20), (2, 2), (3, 1), (4, 7)])
    (∀ s ∈ [a, b, c, d, e, f, g], s.mapReady = true) ∧
    (turns a 1 0x40 = true ∧ (a.rat.contract = none ∧ a.rat.nextContract = none) ∧ (a.vtAt 7).defined = false ∧ ownerOk (arg (argsOf a 1 7) 2 8) = true ∧
      (arg (argsOf a 1 7) 3 8 : BitVec 8) = 2 ∧ (arg (argsOf a 1 7) 4 16 : BitVec 16).toNat < 512 ∧ (arg (argsOf a 1 7) 6 8 : BitVec 8).toNat < 4 ∧
      (arg (argsOf a 1 7) 7 8 : BitVec 8).toNat < 16 ∧ 1 ≤ (arg (argsOf a 1 7) 8 16 : BitVec 16).toNat ∧
      (arg (argsOf a 1 7) 8 16 : BitVec 16).toNat ≤ 4096 ∧ areaPages (arg (argsOf a 1 7) 8 16) ≤ a.boot.tableFree ∧ a.vtZeroing 7 = false) ∧
    (turns b 1 0x41 = true ∧ (arg (argsOf b 1 7) 2 16 : BitVec 16).toNat = 20 ∧ (b.vtAt 7).defined = true ∧ (b.vtAt 7).resident = false ∧
      firstBelow 2048 (fun c => !(b.ctxAt c).used && decide ((b.ctxAt c).zeroUntil ≤ b.clk.ticks)) = some 0 ∧ (b.vtAt 7).suspect = false ∧
      (b.vtAt 7).bivouac = [] ∧ (b.pairAt (4 * 20 + (b.vtAt 7).ring.toNat)).stack.length + (b.vtAt 7).savedAct.length ≤ 16 ∧
      ∀ p ∈ b.xl.pos, p.waits = [] ∧ p.parked = []) ∧
    (turns c 1 0x42 = true ∧ (c.vtAt 7).resident = true ∧ (c.vtAt 7).running = false ∧ ∀ p ∈ c.xl.pos, p.waits = [] ∧ p.parked = []) ∧
    (turns d 1 0x43 = true ∧ (d.vtAt 7).defined = true ∧ (d.vtAt 7).resident = false ∧ (d.vtAt 7).running = false ∧ (d.vtAt 7).bivouac = [] ∧
      (d.vtAt 7).savedAct = []) ∧ turns e 1 0x42 = true ∧
    (turns f 1 0x44 = true ∧ (arg (argsOf f 1 7) 0 16 : BitVec 16).toNat = 20 ∧ (arg (argsOf f 1 7) 2 8 : BitVec 8).toNat = 2 ∧
      (arg (argsOf f 1 7) 3 8 : BitVec 8) = 0 ∧ (arg (argsOf f 1 7) 4 16 : BitVec 16).toNat = 7 ∧ (f.vtAt 7).resident = true ∧
      (f.ctxAt (f.vtAt 7).slot.toNat).target.toNat = 20 ∧ (f.ctxAt (f.vtAt 7).slot.toNat).ring.toNat = 2 ∧
      (f.ctxAt (f.vtAt 7).slot.toNat).vt.toNat = 7 ∧ (f.pairAt 82).running = none) ∧
    (turns g 1 0x44 = true ∧ (arg (argsOf g 1 7) 3 8 : BitVec 8) = 1 ∧ (g.pairAt 82).running = some 5 ∧ (g.ctxAt (5 : BitVec 11).toNat).vt.toNat = 7) := by
  refine ⟨?_, ?_, ?_, ?_, ?_, ?_, ?_, ?_⟩ <;> decide +kernel

theorem witness_RationsWaitForTheBoundary :
    let a (c : Nat) : State := post up 0 (req 0x50 [(0, 2), (1, 1), (2, 255), (4, c), (8, 64)])
    let m := { up with rat := { up.rat with memKHz := 2500000, ready := true, quota := [(quotaKey 1 0 0, { Quota.reset with nextBytes := some 6000 })] } }
    let k (b : Nat) : State := post m 0 (req 0x51 [(0, b), (4, 200), (8, 9996)])
    let sum (s : State) : Nat := sumBelow (fun x => if x = 0 ∨ x = 2 then 0 else (s.quotaAt x 1 255).nextCycles.getD (s.cyclesOf x 1 255)) 11
    (∀ c ∈ [300, 1025], turns (a c) 0 0x50 = true ∧ (arg (argsOf (a c) 0 7) 0 8 : BitVec 8).toNat = 2 ∧ (arg (argsOf (a c) 0 7) 1 8 : BitVec 8) = 1 ∧
      (arg (argsOf (a c) 0 7) 2 16 : BitVec 16).toNat = 255 ∧ (arg (argsOf (a c) 0 7) 4 16 : BitVec 16).toNat = c ∧
      (arg (argsOf (a c) 0 7) 8 32 : BitVec 32).toNat ≤ bytesMax 2 1) ∧ actOk 2 1 255 = true ∧
    ((a 300).rat.contract = none ∧ (a 300).rat.nextContract = none ∧ 300 + sum (a 300) ≤ 1024 ∧ (a 300).rat.round ≤ ((a 300).quotaAt 2 1 255).round) ∧
    (turns (k 6143) 0 0x51 = true ∧ (arg (argsOf (k 6143) 0 7) 0 32 : BitVec 32).toNat < 6144) ∧
    (∀ b ∈ [6144, 60000], turns (k b) 0 0x51 = true ∧ (arg (argsOf (k b) 0 7) 0 32 : BitVec 32).toNat = b ∧ b ≤ 32 * (k b).memClkRound ∧
      100 ≤ (arg (argsOf (k b) 0 7) 4 32 : BitVec 32).toNat ∧ (arg (argsOf (k b) 0 7) 4 32 : BitVec 32).toNat ≤ (k b).latencyMax ∧
      9900 ≤ (arg (argsOf (k b) 0 7) 8 16 : BitVec 16).toNat ∧ (arg (argsOf (k b) 0 7) 8 16 : BitVec 16).toNat ≤ 9999 ∧
      (arg (argsOf (k b) 0 7) 10 8 : BitVec 8).toNat ≤ 1) ∧
    (let c (b : Nat) : Contract := { bytes := BitVec.ofNat 32 b, latency := 200, percentile := 9996, keepWarm := false }
     let com (b : Nat) : Nat := ({ k b with rat := { (k b).rat with nextContract := some (c b), contract := some (c b) } } : State).committed
     9 * 6144 / 10 < com 6144 ∧ com 60000 ≤ 9 * 60000 / 10) := by
  refine ⟨?_, ?_, ?_, ?_, ?_, ?_⟩ <;> decide +kernel

theorem witness_LinkCommandsAct :
    let q := { Quad.reset with powered := true, refOk := true, pllA := true, pllB := true }
    let a := post up 1 (req 0x60 [(0, 15), (1, 1), (2, 3), (3, 3), (4, 1)])
    let b := post { up with quads := [(3, q)] } 1 (req 0x60 [(0, 15), (1, 1), (2, 3), (3, 3), (4, 1)])
    let c := post (link 5 id) 1 (req 0x61 [(0, 15)])
    let d := post { link 1 (fun l => { l with wantUp := false }) with rope := { up.rope with hbRunning := false } } 1 (req 0x61 [(0, 15)])
    let e := post (link 5 id) 1 (req 0x62 [(0, 15)])
    let f := post (link 1 (fun l => { l with cfg := some { cfg15 with auth := true } })) 0 (req 0x63 [(0, 15), (1, 1), (2, 1), (8, 5)])
    let w : UpWait := { mbox := 1, slot := 7, since := 0, seq := 4, failover := false }
    let x := link 1 (fun l => { l with upWait := [w] })
    let g := post up 0 (req 0x64 [(0, 3)])
    let h := post { link 1 (fun l => { l with cfg := some { cfg15 with col := true } }) with
      partner := { up.partner with everUp := true } } 0 (req 0x64 [(0, 3)])
    (∀ s ∈ [a, b], turns s 1 0x60 = true ∧ s.allQuiet = true ∧ (s.rat.contract = none ∧ s.rat.nextContract = none) ∧
      (arg (argsOf s 1 7) 0 8 : BitVec 8).toNat = 15 ∧ lowestBad (s.linkCfgBad (argsOf s 1 7)) = none ∧ (s.linkAt 15).state = 0 ∧
      (s.linkAt 15).cfg = none ∧ (linkCfgOf (argsOf s 1 7)).col = true ∧ s.xl.blocks = [] ∧ (∀ q, q < 4 → (s.quadAt q).waiters = []) ∧ (linkCfgOf (argsOf s 1 7)).quad = 3) ∧
    ((a.quadAt 3).powered = false ∧ (b.quadAt 3).powered = true) ∧
    (turns c 1 0x61 = true ∧ c.upExpired 1 = none ∧ (c.linkAt 15).cfg = some cfg15 ∧ (c.linkAt 15).state = 5 ∧ (c.linkAt 15).wantUp = true) ∧
    (turns d 1 0x61 = true ∧ d.upExpired 1 = none ∧ (d.linkAt 15).cfg = some cfg15 ∧ (d.linkAt 15).state = 1 ∧ d.rope.hbRunning = false) ∧
    (turns e 1 0x62 = true ∧ (e.linkAt 15).cfg = some cfg15 ∧ (e.linkAt 15).state = 5) ∧
    (turns f 0 0x63 = true ∧ (f.linkAt 15).state ≠ 2 ∧ (f.linkAt 15).keys.length = 2 ∧ (arg (argsOf f 0 7) 1 8 : BitVec 8).toNat ≤ 1 ∧
      (arg (argsOf f 0 7) 2 8 : BitVec 8).toNat ≤ 1 ∧ (arg (argsOf f 0 7) 8 128 : BitVec 128) = 5) ∧
    (x.running = true ∧ x.upExpired 1 = some (15, w) ∧ (x.mbxAt 1).enable = false) ∧
    (turns g 0 0x64 = true ∧ g.colLink = none ∧ (arg (argsOf g 0 7) 2 8 : BitVec 8).toNat ≤ 1) ∧
    (turns h 0 0x64 = true ∧ h.colLink = some 15 ∧ (arg (argsOf h 0 7) 2 8 : BitVec 8) = 0 ∧ h.partner.everUp = true ∧ (h.linkAt 15).state = 1) := by
  refine ⟨?_, ?_, ?_, ?_, ?_, ?_, ?_, ?_, ?_⟩ <;> decide +kernel

/-- A request of BELAY_LOAD or FW_STAGE: an image of `len` bytes at 0x1000. -/
def loadReq (code len : Nat) (args : List (Nat × Nat)) : BitVec 512 := req code ([(0, 0x1000), (8, len)] ++ args)

theorem witness_UnitsAreTestedAndSwapped :
    let q := { Quad.reset with powered := true, refOk := true, pllA := true, pllB := true }
    let kind (s : State) : BitVec 8 := arg (argsOf s 0 7) 0 8
    let unit (s : State) : Nat := (arg (argsOf s 0 7) 2 16 : BitVec 16).toNat
    let action (s : State) : BitVec 8 := arg (argsOf s 0 7) 4 8
    let a := post up 0 (req 0x70 [(2, 4)])
    let b := post { up with quads := [(3, q)] } 0 (req 0x70 [(0, 2), (2, 15), (4, 1), (5, 3), (7, 2)])
    let c := post up 0 (req 0x71 [(2, 3)])
    let back (p : Bool) : State := { up with
      xl := { up.xl with ridge := [{ Ridge.reset 0 with role := 3, passedTest := p, swapped := true }, Ridge.reset 1, Ridge.reset 2, Ridge.reset 3, { Ridge.reset 4 with role := 0 }],
                         ridgeMap := [4, 1, 2, 3] } }
    let d := post (back true) 0 (req 0x71 [(4, 1)])
    let e := post (back false) 0 (req 0x71 [(4, 1)])
    let f := post up 0 (req 0x71 [(0, 1), (2, 255)])
    let g := post { up with bel := [(254, { Belay.reset with role := 1 }), (255, { Belay.reset with role := 2, passedTest := true, swapped := true })] } 0
      (req 0x71 [(0, 1), (2, 255), (4, 1)])
    let h := post up 0 (req 0x71 [(0, 4), (2, 15)])
    let x := post { up with xl := { up.xl with fenceSwap := 1 } } 0 (req 0x71 [(0, 4), (2, 15)])
    let y := post { up with xl := { up.xl with
      pos := [Pos.reset, Pos.reset, Pos.reset, { Pos.reset with egress := [(1, [.record (routed (srcHandle 3) .event)])] }] } } 0 (req 0x71 [(2, 3)])
    let bt := post { up with bel := [(254, { Belay.reset with role := 1 }), (255, { Belay.reset with role := 2, swapped := true })] } 0
      (req 0x70 [(0, 1), (2, 255)])
    let ct := post up 0 (req 0x70 [(0, 3), (2, 1)])
    let kt := post up 0 (req 0x70 [(0, 4), (2, 15)])
    let ut (k : Nat) : State := { up with camp := { up.camp with testing := some { mbox := 0, slot := 7, kind := k, unit := 4, former := 1, found := 0x12345602 } } }
    let ls (n : Nat) : State := post up 0 (req 0x71 [(0, 2), (2, 15), (4, n)])
    let cs := post up 0 (req 0x71 [(0, 3)])
    (∀ s ∈ [a, b, c, d, e, f, g, h, x, y, bt, ct, kt, ut 0, ut 1, ut 3, ut 4, ls 0, ls 1, cs], s.xl.ridge.length = 5 ∧ s.xl.pos.length = 4 ∧ s.xl.ridgeMap.length = 4) ∧
    (turns a 0 0x70 = true ∧ kind a = 0 ∧ unit a = 4 ∧ (∀ j, j < 8 → (arg (argsOf a 0 7) (4 + j) 8 : BitVec 8) = 0) ∧ a.testRefused 0 4 = none) ∧
    (∀ s ∈ [bt, ct, kt], turns s 0 0x70 = true ∧ unit s < unitsOf (kind s).toNat ∧ (∀ j, j < 8 → (arg (argsOf s 0 7) (4 + j) 8 : BitVec 8) = 0) ∧
      s.testRefused (kind s).toNat (unit s) = none) ∧ (kind bt = 1 ∧ kind ct = 3 ∧ kind kt = 4) ∧
    (let r := post up 0 (req 0x70 [(0, 1), (2, 255)])
     turns r 0 0x70 = true ∧ kind r = 1 ∧ unit r < unitsOf 1 ∧ (r.testRefused 1 (unit r)).isSome = true) ∧
    (∀ k ∈ [0, 1, 3, 4], (ut k).pending = [] ∧ (ut k).running = true ∧ (ut k).camp.executing = true ∧ (ut k).cp.held = [] ∧ (ut k).xl.jobs = []) ∧
    (turns b 0 0x70 = true ∧ kind b = 2 ∧ unit b = 15 ∧ action b = 1 ∧ lowestBad (b.laneTestBad (argsOf b 0 7)) = none ∧ b.otherOut 2 15 = false ∧
      b.laneLink 15 = none ∧ (b.quadAt 3).powered = true) ∧
    (turns c 0 0x71 = true ∧ kind c = 0 ∧ unit c = 3 ∧ action c = 0 ∧ c.otherOut 0 3 = false ∧ (c.ridgeAt 3).role = 0 ∧ c.spare = some 4 ∧
      (c.ridgeAt 3).position.toNat = 3 ∧ c.posBusy 3 = false ∧ (c.posAt 3).walks = []) ∧
    (turns y 0 0x71 = true ∧ kind y = 0 ∧ unit y = 3 ∧ action y = 0 ∧ y.otherOut 0 3 = false ∧ (y.ridgeAt 3).role = 0 ∧ y.spare = some 4 ∧
      y.posBusy (y.ridgeAt 3).position.toNat = true) ∧
    (∀ n ∈ [0, 1], turns (ls n) 0 0x71 = true ∧ kind (ls n) = 2 ∧ unit (ls n) = 15 ∧ (action (ls n)).toNat = n ∧ (ls n).laneLink 15 = none ∧
      (ls n).otherOut 2 15 = false) ∧
    (turns cs 0 0x71 = true ∧ kind cs = 3 ∧ unit cs = (if cs.camp.active then 1 else 0) ∧ action cs = 0 ∧ cs.camp.standby = 0 ∧ cs.camp.staged = none) ∧
    ((∀ s ∈ [d, e], turns s 0 0x71 = true ∧ kind s = 0 ∧ unit s = 0 ∧ action s = 1 ∧ (s.ridgeAt 0).role = 3) ∧ (d.ridgeAt 0).passedTest = true ∧
      (∀ p ∈ d.xl.pos, p.unserved = none) ∧ (e.ridgeAt 0).passedTest = false) ∧
    (turns f 0 0x71 = true ∧ kind f = 1 ∧ unit f = 255 ∧ action f = 0 ∧ f.otherOut 1 255 = false ∧ (f.belAt 255).role = 0 ∧ (f.belAt (255 ^^^ 1)).role = 0 ∧
      (f.belAt 255).landing = []) ∧
    (turns g 0 0x71 = true ∧ kind g = 1 ∧ unit g = 255 ∧ action g = 1 ∧ (g.belAt 255).role = 2 ∧ (g.belAt 255).passedTest = true ∧
      (g.belAt 255).pendSwitch = false) ∧
    (turns h 0 0x71 = true ∧ kind h = 4 ∧ unit h = 15 ∧ action h = 0 ∧ h.otherOut 4 15 = false ∧ bitAt h.xl.fenced 15 = false ∧ bitAt h.xl.fenced 14 = false) ∧
    (turns x 0 0x71 = true ∧ (kind x).toNat ≤ 4 ∧ unit x < unitsOf (kind x).toNat ∧ action x = 0 ∧ x.otherOut 4 15 = true) := by
  refine ⟨?_, ?_, ?_, ?_, ?_, ?_, ?_, ?_, ?_, ?_, ?_, ?_, ?_, ?_, ?_, ?_⟩ <;> decide +kernel

theorem witness_CodeIsLoadedAndSwitched :
    let keys (s : State) : State := { s with rom := { key0 := { x := 0, y := 0 }, key1 := signer } }
    let a := post (keys up) 0 (loadReq 0x72 0xC0 [(12, 255)])
    let b := post up 0 (loadReq 0x72 0xC0 [(12, 255)])
    let bel (f : Belay → Belay) : State := { up with bel := [(255, f Belay.reset)] }
    let c := post (bel (fun x => { x with inactive := true, inactiveVer := 6 })) 0 (req 0x73 [(0, 255)])
    let d := post up 0 (req 0x73 [(0, 255)])
    let e := post (bel (fun x => { x with inactive := true, pendSwitch := true, pendSince := 4000 })) 0 (req 0x73 [(0, 255), (2, 1)])
    let f := bel (fun x => { x with inactive := true, pendSwitch := true })
    let g := post (keys up) 0 (loadReq 0x80 0xC0 [])
    let h := post (keys up) 0 (loadReq 0x80 0x80 [])
    let stg : State := { up with camp := { up.camp with standby := 1, staged := some { version := 5, secVer := 3, level := 4 } } }
    let i := post up 0 (req 0x81 [(0, 5)])
    let j := post stg 0 (req 0x81 [(0, 6)])
    let k := post stg 0 (req 0x81 [(0, 5)])
    (∀ s ∈ [a, b], turns s 0 0x72 = true ∧ (field (arg (argsOf s 0 7) 0 64 : BitVec 64) 0 6 : BitVec 6) = 0 ∧
      (arg (argsOf s 0 7) 8 32 : BitVec 32).toNat = 0x80 + (imgCodeLength patch).toNat ∧ (arg (argsOf s 0 7) 12 16 : BitVec 16).toNat = 255 ∧
      (s.belAt 255).pendSwitch = false) ∧
    (imgMagic patch = 0x48435450 ∧ imgReservedZero patch = true ∧ imgCodeOk patch 1024 = true ∧ imgImportFrom patch = 0 ∧ imgSigned a.rom patch = true ∧
      imgSigned a.rom { patch with r := 0 } = false) ∧
    (∀ s ∈ [c, d, e], turns s 0 0x73 = true ∧ (arg (argsOf s 0 7) 0 16 : BitVec 16).toNat = 255) ∧
    ((arg (argsOf c 0 7) 2 8 : BitVec 8) = 0 ∧ (c.belAt 255).inactive = true ∧ (arg (argsOf d 0 7) 2 8 : BitVec 8) = 0 ∧ (d.belAt 255).inactive = false) ∧
    ((arg (argsOf e 0 7) 2 8 : BitVec 8) = 1 ∧ (e.belAt 255).pendSwitch = true ∧ (e.belAt 255).pendSince + 1000 ≤ e.clk.ticks ∧ (e.belAt 255).role = 0 ∧
      (e.belAt (255 ^^^ 1)).role = 0) ∧
    (f.running = true ∧ (f.belAt 255).pendSwitch = true ∧ (f.belAt 255).role = 0) ∧
    ((∀ s ∈ [g, h], turns s 0 0x80 = true ∧ s.camp.standby = 0 ∧ s.camp.staged = none ∧ (field (arg (argsOf s 0 7) 0 64 : BitVec 64) 0 6 : BitVec 6) = 0) ∧
      g.stageFault (argsOf g 0 7) image = none ∧ imgSigned g.rom image = true ∧ h.stageFault (argsOf h 0 7) image = some (badArg 8)) ∧
    (∀ s ∈ [i, j, k], turns s 0 0x81 = true) ∧
    (i.camp.staged = none ∧ j.camp.staged = some { version := 5, secVer := 3, level := 4 } ∧ (arg (argsOf j 0 7) 0 32 : BitVec 32) ≠ 5 ∧
      k.camp.staged = some { version := 5, secVer := 3, level := 4 } ∧ (arg (argsOf k 0 7) 0 32 : BitVec 32) = 5) := by
  refine ⟨?_, ?_, ?_, ?_, ?_, ?_, ?_, ?_, ?_⟩ <;> decide +kernel

theorem witness_CommonUnitCommandsAct :
    let snap (m key : Nat) : State := post up m (req 0x90 [(0, 8), (2, key)])
    let sev (m k s : Nat) : State :=
      post { up with cairn := { up.cairn with recs := [(383, { CairnRec.reset with cause := 0x11, sev := BitVec.ofNat 8 s, valid := true })] } } m (req 0x91 [(0, k)])
    let d := post up 0 (req 0xA0 [(0, 50), (8, 0x111), (16, 7)])
    let desc (s : State) : Desc :=
      { w0 := arg (argsOf s 0 7) 8 64, w1 := arg (argsOf s 0 7) 16 64, w2 := arg (argsOf s 0 7) 24 64, w3 := arg (argsOf s 0 7) 32 64, bad := false }
    let save (w : Bool) (n : Nat) : State :=
      post { up with pwr := { up.pwr with warn := w }, boot := { up.boot with nvmSize := BitVec.ofNat 32 n } } 0 (req 0xF0 [])
    let w : UpWait := { mbox := 0, slot := 7, since := 0, seq := 4, failover := false }
    let h : NvHeader := { NvHeader.reset with state := 1, source := 2, length := 0x3140 }
    let z := { up with pwr := { up.pwr with save := .now w h, saveHead := true } }
    (∀ k ∈ [383, 384], turns (snap 1 k) 1 0x90 = true ∧ (arg (argsOf (snap 1 k) 1 7) 0 8 : BitVec 8) = 8 ∧
      (arg (argsOf (snap 1 k) 1 7) 2 16 : BitVec 16).toNat = k) ∧
    (guestOf 33 = some 31 ∧ guestOf 1 = none ∧ turns (snap 33 383) 33 0x90 = true ∧ (arg (argsOf (snap 33 383) 33 7) 0 8 : BitVec 8) = 8) ∧
    (∀ s ∈ [sev 1 383 2, sev 1 383 3], turns s 1 0x91 = true ∧ (arg (argsOf s 1 7) 0 16 : BitVec 16).toNat = 383) ∧
    (turns (sev 0 383 3) 0 0x91 = true ∧ turns (sev 1 384 0) 1 0x91 = true ∧ ((sev 1 383 2).cairnAt 383).sev.toNat < 3 ∧
      3 ≤ ((sev 1 383 3).cairnAt 383).sev.toNat) ∧
    (turns d 0 0xA0 = true ∧ 50 ≤ (arg (argsOf d 0 7) 0 16 : BitVec 16).toNat ∧ lowestBad (descBad 50 true (desc d)) = none) ∧
    (∀ s ∈ [save false 0x41000, save true 0x41000], turns s 0 0xF0 = true ∧ s.pwr.save = .none ∧ 0x41000 ≤ s.boot.nvmSize.toNat) ∧
    (z.running = true ∧ z.pwr.save = .now w h ∧ z.pwr.saveHead = true ∧
      (∀ r ∈ z.mem.waits ++ z.mem.queued ++ z.mem.out, r.owner ≠ .save) ∧ z.saveSuspect h.length.toNat = false ∧ (z.mbxAt w.mbox).enable = false) := by
  refine ⟨?_, ?_, ?_, ?_, ?_, ?_, ?_, ?_, ?_⟩ <;> decide +kernel

/-- A request of ROPE_MAP: input 63 to output 15, and the lock. -/
def mapReq (locked : Bool) : State := post { up with rope := { up.rope with locked := locked } } 0 (req 0xA1 [(0, 63), (1, 15), (2, 1)])

theorem witness_RopeMapFreezesUntilColdReset :
    let a := mapReq false
    let b := mapReq true
    let c := { b with pending := [.ropeMap 0] }
    (turns a 0 0xA1 = true ∧ a.rope.locked = false ∧ (arg (argsOf a 0 7) 0 8 : BitVec 8).toNat = 63 ∧ (arg (argsOf a 0 7) 1 8 : BitVec 8).toNat = 15 ∧
      (arg (argsOf a 0 7) 2 8 : BitVec 8).toNat ≤ 1) ∧ (turns b 0 0xA1 = true ∧ b.rope.locked = true) ∧
    (c.rope.locked = true ∧ c.pwr.coldHeld = false ∧ c.pending.head? ≠ some .coldReset) ∧ ∃ t, step c = .next t := by
  refine ⟨?_, ?_, ?_, ?_⟩ <;> first | decide +kernel | exact ⟨_, rfl⟩

theorem witness_ColdResetHoldsTheBlock :
    heldAtReset State.reset ∧ ∃ t, step { State.reset with pending := [.rationRound] } = .next t := ⟨⟨rfl, fun _ => rfl, fun _ => rfl, fun _ => rfl, fun _ => rfl⟩, _, rfl⟩

/-- `up` with a command waiting that changes several stores. -/
def waiting : State := { mapReq false with pending := [.ropeMap 0] }

theorem witness_ShapeKeptByEveryStep : Shape waiting ∧ ∃ t, step waiting = .next t :=
  ⟨⟨⟨rfl, rfl⟩, ⟨rfl, rfl, rfl, rfl, rfl, rfl⟩, ⟨rfl, rfl⟩, ⟨rfl, rfl, rfl⟩, ⟨rfl, rfl, rfl⟩, rfl, rfl, ⟨rfl, Nat.zero_le _⟩, Nat.zero_le _, rfl, rfl, rfl, rfl,
    rfl, rfl, rfl, rfl, rfl, rfl, rfl, rfl, rfl, rfl, by decide +kernel⟩, _, rfl⟩

/-! The spec's worked examples, one step or one read each; every expected number is the spec's. -/

/-- The state a command answers. -/
def after (i : Instr) (s : State) : State := match exec i s with | .next t => t | _ => s

/-- Data of the newest response on the control port. -/
def answer (s : State) : Word := match s.cp.responses with | r :: _ => r.data | [] => 0

/-- Spec/01's door-ajar switch, remote source 57 of link 2, pending at target 37, ring 2. -/
def door : Inst := { inst (remoteHandle 2 57) 7 with level := true, prio := 0x9C, vector := 0x2039, target := 37, ring := 2, landed := 999000 }

/-- Spec/06's overcurrent line, source 2,100, landed at tick 1,000,000. -/
def motor : Inst := { inst (srcHandle 2100) 8 with level := true, prio := 0xD0, vector := 0x834, target := 37, ring := 2, landed := 1000000 }

/-- `up` at a tick, target 37 present with instances pending, and those of `stack` claimed on its ring 2. -/
def at37 (tick : Word) (store stack : List Inst) : State :=
  { up with clk := { up.clk with time := tick }, tgt := [(37, { Target.reset with present := true, store := store })],
            pair := [(150, { Pair.reset with
              stack := stack.map (fun i => { inst := i, word := i.word, asserted := false, recorded := none, marked := false, notices := false }) })] }

/-- Spec/01: the level is 0x9C >> 4 = 9 and the claim word 0x989C_0000_0200_2039. -/
theorem test_door_claim :
    let s := at37 999100 [door] []
    s.levelOf 37 2 = 9 ∧ answer (after (.claim (.phys 37 2) true) s) = 0x989C000002002039 := by decide +kernel

/-- Spec/06, steps 1 and 2: the overcurrent instance outranks the door's handler at level 13; its claim word, RUNPRIO and CLAIM_TIME. -/
theorem test_motor_claim :
    let s := at37 1000004 [motor] [door]
    let t := after (.claim (.phys 37 2) true) s
    s.levelOf 37 2 = 13 ∧ answer t = 0x80D0000000000834 ∧ t.readWord (0x1000 + 4 * 37 + 2) 0x38 = 0x0004000000 <<< 24 ||| 0xF4244 ∧
      (t.pairAt 150).stack.map (fun a => a.inst.serial) = [8, 7] ∧ t.levelOf 37 2 = 0 := by decide +kernel

/-- Spec/06, step 3: a word that no entry matches is a stray: STRAY_COUNT and STRAY_LAST. -/
theorem test_motor_stray :
    let t := after (.complete (.phys 37 2) true 0x80D0000000000843) (at37 1000010 [] [motor, door])
    t.readWord (0x1000 + 4 * 37 + 2) 0x40 = 0x0000001000000001 ∧ t.readWord (0x1000 + 4 * 37 + 2) 0x48 = 0x80D0000000000843 ∧
      (t.pairAt 150).stack.length = 2 := by decide +kernel

/-- Spec/06, step 4: the right word pops the top entry alone. -/
theorem test_motor_complete :
    let t := after (.complete (.phys 37 2) true 0x80D0000000000834) (at37 1000020 [] [motor, door])
    (t.pairAt 150).stack.map (fun a => a.inst.serial) = [7] := by decide +kernel

/-- Spec/07: the claim word of the trailer module's group 263. -/
theorem test_group_claim_word :
    ({ inst (remoteHandle 1 96) 9 with prio := 0x88, vector := 0x1060, group := 263, counted := true, count := 40, due := true } : Inst).word =
      0xB888002801001060 := by decide +kernel

/-- Spec/05's five instances on target 70, ring 2, and its lidar handler active at priority 0x90. -/
def five : List Inst :=
  [{ inst (msgHandle 0x0320 5) 5 with prio := 0x98, input := 3 }, { inst (msgHandle 0x0310 0x40) 3 with prio := 0xB4, input := 2, arrival := 0x1F3E },
   { inst (msgHandle 0x0310 0x41) 2 with prio := 0xB4, input := 2, arrival := 0x1F40 }, { inst (remoteHandle 2 12) 1 with prio := 0xB4, input := 10 },
   { inst (srcHandle 4000) 0 with prio := 0xC0, input := 9 }].map (fun i => { i with target := 70, ring := 2 })

def at70 (store : List Inst) (run : BitVec 8) : State :=
  { up with tgt := [(70, { Target.reset with present := true, store := store })], frame := [(282, { Frame.reset with threshold := 0xA0 })],
            pair := [(282, { Pair.reset with stack :=
              [{ inst := { inst (msgHandle 0x0300 0) 99 with prio := run, target := 70, ring := 2 }, word := 0, asserted := false, recorded := none,
                 marked := false, notices := false }] })] }

/-- Spec/05's table: level and WHY with all pending, with A claimed, with A completed, and with E alone. -/
theorem test_five_levels :
    ((at70 five 0x90).levelOf 70 2, (at70 five 0x90).whyNot 70 2 none) = (12, 0) ∧
    ((at70 (five.take 4) 0xC0).levelOf 70 2, (at70 (five.take 4) 0xC0).whyNot 70 2 none) = (0, 3) ∧
    ((at70 (five.take 4) 0x90).levelOf 70 2, (at70 (five.take 4) 0x90).whyNot 70 2 none) = (11, 0) ∧
    ((at70 (five.take 1) 0x90).levelOf 70 2, (at70 (five.take 1) 0x90).whyNot 70 2 none) = (0, 4) := by decide +kernel

/-- Spec/05: of B, C and D the class 3 instance is the top; of C and D the one of the lower arrival count. -/
theorem test_five_order :
    ((at70 (five.take 4) 0x90).topOf 70 2 none).map (fun i => i.serial) = some 1 ∧
    ((at70 (five.take 3) 0x90).topOf 70 2 none).map (fun i => i.serial) = some 3 := by decide +kernel

/-- Spec/02: the hypervisor's write of 0x25_0003 from target 5, ring 1, raises SGI 3 of target 37 with PAYLOAD 0x0205. -/
theorem test_sgi_payload :
    let t := after (.sgiSend 5 1 .full 0x250003 0) up
    (t.srcAt (8192 + 64 * 37 + 3)).pend = true ∧ (t.srcAt (8192 + 64 * 37 + 3)).sender = 0x205 := by decide +kernel

/-- Spec/04: after the audio DSP's 1,024 entries, first-fit at 14,927; before, 1,457 entries are free and 2,048 find no place. -/
theorem test_pinning_first_fit :
    let b : List PinBlock := [{ req := 0xFF00, base := 0, len := 420 }, { req := 0xFF01, base := 420, len := 260 }, { req := 0xFF02, base := 680, len := 310 },
      { req := 0xFF03, base := 990, len := 305 }, { req := 0x500, base := 1295, len := 8192 }, { req := 0x200, base := 9487, len := 4096 },
      { req := 0x320, base := 13583, len := 1024 }, { req := 0x310, base := 14607, len := 256 }, { req := 0x410, base := 14863, len := 64 }]
    firstFit 2048 0 b = none ∧ firstFit 1024 0 b = some 14927 ∧ ({ up with xl := { up.xl with blocks := b } } : State).pinnedUsed = 14927 := by
  decide +kernel

/-- Spec/11: EVT_MAP of event 0x13 of requester 0x0220 answers OK with GENERATION 3, and event 0x20 is BAD_ARG with DETAIL 4. -/
theorem test_evt_map_example :
    let s (r : BitVec 512) : State := post { up with
      xl := { up.xl with dev := [(0x220, { DevEntry.reset with valid := true, eventBits := 5, ingress := 0x1FF, devGen := 3 })] },
      camp := { up.camp with execSeq := 0x1A2E } } 1 r
    let reply (e tag : Nat) : BitVec 512 :=
      ((after (.evtMap 1) (s (BitVec.ofNat 512 (0x001100000021 + tag * 2 ^ 16 + 0x220 * 2 ^ 64 + e * 2 ^ 96 + 0x0413006000007008 * 2 ^ 128)))).slotAt 1 7).resp
    field (reply 0x13 7) 0 64 = (0x0000000000070021 : Word) ∧ field (reply 0x13 7) 64 64 = (0x0000000300001A2F : Word) ∧
      field (reply 0x20 8) 0 64 = (0x0004000500080021 : Word) := by decide +kernel

/-- Spec/16: the infotainment guest's descriptor of slot 19 lets master 0x0165 of ring 2 in and turns master 0x0125 away (DENIED_MASTER). -/
theorem test_access_slot_example :
    let s := { up with acc := { up.acc with slot := [(19, { w0 := 0x377, w1 := 0xFFF00160, w2 := 0, w3 := 0, bad := false })] } }
    let a (m : BitVec 16) : Access := { addr := 0x13400, size8 := true, sizeOk := true, data := 0, parity := 0, master := m, ring := 2, tag := 0, rescue := false }
    s.refusal (a 0x165) false ≠ some 2 ∧ s.accessCause (a 0x165) false = none ∧ s.accessCause (a 0x125) false = some 2 := by decide +kernel

/-- Spec/16: the ration frame's refusal of ring 1 goes into RECORD0 and FIRST. -/
theorem test_violation_record_example :
    let s := { up with
      clk := { up.clk with time := 200000000 }, acc := { up.acc with slot := [(3, { w0 := 0x111, w1 := 0, w2 := 0, w3 := 0, bad := false })] } }
    let a : Access := { addr := 0x3040, size8 := false, sizeOk := true, data := 0, parity := 0xFF, master := 0x105, ring := 1, tag := 0, rescue := false }
    let v := s.violation a false 1 3
    v.w0 = 0x0105000510003040 ∧ v.w1 = 0x00000BEBC2000003 ∧ v.w2 = 0 := by decide +kernel

/-- Spec/12: at 1 GHz LATENCY_MAX is 904 ns, and 8,192 bytes of contract make a MEM_LIMIT of 7,372. -/
theorem test_admission_limits :
    let c : Contract := { bytes := 8192, latency := 600, percentile := 9990, keepWarm := true }
    let s := { up with rat := { up.rat with memKHz := 1000000, ready := true, contract := some c } }
    s.latencyMax = 904 ∧ s.memLimit = 7372 := by decide +kernel

/-- The one ill-formed term: a scrub read past its region's words. The check refuses it, and so does the block, by name. -/
theorem test_ill_formed_scrub_read :
    Instr.wf (.scrubRead 0 (sramWords 0) none false) = false ∧ Instr.wf (.scrubRead 0 (sramWords 0 - 1) none false) = true ∧
      exec (.scrubRead 0 (sramWords 0) none false) up = .refused .illFormed := ⟨by decide +kernel, by decide +kernel, rfl⟩

/-- R398: nothing acts on a block held in cold reset but the pins; a command is taken off the queue and changes nothing else. -/
theorem test_cold_held_command : step { State.reset with pending := [.rationRound] } = .next State.reset := rfl

end Sys2Proof.Tests
end

section
/-! SUPPORT. One rule for each operation of the wired collector (spec/02 R38, R39, R47): what it makes of the source it names, and that it
touches no other. -/

namespace Sys2Proof.Machine

/-! ### A source's own operations -/

/-- A withdraw in closed form: the flags move only where OFFERED was 1. -/
theorem Source.withdraw_eq (x : Source) (w : Bool) : x.withdraw w =
    { x with
      offered := false, wdraw := x.wdraw || x.offered, byWrite := x.byWrite || (x.offered && w),
      mergeOwed := if x.offered then 0 else x.mergeOwed } := by
  unfold Source.withdraw
  split
  next h => simp [h]
  next h => cases x; simp_all

@[simp] theorem Source.withdraw_en (x : Source) (w : Bool) : (x.withdraw w).en = x.en := by simp [Source.withdraw_eq]
@[simp] theorem Source.withdraw_pend (x : Source) (w : Bool) : (x.withdraw w).pend = x.pend := by simp [Source.withdraw_eq]
@[simp] theorem Source.withdraw_storm (x : Source) (w : Bool) : (x.withdraw w).storm = x.storm := by simp [Source.withdraw_eq]
@[simp] theorem Source.withdraw_winOpen (x : Source) (w : Bool) : (x.withdraw w).winOpen = x.winOpen := by simp [Source.withdraw_eq]
@[simp] theorem Source.withdraw_winCount (x : Source) (w : Bool) : (x.withdraw w).winCount = x.winCount := by simp [Source.withdraw_eq]
@[simp] theorem Source.withdraw_stormWindow (x : Source) (w : Bool) : (x.withdraw w).stormWindow = x.stormWindow := by simp [Source.withdraw_eq]
@[simp] theorem Source.withdraw_stormLimit (x : Source) (w : Bool) : (x.withdraw w).stormLimit = x.stormLimit := by simp [Source.withdraw_eq]

theorem Source.withdraw_unoffered {x : Source} (h : x.offered = false) (w : Bool) : x.withdraw w = x := by
  simp [Source.withdraw, h]

theorem Source.drop_eff {x : Source} (h : x.eff = true) (w : Bool) : x.drop w = x := by simp [Source.drop, h]

theorem Source.drop_ineff {x : Source} (h : x.eff = false) (w : Bool) : x.drop w = x.withdraw w := by simp [Source.drop, h]

theorem Source.drop_unoffered {x : Source} (h : x.offered = false) (w : Bool) : x.drop w = x := by
  simp [Source.drop, Source.withdraw_unoffered h]

@[simp] theorem Source.drop_en (x : Source) (w : Bool) : (x.drop w).en = x.en := by unfold Source.drop; split <;> simp
@[simp] theorem Source.drop_pend (x : Source) (w : Bool) : (x.drop w).pend = x.pend := by unfold Source.drop; split <;> simp

/-- A source that is disabled is not effectively enabled. -/
theorem Source.eff_disabled {x : Source} (h : x.en = false) : x.eff = false := by simp [Source.eff, h]

/-- EN = 0 withdraws what is offered, whatever STORM and the priority are. -/
theorem Source.drop_disabled (x : Source) (w : Bool) : Source.drop { x with en := false } w = Source.withdraw { x with en := false } w :=
  Source.drop_ineff (Source.eff_disabled rfl) w

theorem Source.clearPend_eq (x : Source) (w : Bool) : x.clearPend w =
    { x with
      pend := false, offered := false, wdraw := x.wdraw || x.offered, byWrite := x.byWrite || (x.offered && w), weight := 0,
      mergeOwed := if x.offered then 0 else x.mergeOwed } := by
  simp [Source.clearPend, Source.withdraw_eq]

theorem Source.isEdge_of_trigger {x : Source} (n : Nat) (h : x.trigger ≠ 0) : x.isEdge n = true :=
  Bool.or_eq_true_iff.mpr (.inr (bne_iff_ne.mpr h))

/-- The level sources are those with TRIGGER 0, but for the SGIs. -/
theorem Source.isEdge_level {x : Source} {n : Nat} (hs : isSgi n = false) (h : x.trigger = 0) : x.isEdge n = false := by
  simp [Source.isEdge, hs, h]

theorem isSgi_eq_false_iff (n : Nat) : isSgi n = false ↔ n < 8192 ∨ 16 ≤ (n - 8192) % 64 := by simp [isSgi]; omega

theorem isSgi_shared {n : Nat} (h : n < 8192) : isSgi n = false := (isSgi_eq_false_iff n).mpr (.inl h)

theorem isReserved_shared {n : Nat} (h : n < 8192) : isReserved n = false := by simp [isReserved]; omega

/-- A source with a line is no SGI. -/
theorem isSgi_of_hasLine {src : Src} (h : srcHasLine src = true) : isSgi (srcNum src) = false := by
  cases src with
  | shared n => exact isSgi_shared n.isLt
  | priv t k =>
    have h := of_decide_eq_true (Bool.and_eq_true_iff.mp h).1
    exact (isSgi_eq_false_iff _).mpr (.inr (by simp only [srcNum]; omega))

/-! ### What an operation touches -/

/-- Nothing but the record of wired source `n` and the reports that wait differs. -/
def State.touches (s t : State) (n : Nat) : Prop :=
  t = { s with wired := { s.wired with src := t.wired.src }, cairn := t.cairn } ∧ ∀ k, k ≠ n → t.srcAt k = s.srcAt k

theorem State.touches_refl (s : State) (n : Nat) : s.touches s n := ⟨rfl, fun _ _ => rfl⟩

theorem State.touches.trans {s t u : State} {n : Nat} (h : s.touches t n) (g : t.touches u n) : s.touches u n := by
  refine ⟨?_, fun k hk => (g.2 k hk).trans (h.2 k hk)⟩
  rw [g.1, h.1]

theorem State.updSrc_touches (s : State) (n : Nat) (f : Source → Source) : s.touches (s.updSrc n f) n :=
  ⟨rfl, fun _ hk => State.updSrc_srcAt_other s n f hk⟩

theorem State.report_touches (s : State) (m : Nat) (c k : BitVec 8) (u : BitVec 16) (v : BitVec 2) (d : BitVec 32) (n : Nat) :
    s.touches (s.report (.other m) c k u v d) n := by
  rw [State.report_other_frame]
  exact ⟨rfl, fun _ _ => rfl⟩

theorem onlySource_refl (s : State) (n : Nat) : onlySource s s n := ⟨rfl, fun _ _ => rfl⟩

theorem onlySource_updSrc (s : State) (n : Nat) (f : Source → Source) : onlySource s (s.updSrc n f) n :=
  ⟨rfl, fun _ hk => State.updSrc_srcAt_other s n f hk⟩

theorem onlySource.trans {s t u : State} {n : Nat} (h : onlySource s t n) (g : onlySource t u n) : onlySource s u n := by
  refine ⟨?_, fun k hk => (g.2 k hk).trans (h.2 k hk)⟩
  rw [g.1, h.1]

theorem onlySource.touches {s t : State} {n : Nat} (h : onlySource s t n) : s.touches t n := by
  refine ⟨?_, h.2⟩
  rw [h.1]

/-! ### The storm guard and the occurrence -/

/-- What keeps the storm fields of the one source it touches leaves its guard as it was. -/
theorem State.touches.stormOf {s t : State} {n : Nat} (h : s.touches t n) (hw : (t.srcAt n).stormWindow = (s.srcAt n).stormWindow)
    (hl : (t.srcAt n).stormLimit = (s.srcAt n).stormLimit) : t.stormOf n = s.stormOf n := by
  have hb : t.wired.bank = s.wired.bank := congrArg (·.wired.bank) h.1
  simp only [State.stormOf, State.bankAt, hw, hl, hb]

theorem State.stormOf_sgi (s : State) {n : Nat} (h : isSgi n = true) : (s.stormOf n).2 = 0 := by
  have hn : ¬n < 8192 := by simp [isSgi] at h; omega
  simp [State.stormOf, hn, h]

theorem State.countStorm_unguarded {s : State} {n : Nat} (h : (s.stormOf n).2 = 0) : s.countStorm n = s := by simp [State.countStorm, h]

/-- Within an open window the occurrence adds one to the count. -/
theorem State.countStorm_inWindow {s : State} {n : Nat} (hg : (s.stormOf n).2 ≠ 0) (ho : (s.srcAt n).winOpen = true) (hw : s.windowOver n = false) :
    s.countStorm n = s.updSrc n (fun x => { x with winCount := x.winCount + 1 }) := by
  simp [State.countStorm, hg, ho, hw]

theorem State.countStorm_touches (s : State) (n : Nat) : s.touches (s.countStorm n) n := by
  unfold State.countStorm
  split
  · exact s.touches_refl n
  · split <;> exact s.updSrc_touches n _

/-- PEND set, or merged into (spec/02 R39): an occurrence but for the guard. -/
def State.pended (s : State) (n : Nat) (payload : BitVec 16) : State :=
  if (s.srcAt n).pend then s.mergeOccur n else s.updSrc n (fun x => { x with pend := true, weight := 1, sender := payload })

theorem State.occur_eq (s : State) (n : Nat) (payload : BitVec 16) :
    s.occur n payload =
      if ((s.countStorm n).pended n payload).tripped n then ((s.countStorm n).pended n payload).trip n else (s.countStorm n).pended n payload := rfl

theorem State.pended_first {s : State} {n : Nat} (h : (s.srcAt n).pend = false) (payload : BitVec 16) :
    s.pended n payload = s.updSrc n (fun x => { x with pend := true, weight := 1, sender := payload }) := by simp [State.pended, h]

theorem State.pended_again {s : State} {n : Nat} (h : (s.srcAt n).pend = true) (payload : BitVec 16) : s.pended n payload = s.mergeOccur n := by
  simp [State.pended, h]

theorem State.pended_onlySource (s : State) (n : Nat) (payload : BitVec 16) : onlySource s (s.pended n payload) n := by
  unfold State.pended
  split <;> exact onlySource_updSrc s n _

theorem State.pended_pend (s : State) (n : Nat) (payload : BitVec 16) : ((s.pended n payload).srcAt n).pend = true := by
  unfold State.pended
  split
  next h => simp [State.mergeOccur, h]
  next => simp

theorem State.pended_winOpen (s : State) (n : Nat) (payload : BitVec 16) : ((s.pended n payload).srcAt n).winOpen = (s.srcAt n).winOpen := by
  unfold State.pended
  split <;> simp [State.mergeOccur]

theorem State.pended_winCount (s : State) (n : Nat) (payload : BitVec 16) : ((s.pended n payload).srcAt n).winCount = (s.srcAt n).winCount := by
  unfold State.pended
  split <;> simp [State.mergeOccur]

theorem State.pended_stormOf (s : State) (n : Nat) (payload : BitVec 16) : (s.pended n payload).stormOf n = s.stormOf n := by
  unfold State.pended
  split <;> exact (s.updSrc_touches n _).stormOf (by simp) (by simp)

/-- What a trip makes of the source (spec/02 R47). -/
theorem State.trip_srcAt (s : State) (n : Nat) :
    (s.trip n).srcAt n = Source.withdraw { s.srcAt n with storm := true, en := false } false := by
  have h : ((s.updSrc n fun x => Source.drop { x with storm := true, en := false } false)).srcAt n = _ := State.updSrc_srcAt_same s n _
  rw [Source.drop_ineff (Source.eff_disabled rfl)] at h
  rw [← h]
  unfold State.trip
  rw [State.report_other_frame]
  rfl

theorem State.trip_touches (s : State) (n : Nat) : s.touches (s.trip n) n :=
  (s.updSrc_touches n _).trans (State.report_touches _ _ _ _ _ _ _ n)

theorem State.trip_stormOf (s : State) (n : Nat) : (s.trip n).stormOf n = s.stormOf n :=
  (s.trip_touches n).stormOf (by simp [State.trip_srcAt]) (by simp [State.trip_srcAt])

/-- An occurrence of a source without a guard sets PEND or merges, and that is all. -/
theorem State.occur_unguarded {s : State} {n : Nat} (h : (s.stormOf n).2 = 0) (payload : BitVec 16) : s.occur n payload = s.pended n payload := by
  rw [State.occur_eq, State.countStorm_unguarded h]
  simp [State.tripped, State.pended_stormOf, h]

/-- Occurrence STORM_LIMIT + 1 of an open window trips the guard. -/
theorem State.occur_trips {s : State} {n : Nat} (hg : (s.stormOf n).2 ≠ 0) (ho : (s.srcAt n).winOpen = true) (hw : s.windowOver n = false)
    (hc : (s.srcAt n).winCount = (s.stormOf n).2) (payload : BitVec 16) :
    s.occur n payload = ((s.updSrc n (fun x => { x with winCount := x.winCount + 1 })).pended n payload).trip n := by
  have hs : (s.updSrc n fun x => { x with winCount := x.winCount + 1 }).stormOf n = s.stormOf n :=
    (s.updSrc_touches n _).stormOf (by simp) (by simp)
  rw [State.occur_eq, State.countStorm_inWindow hg ho hw, if_pos]
  simp [State.tripped, State.pended_stormOf, State.pended_winOpen, State.pended_winCount, hs, hg, ho, hc]

theorem State.occur_touches (s : State) (n : Nat) (payload : BitVec 16) : s.touches (s.occur n payload) n := by
  have h := (s.countStorm_touches n).trans ((s.countStorm n).pended_onlySource n payload).touches
  rw [State.occur_eq]
  split
  · exact h.trans (State.trip_touches _ n)
  · exact h

/-- An occurrence leaves PEND = 1, tripped or not. -/
theorem State.occur_pend (s : State) (n : Nat) (payload : BitVec 16) : ((s.occur n payload).srcAt n).pend = true := by
  have h := (s.countStorm n).pended_pend n payload
  rw [State.occur_eq]
  split
  · rw [State.trip_srcAt, Source.withdraw_pend]; exact h
  · exact h

/-! ### The line -/

/-- The level of a line taken in, as the edge reference too. -/
def State.lineKept (s : State) (n : Nat) (level : Bool) : State := s.updSrc n (fun x => { x with line := level, ref := level })

/-- Whether a change to a level is an edge of a source (spec/02 R35 TRIGGER, POLARITY). -/
def Source.edgeTo (x : Source) (level : Bool) : Prop := x.ref ≠ level ∧ (x.trigger = 2 ∨ level ≠ x.polarity)

@[simp] theorem State.lineKept_srcAt (s : State) (n : Nat) (level : Bool) :
    (s.lineKept n level).srcAt n = { s.srcAt n with line := level, ref := level } := State.updSrc_srcAt_same s n _

theorem State.lineKept_stormOf (s : State) (n : Nat) (level : Bool) : (s.lineKept n level).stormOf n = s.stormOf n :=
  (s.updSrc_touches n _).stormOf (by simp) (by simp)

theorem State.lineKept_onlySource (s : State) (n : Nat) (level : Bool) : onlySource s (s.lineKept n level) n := onlySource_updSrc s n _

theorem State.lineSeen_edge {s : State} {n : Nat} {level : Bool} (he : (s.srcAt n).isEdge n = true) (hx : (s.srcAt n).edgeTo level) :
    s.lineSeen n level = (s.lineKept n level).occur n 0 := by
  obtain ⟨hr, ht⟩ := hx
  have he' : ((s.lineKept n level).srcAt n).isEdge n = true := by rw [State.lineKept_srcAt]; exact he
  have hb : ((s.srcAt n).ref != level && ((s.srcAt n).trigger == 2 || level != (s.srcAt n).polarity)) = true := by
    simpa [hr] using ht
  simp only [State.lineSeen, hb, he]
  rfl

theorem State.lineSeen_noEdge {s : State} {n : Nat} {level : Bool} (he : (s.srcAt n).isEdge n = true) (hx : ¬(s.srcAt n).edgeTo level) :
    s.lineSeen n level = s.lineKept n level := by
  have hb : ((s.srcAt n).ref != level && ((s.srcAt n).trigger == 2 || level != (s.srcAt n).polarity)) = false := by
    simpa [Source.edgeTo] using hx
  simp only [State.lineSeen, hb, he]
  rfl

theorem State.lineSeen_level {s : State} {n : Nat} (level : Bool) (he : (s.srcAt n).isEdge n = false) :
    s.lineSeen n level = (s.lineKept n level).levelLine n := by
  simp only [State.lineSeen, he]
  rfl

theorem State.levelLine_active {s : State} {n : Nat} (h : (s.srcAt n).act = true) : s.levelLine n = s := by simp [State.levelLine, h]

theorem State.levelLine_asserted {s : State} {n : Nat} (ha : (s.srcAt n).act = false) (hl : (s.srcAt n).asserted = true)
    (hp : (s.srcAt n).pend = false) : s.levelLine n = s.occur n 0 := by simp [State.levelLine, ha, hl, hp]

theorem State.levelLine_deasserted {s : State} {n : Nat} (ha : (s.srcAt n).act = false) (hl : (s.srcAt n).asserted = false)
    (hp : (s.srcAt n).pend = true) : s.levelLine n = s.updSrc n (fun x => x.clearPend false) := by simp [State.levelLine, ha, hl, hp]

theorem State.levelLine_touches (s : State) (n : Nat) : s.touches (s.levelLine n) n := by
  simp only [State.levelLine]
  split
  · exact s.touches_refl n
  · split
    · split
      · exact s.touches_refl n
      · exact s.occur_touches n 0
    · split
      · exact s.updSrc_touches n _
      · exact s.touches_refl n

theorem State.lineSeen_touches (s : State) (n : Nat) (level : Bool) : s.touches (s.lineSeen n level) n := by
  have hk := (s.lineKept_onlySource n level).touches
  by_cases he : (s.srcAt n).isEdge n = true
  · by_cases hx : (s.srcAt n).edgeTo level
    · rw [State.lineSeen_edge he hx]; exact hk.trans (State.occur_touches _ n 0)
    · rw [State.lineSeen_noEdge he hx]; exact hk
  · rw [State.lineSeen_level level (by simpa using he)]; exact hk.trans (State.levelLine_touches _ n)

end Sys2Proof.Machine
end

section
/-! SUPPORT. What a wired line change and the four one-source registers do (spec/02 R38, R39, R46). -/

namespace Sys2Proof.Machine

/-- A block that runs is not parked. -/
theorem State.running_state {s : State} (h : s.running = true) : s.pwr.state ≠ 3 := by
  simp only [State.running, Bool.and_eq_true] at h
  exact bne_iff_ne.mp h.2

/-- A line change of a block that runs, its lines live, is what the collector sees. -/
theorem exec_wiredLineChange {src : Src} (level : Bool) {s : State} (hl : srcHasLine src = true) (hr : s.running = true)
    (hw : s.wired.live = true) : exec (.wiredLineChange src level) s = .next (s.lineSeen (srcNum src) level) := by
  change execWiredLineChange src level s = _
  have hs : (s.pwr.state == 3) = false := beq_eq_false_iff_ne.mpr (State.running_state hr)
  simp only [execWiredLineChange, hl, hr, hw, hs]
  rfl

/-- The first occurrence of a source without a guard, said with its frame. -/
theorem State.occur_first {s : State} {n : Nat} (hg : (s.stormOf n).2 = 0) (hp : (s.srcAt n).pend = false) (payload : BitVec 16) :
    onlySource s (s.occur n payload) n ∧ (s.occur n payload).srcAt n = { s.srcAt n with pend := true, weight := 1, sender := payload } := by
  rw [State.occur_unguarded hg, State.pended_first hp]
  exact ⟨onlySource_updSrc s n _, State.updSrc_srcAt_same s n _⟩

/-- An occurrence merged into one that is pending and not offered, without a guard. -/
theorem State.occur_merged {s : State} {n : Nat} (hg : (s.stormOf n).2 = 0) (hp : (s.srcAt n).pend = true) (ho : (s.srcAt n).offered = false)
    (payload : BitVec 16) :
    onlySource s (s.occur n payload) n ∧ (s.occur n payload).srcAt n =
      { s.srcAt n with
        merged := if n < 8192 then satInc (s.srcAt n).merged else (s.srcAt n).merged, weight := satInc (s.srcAt n).weight } := by
  rw [State.occur_unguarded hg, State.pended_again hp]
  refine ⟨onlySource_updSrc s n _, ?_⟩
  simp [State.mergeOccur, ho]

/-- Settles O4: the line's level is kept first, and the source's trigger then says what the change is. -/
theorem wiredLineChangeFollowsTrigger : Obligations.WiredLineChangeFollowsTrigger := by
  intro src level s hline hrun hlive hguard n x edge seen
  have hexec := exec_wiredLineChange level hline hrun hlive
  have hkept := s.lineKept_onlySource n level
  have hseen : (s.lineKept n level).srcAt n = seen := s.lineKept_srcAt n level
  have hg : ((s.lineKept n level).stormOf n).2 = 0 := by rw [State.lineKept_stormOf]; exact hguard
  have hlevel (ht : x.trigger = 0) : exec (.wiredLineChange src level) s = .next ((s.lineKept n level).levelLine n) := by
    rw [hexec, State.lineSeen_level level (Source.isEdge_level (isSgi_of_hasLine hline) ht)]
  have hedge (ht : x.trigger ≠ 0) (he : edge) : exec (.wiredLineChange src level) s = .next ((s.lineKept n level).occur n 0) := by
    rw [hexec, State.lineSeen_edge (Source.isEdge_of_trigger n ht) he]
  refine ⟨fun ht he hp => ?_, fun ht he hp ho => ?_, fun ht he => ?_, fun ht ha => ?_, fun ht ha hl hp => ?_, fun ht ha hl hp => ?_⟩
  · obtain ⟨hf, hx⟩ := State.occur_first hg (by rw [hseen]; exact hp) 0
    exact ⟨_, hedge ht he, hkept.trans hf, by rw [hx, hseen]⟩
  · obtain ⟨hf, hx⟩ := State.occur_merged hg (by rw [hseen]; exact hp) (by rw [hseen]; exact ho) 0
    exact ⟨_, hedge ht he, hkept.trans hf, by rw [hx, hseen]⟩
  · exact ⟨_, hexec.trans (by rw [State.lineSeen_noEdge (Source.isEdge_of_trigger _ ht) he]), hkept, hseen⟩
  · exact ⟨_, (hlevel ht).trans (by rw [State.levelLine_active (by rw [hseen]; exact ha)]), hkept, hseen⟩
  · have hsees : seen.asserted = true := bne_iff_ne.mpr hl
    rw [State.levelLine_asserted (by rw [hseen]; exact ha) (by rw [hseen]; exact hsees) (by rw [hseen]; exact hp)] at hlevel
    obtain ⟨hf, hx⟩ := State.occur_first hg (by rw [hseen]; exact hp) 0
    exact ⟨_, hlevel ht, hkept.trans hf, by rw [hx, hseen]⟩
  · have hsees : seen.asserted = false := bne_eq_false_iff_eq.mpr hl
    rw [State.levelLine_deasserted (by rw [hseen]; exact ha) (by rw [hseen]; exact hsees) (by rw [hseen]; exact hp)] at hlevel
    refine ⟨_, hlevel ht, hkept.trans (onlySource_updSrc _ n _), ?_⟩
    rw [State.updSrc_srcAt_same, hseen, Source.clearPend_eq, Bool.and_false, Bool.or_false]

/-! ### The one-source registers -/

section
variable {src : Src} {s : State} (hr : s.running = true) (hn : isReserved (srcNum src) = false)
include hr hn

theorem exec_setpend : exec (.setpend src) s = .next (s.setPend (srcNum src) true) := by
  change execSetpend src s = _
  simp [execSetpend, hr, hn]

theorem exec_clrpend : exec (.clrpend src) s = .next (s.setPend (srcNum src) false) := by
  change execClrpend src s = _
  simp [execClrpend, hr, hn]

theorem exec_seten : exec (.seten src) s = .next (s.setEn (srcNum src) true) := by
  change execSeten src s = _
  simp [execSeten, hr, hn]

theorem exec_clren : exec (.clren src) s = .next (s.setEn (srcNum src) false) := by
  change execClren src s = _
  simp [execClren, hr, hn]

end

theorem State.setPend_occur {s : State} {n : Nat} (h : (s.srcAt n).isEdge n = true) : s.setPend n true = s.occur n 0 := by simp [State.setPend, h]

theorem State.setPend_clear {s : State} {n : Nat} (h : (s.srcAt n).isEdge n = true) :
    s.setPend n false = s.updSrc n (fun x => x.clearPend true) := by simp [State.setPend, h]

theorem State.setPend_level {s : State} {n : Nat} (h : (s.srcAt n).isEdge n = false) (v : Bool) : s.setPend n v = s := by
  simp [State.setPend, h]

theorem State.setEn_srcAt (s : State) (n : Nat) (v : Bool) : (s.setEn n v).srcAt n = Source.drop { s.srcAt n with en := v } true :=
  State.updSrc_srcAt_same s n _

theorem State.setEn_onlySource (s : State) (n : Nat) (v : Bool) : onlySource s (s.setEn n v) n := onlySource_updSrc s n _

/-- EN = 1 leaves the rest where nothing is offered, or the source may be emitted once it is enabled. -/
theorem Source.drop_enabled {x : Source} (h : x.offered = true → x.storm = false ∧ x.prioNow ≠ 0) (w : Bool) :
    Source.drop { x with en := true } w = { x with en := true } := by
  by_cases ho : x.offered = true
  · obtain ⟨hs, hp⟩ := h ho
    have he : Source.eff { x with en := true } = true := by
      simp only [Source.eff, hs, Bool.not_false, Bool.and_true, Bool.true_and]
      exact bne_iff_ne.mpr hp
    exact Source.drop_eff he w
  · exact Source.drop_unoffered (by simpa using ho) w

/-- SETPEND of an edge source is an occurrence. -/
theorem exec_setpend_edge {src : Src} {s : State} (hr : s.running = true) (hn : isReserved (srcNum src) = false)
    (he : (s.srcAt (srcNum src)).isEdge (srcNum src) = true) : exec (.setpend src) s = .next (s.occur (srcNum src) 0) := by
  rw [exec_setpend hr hn, State.setPend_occur he]

/-- Settles O5: each register is one rule of the collector on the source it names. -/
theorem oneSourceRegistersActOnOneSource : Obligations.OneSourceRegistersActOnOneSource := by
  intro src s hrun hres n x
  refine ⟨fun he hp hg => ?_, fun he => ?_, fun he => ⟨?_, ?_⟩, ?_, ?_⟩
  · obtain ⟨hf, hx⟩ := State.occur_first hg hp 0
    exact ⟨_, exec_setpend_edge hrun hres he, hf, hx⟩
  · refine ⟨_, (exec_clrpend hrun hres).trans (by rw [State.setPend_clear he]), onlySource_updSrc s n _, ?_⟩
    rw [State.updSrc_srcAt_same, Source.clearPend_eq, Bool.and_true]
  · rw [exec_setpend hrun hres, State.setPend_level he]
  · rw [exec_clrpend hrun hres, State.setPend_level he]
  · refine ⟨_, exec_seten hrun hres, s.setEn_onlySource n true, ?_, fun h => ?_⟩
    · rw [State.setEn_srcAt, Source.drop_en]
    · rw [State.setEn_srcAt, Source.drop_enabled h]
  · refine ⟨_, exec_clren hrun hres, s.setEn_onlySource n false, ?_⟩
    rw [State.setEn_srcAt, Source.drop_disabled, Source.withdraw_eq, Bool.and_true]

end Sys2Proof.Machine
end

section
/-! SUPPORT. Folds over the bits of a word, what a bit written does to its source (spec/02 R43, R44, R48, R49), and the storm trip (R47). -/

namespace Sys2Proof.Machine

/-! ### Folds over a word -/

theorem foldFrom_keeps_within {β : Type} (f : Nat → State → State) (p : State → β) (i n : Nat) (s : State)
    (h : ∀ j, i ≤ j → j < i + n → ∀ s, p (f j s) = p s) : p (foldFrom f i n s) = p s := by
  induction n generalizing i s with
  | zero => rfl
  | succ n ih =>
    have hrest := ih (i + 1) (f i s) (fun j hi hj => h j (by omega) (by omega))
    exact hrest.trans (h i (Nat.le_refl i) (by omega) s)

theorem foldBelow_keeps_within {β : Type} (f : Nat → State → State) (p : State → β) (n : Nat) (s : State)
    (h : ∀ j, j < n → ∀ s, p (f j s) = p s) : p (foldBelow n f s) = p s :=
  foldFrom_keeps_within f p 0 n s (fun j _ hj => h j (by omega))

/-- Where only turn `j` of a fold may change a view of the state, the fold changes it as that turn does, on a state that shows the old view. -/
theorem foldFrom_visit {β : Type} (f : Nat → State → State) (p : State → β) (i n j : Nat) (s : State) (hi : i ≤ j) (hj : j < i + n)
    (h : ∀ k, k ≠ j → ∀ s, p (f k s) = p s) : ∃ u, p u = p s ∧ p (foldFrom f i n s) = p (f j u) := by
  induction n generalizing i s with
  | zero => omega
  | succ n ih =>
    by_cases hij : i = j
    · subst hij
      exact ⟨s, rfl, foldFrom_keeps_within f p (i + 1) n (f i s) (fun k hk _ => h k (by omega))⟩
    · obtain ⟨u, hu, hf⟩ := ih (i + 1) (f i s) (by omega) (by omega)
      exact ⟨u, hu.trans (h i hij s), hf⟩

theorem foldFrom_invariant {P : State → Prop} (f : Nat → State → State) (h : ∀ i s, P s → P (f i s)) (i n : Nat) (s : State) (hs : P s) :
    P (foldFrom f i n s) := by
  induction n generalizing i s with
  | zero => exact hs
  | succ n ih => exact ih (i + 1) (f i s) (h i s hs)

/-- What settles the effect of an occurrence on source `n`: its record, the clocks, the banks' storm registers, and whether lines are observed. -/
def State.guardView (s : State) (n : Nat) : Source × Clocks × Tbl BankStorm × Bool := (s.srcAt n, s.clk, s.wired.bank, s.wired.live)

theorem State.touches.guardView {s t : State} {m n : Nat} (h : s.touches t m) (hn : n ≠ m) : t.guardView n = s.guardView n := by
  have hsrc := h.2 n hn
  have hrest := congrArg (fun u : State => (u.clk, u.wired.bank, u.wired.live)) h.1
  exact Prod.ext hsrc hrest

theorem State.srcAt_of_guardView {s u : State} {n : Nat} (h : u.guardView n = s.guardView n) : u.srcAt n = s.srcAt n := congrArg Prod.fst h

theorem State.stormOf_of_guardView {s u : State} {n : Nat} (h : u.guardView n = s.guardView n) : u.stormOf n = s.stormOf n := by
  have hb : u.wired.bank = s.wired.bank := congrArg (·.2.2.1) h
  simp only [State.stormOf, State.bankAt, State.srcAt_of_guardView h, hb]

theorem State.windowOver_of_guardView {s u : State} {n : Nat} (h : u.guardView n = s.guardView n) : u.windowOver n = s.windowOver n := by
  have hc : u.clk = s.clk := congrArg (·.2.1) h
  simp only [State.windowOver, State.srcAt_of_guardView h, State.stormOf_of_guardView h, hc]

/-- A fold over the sources of a word, each turn on its own source: source `base + i` is changed by turn `i` alone. -/
theorem wordFold_visit {f : Nat → State → State} {base i : Nat} (s : State)
    (hf : ∀ (j : Nat) (s : State), s.touches (f j s) (base + j)) (hi : i < 64) :
    ∃ u, u.guardView (base + i) = s.guardView (base + i) ∧ (foldBelow 64 f s).srcAt (base + i) = (f i u).srcAt (base + i) := by
  obtain ⟨u, hu, hx⟩ := foldFrom_visit f (·.guardView (base + i)) 0 64 i s (Nat.zero_le i) (by omega)
    (fun j hj s => (hf j s).guardView (by omega))
  exact ⟨u, hu, State.srcAt_of_guardView hx⟩

/-- Each turn of a fold over a word changes nothing but source records: so does the fold. -/
theorem wordFold_frame {f : Nat → State → State} {base : Nat} (s : State) (hf : ∀ (j : Nat) (s : State), onlySource s (f j s) (base + j)) :
    foldBelow 64 f s = { s with wired := { s.wired with src := (foldBelow 64 f s).wired.src } } := by
  refine foldFrom_invariant (P := fun t => t = { s with wired := { s.wired with src := t.wired.src } }) f (fun i t ht => ?_) 0 64 s rfl
  rw [(hf i t).1, ht]

/-! ### One bit of a word -/

/-- A turn of `eachBit`. -/
def State.bitTurn (base : Nat) (acc : Acc) (data : Word) (g : State → Nat → Bool → State) (i : Nat) (s : State) : State :=
  if reaches acc i && !isReserved (base + i) then g s (base + i) (wrote1 acc data i) else s

theorem State.eachBit_eq (s : State) (base : Nat) (acc : Acc) (data : Word) (g : State → Nat → Bool → State) :
    s.eachBit base acc data g = foldBelow 64 (State.bitTurn base acc data g) s := rfl

theorem State.bitTurn_reached {base i : Nat} {acc : Acc} (data : Word) (g : State → Nat → Bool → State) (s : State)
    (hr : reaches acc i = true) (hn : isReserved (base + i) = false) :
    State.bitTurn base acc data g i s = g s (base + i) (wrote1 acc data i) := by simp [State.bitTurn, hr, hn]

section
variable {g : State → Nat → Bool → State} (base : Nat) (acc : Acc) (data : Word) (s : State)

theorem State.bitTurn_touches (hg : ∀ (s : State) (n : Nat) (v : Bool), s.touches (g s n v) n) (i : Nat) :
    s.touches (State.bitTurn base acc data g i s) (base + i) := by
  unfold State.bitTurn
  split
  · exact hg s _ _
  · exact s.touches_refl _

theorem State.bitTurn_onlySource (hg : ∀ (s : State) (n : Nat) (v : Bool), onlySource s (g s n v) n) (i : Nat) :
    onlySource s (State.bitTurn base acc data g i s) (base + i) := by
  unfold State.bitTurn
  split
  · exact hg s _ _
  · exact onlySource_refl s _

/-- A source reached by a word write is changed as its bit says. -/
theorem State.eachBit_reached (hg : ∀ (s : State) (n : Nat) (v : Bool), s.touches (g s n v) n) {i : Nat} (hi : i < 64) (hr : reaches acc i = true)
    (hn : isReserved (base + i) = false) : ∃ u, u.guardView (base + i) = s.guardView (base + i) ∧
      (s.eachBit base acc data g).srcAt (base + i) = (g u (base + i) (wrote1 acc data i)).srcAt (base + i) := by
  rw [State.eachBit_eq]
  obtain ⟨u, hu, hx⟩ := wordFold_visit s (fun j s => State.bitTurn_touches base acc data s hg j) hi
  rw [State.bitTurn_reached data g u hr hn] at hx
  exact ⟨u, hu, hx⟩

/-- A source that a word write does not reach is as it was. -/
theorem State.eachBit_unreached (hg : ∀ (s : State) (n : Nat) (v : Bool), s.touches (g s n v) n) {k : Nat}
    (hk : ∀ i, i < 64 → reaches acc i = true → isReserved (base + i) = false → k ≠ base + i) :
    (s.eachBit base acc data g).srcAt k = s.srcAt k := by
  rw [State.eachBit_eq]
  refine foldBelow_keeps_within _ (·.srcAt k) 64 s (fun i hi u => ?_)
  unfold State.bitTurn
  split
  next h =>
    simp only [Bool.and_eq_true, Bool.not_eq_true'] at h
    exact (hg u _ _).2 k (hk i hi h.1 h.2)
  next => rfl

end

theorem State.setPend_touches (s : State) (n : Nat) (v : Bool) : s.touches (s.setPend n v) n := by
  by_cases h : (s.srcAt n).isEdge n = true
  · cases v with
    | true => rw [State.setPend_occur h]; exact s.occur_touches n 0
    | false => rw [State.setPend_clear h]; exact s.updSrc_touches n _
  · rw [State.setPend_level (by simpa using h)]; exact s.touches_refl n

/-- PEND written: an edge source takes the bit, a level source ignores it. -/
theorem State.setPend_pend (s : State) (n : Nat) (v : Bool) :
    ((s.setPend n v).srcAt n).pend = if (s.srcAt n).isEdge n then v else (s.srcAt n).pend := by
  by_cases h : (s.srcAt n).isEdge n = true
  · cases v with
    | true => rw [State.setPend_occur h, State.occur_pend, if_pos h]
    | false => rw [State.setPend_clear h, State.updSrc_srcAt_same, Source.clearPend_eq, if_pos h]
  · rw [State.setPend_level (by simpa using h), if_neg h]

/-! ### The STORM bit -/

theorem State.clearStorm_srcAt (s : State) (n : Nat) : (s.clearStorm n).srcAt n =
    if (s.srcAt n).storm then { s.srcAt n with storm := false, winOpen := false, winCount := 0 } else s.srcAt n :=
  State.updSrc_srcAt_same s n _

theorem State.clearStorm_onlySource (s : State) (n : Nat) : onlySource s (s.clearStorm n) n := onlySource_updSrc s n _

/-- With no line change in the cycle, a written 1 clears STORM and a written 0 does nothing. -/
theorem State.stormBit_still (s : State) (n : Nat) (one : Bool) : s.stormBit n one false = if one then s.clearStorm n else s := by
  simp [State.stormBit]

theorem State.stormBit_touches (s : State) (n : Nat) (one racing : Bool) : s.touches (s.stormBit n one racing) n := by
  have hseen : s.touches (if racing && !isSgi n then s.lineSeen n (!(s.srcAt n).line) else s) n := by
    split
    · exact s.lineSeen_touches n _
    · exact s.touches_refl n
  unfold State.stormBit
  generalize (if racing && !isSgi n then s.lineSeen n (!(s.srcAt n).line) else s) = t at hseen ⊢
  dsimp only
  split
  · exact hseen.trans (t.clearStorm_onlySource n).touches
  · exact hseen

/-- What the collector makes of the source at occurrence STORM_LIMIT + 1 of its window. -/
theorem State.occur_trips_srcAt {s : State} {n : Nat} (hg : (s.stormOf n).2 ≠ 0) (ho : (s.srcAt n).winOpen = true) (hw : s.windowOver n = false)
    (hc : (s.srcAt n).winCount = (s.stormOf n).2) (payload : BitVec 16) :
    ((s.occur n payload).srcAt n).storm = true ∧ ((s.occur n payload).srcAt n).en = false ∧ (s.occur n payload).tripped n = true ∧
      ((s.occur n payload).srcAt n).winCount = (s.srcAt n).winCount + 1 := by
  have hs : (s.updSrc n fun x => { x with winCount := x.winCount + 1 }).stormOf n = s.stormOf n :=
    (s.updSrc_touches n _).stormOf (by simp) (by simp)
  rw [State.occur_trips hg ho hw hc]
  simp [State.tripped, State.trip_stormOf, State.trip_srcAt, State.pended_stormOf, State.pended_winOpen, State.pended_winCount, hs, hg, ho, hc]

/-- A line change that counts an occurrence and trips keeps a written 1 from clearing. -/
theorem State.stormBit_setWins {s : State} {n : Nat} (one : Bool) (hs : isSgi n = false)
    (hc : ((s.lineSeen n (!(s.srcAt n).line)).srcAt n).winCount ≠ (s.srcAt n).winCount) (ht : (s.lineSeen n (!(s.srcAt n).line)).tripped n = true) :
    s.stormBit n one true = s.lineSeen n (!(s.srcAt n).line) := by simp [State.stormBit, hs, hc, ht]

/-- A line change whose occurrence trips the guard leaves STORM set, whatever is written in its cycle (spec/02 R49: the set wins). -/
theorem State.stormBit_trips {s : State} {n : Nat} (one : Bool) (hs : isSgi n = false) (ht : (s.srcAt n).trigger = 2)
    (hr : (s.srcAt n).ref = (s.srcAt n).line) (hg : (s.stormOf n).2 ≠ 0) (ho : (s.srcAt n).winOpen = true) (hw : s.windowOver n = false)
    (hc : (s.srcAt n).winCount = (s.stormOf n).2) :
    ((s.stormBit n one true).srcAt n).storm = true ∧ ((s.stormBit n one true).srcAt n).en = false := by
  have he : (s.srcAt n).isEdge n = true := Source.isEdge_of_trigger n (by rw [ht]; decide)
  have hx : (s.srcAt n).edgeTo (!(s.srcAt n).line) := ⟨by simp [hr], .inl ht⟩
  have hk := s.lineKept_stormOf n (!(s.srcAt n).line)
  have hkw : (s.lineKept n (!(s.srcAt n).line)).windowOver n = false := by
    rw [← hw]; simp only [State.windowOver, hk, State.lineKept_srcAt]; rfl
  obtain ⟨hstorm, hen, htrip, hcount⟩ := State.occur_trips_srcAt (s := s.lineKept n (!(s.srcAt n).line)) (by rw [hk]; exact hg)
    (by rw [State.lineKept_srcAt]; exact ho) hkw (by rw [hk, State.lineKept_srcAt]; exact hc) 0
  have hseen := State.lineSeen_edge he hx
  rw [← hseen] at hstorm hen htrip hcount
  have hmoved : ((s.lineSeen n (!(s.srcAt n).line)).srcAt n).winCount ≠ (s.srcAt n).winCount := by
    rw [hcount, State.lineKept_srcAt]; exact Nat.succ_ne_self _
  rw [State.stormBit_setWins one hs hmoved htrip]
  exact ⟨hstorm, hen⟩

/-! ### The word writes -/

section
variable (w : SrcWord) (acc : Acc) (data : Word) {s : State} (hr : s.running = true)
include hr

theorem exec_enWordWrite : exec (.enWordWrite w acc data) s = .next (s.eachBit (srcBase w) acc data State.setEn) := by
  change execEnWordWrite w acc data s = _
  simp [execEnWordWrite, hr]

theorem exec_pendWordWrite : exec (.pendWordWrite w acc data) s = .next (s.eachBit (srcBase w) acc data State.setPend) := by
  change execPendWordWrite w acc data s = _
  simp [execPendWordWrite, hr]

end

/-- A turn of a write to a STORM word. -/
def State.stormTurn (base : Nat) (acc : Acc) (x : StormWrite) (i : Nat) (s : State) : State :=
  if isReserved (base + i) then s else s.stormBit (base + i) (reaches acc i && wrote1 acc x.data i) (s.wired.live && bitAt x.racing i)

theorem exec_stormClear (w : SrcWord) (acc : Acc) (x : StormWrite) {s : State} (hr : s.running = true) :
    exec (.stormClear w acc x) s = .next (foldBelow 64 (State.stormTurn (srcBase w) acc x) s) := by
  change execStormClear w acc x s = _
  simp only [execStormClear, hr]
  rfl

theorem State.stormTurn_named {base i : Nat} (acc : Acc) (x : StormWrite) (s : State) (hn : isReserved (base + i) = false) :
    State.stormTurn base acc x i s = s.stormBit (base + i) (reaches acc i && wrote1 acc x.data i) (s.wired.live && bitAt x.racing i) := by
  simp [State.stormTurn, hn]

theorem State.stormTurn_touches (base : Nat) (acc : Acc) (x : StormWrite) (i : Nat) (s : State) :
    s.touches (State.stormTurn base acc x i s) (base + i) := by
  unfold State.stormTurn
  split
  · exact s.touches_refl _
  · exact s.stormBit_touches _ _ _

/-- With no line change a turn clears the bit where a 1 is written to a source that is not reserved. -/
theorem State.stormTurn_still (base : Nat) (acc : Acc) (data : Word) (i : Nat) (s : State) :
    State.stormTurn base acc { data := data, racing := 0 } i s =
      if !isReserved (base + i) && (reaches acc i && wrote1 acc data i) then s.clearStorm (base + i) else s := by
  have hb : (s.wired.live && bitAt (0 : Word) i) = false := by simp
  unfold State.stormTurn
  rw [hb, State.stormBit_still]
  cases isReserved (base + i) <;> rfl

theorem State.stormTurn_still_onlySource (base : Nat) (acc : Acc) (data : Word) (i : Nat) (s : State) :
    onlySource s (State.stormTurn base acc { data := data, racing := 0 } i s) (base + i) := by
  rw [State.stormTurn_still]
  split
  · exact s.clearStorm_onlySource _
  · exact onlySource_refl s _

/-- A write of ENs: each bit reached is taken, PEND stays, and nothing but source records changes. -/
theorem enWordWrite_applies (w : SrcWord) (acc : Acc) (data : Word) {s : State} (hrun : s.running = true) :
    ∃ t, exec (.enWordWrite w acc data) s = .next t ∧ t = { s with wired := { s.wired with src := t.wired.src } } ∧
      (∀ i, i < 64 → reaches acc i = true → isReserved (srcBase w + i) = false →
        (t.srcAt (srcBase w + i)).en = wrote1 acc data i ∧ (t.srcAt (srcBase w + i)).pend = (s.srcAt (srcBase w + i)).pend) ∧
      ∀ k, (∀ i, i < 64 → reaches acc i = true → isReserved (srcBase w + i) = false → k ≠ srcBase w + i) → t.srcAt k = s.srcAt k := by
  have hg (s : State) (n : Nat) (v : Bool) : s.touches (s.setEn n v) n := (s.setEn_onlySource n v).touches
  refine ⟨_, exec_enWordWrite w acc data hrun, ?_, fun i hi hr hn => ?_, fun k hk => State.eachBit_unreached _ acc data s hg hk⟩
  · rw [State.eachBit_eq]
    exact wordFold_frame s (fun j s => State.bitTurn_onlySource _ acc data s State.setEn_onlySource j)
  · obtain ⟨u, hu, hx⟩ := State.eachBit_reached (srcBase w) acc data s hg hi hr hn
    rw [hx, State.setEn_srcAt, Source.drop_en, Source.drop_pend, State.srcAt_of_guardView hu]
    exact ⟨rfl, rfl⟩

/-- A write of PENDs: each bit reached is taken by an edge source. -/
theorem pendWordWrite_applies (w : SrcWord) (acc : Acc) (data : Word) {s : State} (hrun : s.running = true) :
    ∃ t, exec (.pendWordWrite w acc data) s = .next t ∧
      (∀ i, i < 64 → reaches acc i = true → isReserved (srcBase w + i) = false →
        (t.srcAt (srcBase w + i)).pend =
          (if (s.srcAt (srcBase w + i)).isEdge (srcBase w + i) then wrote1 acc data i else (s.srcAt (srcBase w + i)).pend)) ∧
      ∀ k, (∀ i, i < 64 → reaches acc i = true → isReserved (srcBase w + i) = false → k ≠ srcBase w + i) → t.srcAt k = s.srcAt k := by
  refine ⟨_, exec_pendWordWrite w acc data hrun, fun i hi hr hn => ?_, fun k hk => State.eachBit_unreached _ acc data s State.setPend_touches hk⟩
  obtain ⟨u, hu, hx⟩ := State.eachBit_reached (srcBase w) acc data s State.setPend_touches hi hr hn
  rw [hx, State.setPend_pend, State.srcAt_of_guardView hu]

/-- A write to STORM with no line change in its cycle: each written 1 clears. -/
theorem stormClear_clears (w : SrcWord) (acc : Acc) (data : Word) {s : State} (hrun : s.running = true) :
    ∃ t, exec (.stormClear w acc { data := data, racing := 0 }) s = .next t ∧ t = { s with wired := { s.wired with src := t.wired.src } } ∧
      (∀ i, i < 64 → reaches acc i = true → isReserved (srcBase w + i) = false → wrote1 acc data i = true →
        (t.srcAt (srcBase w + i)).storm = false ∧ ((s.srcAt (srcBase w + i)).storm = true → (t.srcAt (srcBase w + i)).winCount = 0) ∧
        (t.srcAt (srcBase w + i)).en = (s.srcAt (srcBase w + i)).en) ∧
      ∀ k, (∀ i, i < 64 → reaches acc i = true → isReserved (srcBase w + i) = false → wrote1 acc data i = true → k ≠ srcBase w + i) →
        t.srcAt k = s.srcAt k := by
  refine ⟨_, exec_stormClear w acc _ hrun, ?_, fun i hi hr hn hone => ?_, fun k hk => ?_⟩
  · exact wordFold_frame s (fun i s => State.stormTurn_still_onlySource (srcBase w) acc data i s)
  · obtain ⟨u, hu, hx⟩ := wordFold_visit s (fun i s => State.stormTurn_touches (srcBase w) acc { data := data, racing := 0 } i s) hi
    rw [State.stormTurn_still, if_pos (by simp [hr, hn, hone]), State.clearStorm_srcAt, State.srcAt_of_guardView hu] at hx
    rw [hx]
    split <;> simp_all
  · refine foldBelow_keeps_within (State.stormTurn (srcBase w) acc _) (·.srcAt k) 64 s (fun i hi u => ?_)
    rw [State.stormTurn_still]
    split
    next h =>
      simp only [Bool.and_eq_true, Bool.not_eq_true'] at h
      obtain ⟨hn, hr, hone⟩ := h
      exact (u.clearStorm_onlySource _).2 k (hk i hi hr hn hone)
    next => rfl

/-- A source whose guard trips in the cycle of a write to its STORM bit keeps STORM = 1 and loses EN. -/
theorem stormClear_setWins (w : SrcWord) (acc : Acc) (x : StormWrite) {s : State} (hlive : s.wired.live = true) {i : Nat} (hi : i < 64)
    (hrace : bitAt x.racing i = true) (hn : isReserved (srcBase w + i) = false) (hs : isSgi (srcBase w + i) = false)
    (ht : (s.srcAt (srcBase w + i)).trigger = 2) (hg : (s.stormOf (srcBase w + i)).2 ≠ 0) (ho : (s.srcAt (srcBase w + i)).winOpen = true)
    (hw : s.windowOver (srcBase w + i) = false) (hr : (s.srcAt (srcBase w + i)).ref = (s.srcAt (srcBase w + i)).line)
    (hc : (s.srcAt (srcBase w + i)).winCount = (s.stormOf (srcBase w + i)).2) :
    ((foldBelow 64 (State.stormTurn (srcBase w) acc x) s).srcAt (srcBase w + i)).storm = true ∧
      ((foldBelow 64 (State.stormTurn (srcBase w) acc x) s).srcAt (srcBase w + i)).en = false := by
  obtain ⟨u, hu, hx⟩ := wordFold_visit s (State.stormTurn_touches (srcBase w) acc x) hi
  have hul : u.wired.live = true := (congrArg (·.2.2.2) hu).trans hlive
  rw [hx, State.stormTurn_named acc x u hn, hul, hrace]
  rw [← State.srcAt_of_guardView hu] at ht ho hr hc
  rw [← State.stormOf_of_guardView hu] at hg hc
  rw [← State.windowOver_of_guardView hu] at hw
  exact State.stormBit_trips _ hs ht hr hg ho hw hc

/-- Settles O6: each word write is a fold of one rule over the bits. -/
theorem wordWritesApplyEveryBit : Obligations.WordWritesApplyEveryBit := by
  intro w acc data s hrun
  refine ⟨enWordWrite_applies w acc data hrun, pendWordWrite_applies w acc data hrun, stormClear_clears w acc data hrun, fun racing => ?_⟩
  exact ⟨_, exec_stormClear w acc _ hrun, fun i hi hrace hn hs hlive ht hg ho hw hr hc =>
    stormClear_setWins w acc { data := data, racing := racing } hlive hi hrace hn hs ht hg ho hw hr hc⟩

/-! ### The trip of the guard -/

/-- A minor report of a unit without a FAULT ration, of a key that does not wait, in a queue with room: it is the queue's last. -/
theorem State.report_room {s : State} {m : Nat} {c k : BitVec 8} {u : BitVec 16} {v : BitVec 2} (d : BitVec 32) (hv : v ≠ 2)
    (hc : canReport s (.other m) c k u) :
    s.report (.other m) c k u v d = { s with cairn := { s.cairn with queue := s.cairn.queue ++ [reportOf s c k u v d] } } := by
  obtain ⟨hroom, -, hkey⟩ := hc
  have hany : (s.cairn.queue.any fun q => q.sameKey (reportOf s c k u v d)) = false := by
    rw [List.any_eq_false]
    intro q hq
    simpa [Report.sameKey, reportOf, and_assoc] using hkey q hq
  have hqueue := State.queueReport_room s m (reportOf s c k u v d) hany hroom
  simp only [State.report, State.countFault_minor s c k u v hv]
  exact hqueue

theorem canReport_of_cairn {s v : State} (hv : v.cairn = s.cairn) {m : Nat} {c k : BitVec 8} {u : BitVec 16} (h : canReport s (.other m) c k u) :
    canReport v (.other m) c k u := by
  unfold canReport at h ⊢
  rw [hv]
  exact h

/-- The STORM_MASK report of a shared source's trip finds room. -/
theorem State.trip_cairn {s : State} {n : Nat} (hn : n < 8192) (hc : canReport s (.other 0) 0x13 8 (BitVec.ofNat 16 n)) :
    ∃ d, (s.trip n).cairn = { s.cairn with queue := s.cairn.queue ++ [reportOf s 0x13 8 (BitVec.ofNat 16 n) 1 d] } := by
  have hmasked (f : Source → Source) := canReport_of_cairn (s := s) (v := s.updSrc n f) rfl hc
  simp only [State.trip, hn, if_true]
  exact ⟨_, congrArg (·.cairn) (State.report_room _ (by decide) (hmasked _))⟩

/-- The tripping occurrence of a source that is not pending: what becomes of it. -/
theorem State.occur_trips_first {s : State} {n : Nat} (hp : (s.srcAt n).pend = false) (hg : (s.stormOf n).2 ≠ 0) (ho : (s.srcAt n).winOpen = true)
    (hw : s.windowOver n = false) (hc : (s.srcAt n).winCount = (s.stormOf n).2) (payload : BitVec 16) :
    ∃ v, onlySource s v n ∧ s.occur n payload = v.trip n ∧ v.srcAt n =
      { s.srcAt n with winCount := (s.srcAt n).winCount + 1, pend := true, weight := 1, sender := payload } := by
  refine ⟨_, (onlySource_updSrc s n _).trans (State.pended_onlySource _ n payload), State.occur_trips hg ho hw hc payload, ?_⟩
  rw [State.pended_first (by simpa using hp)]
  simp

/-- What reaches the block at occurrence STORM_LIMIT + 1 of a shared source that is not pending. -/
theorem State.occur_trips_reports {s : State} {n : Nat} (hn : n < 8192) (hp : (s.srcAt n).pend = false) (hg : (s.stormOf n).2 ≠ 0)
    (ho : (s.srcAt n).winOpen = true) (hw : s.windowOver n = false) (hc : (s.srcAt n).winCount = (s.stormOf n).2)
    (hq : canReport s (.other 0) 0x13 8 (BitVec.ofNat 16 n)) (payload : BitVec 16) :
    ((s.occur n payload).srcAt n = Source.withdraw { s.srcAt n with
        winCount := (s.srcAt n).winCount + 1, pend := true, weight := 1, sender := payload, storm := true, en := false } false) ∧
      ∃ d, (s.occur n payload).cairn = { s.cairn with queue := s.cairn.queue ++ [reportOf s 0x13 8 (BitVec.ofNat 16 n) 1 d] } := by
  obtain ⟨v, hv, ht, hx⟩ := State.occur_trips_first hp hg ho hw hc payload
  have hcairn : v.cairn = s.cairn := congrArg (·.cairn) hv.1
  have hclk : v.clk = s.clk := congrArg (·.clk) hv.1
  obtain ⟨d, hd⟩ := State.trip_cairn hn (canReport_of_cairn hcairn hq)
  rw [ht]
  refine ⟨?_, d, ?_⟩
  · rw [State.trip_srcAt, hx]
  · rw [hd, hcairn]
    simp only [reportOf, hclk]

theorem exec_stormWindowExpiry {src : Src} {s : State} (hr : s.running = true) (ho : (s.srcAt (srcNum src)).winOpen = true)
    (hw : s.windowOver (srcNum src) = true) :
    exec (.stormWindowExpiry src) s = .next (s.updSrc (srcNum src) (fun x => { x with winOpen := false, winCount := 0 })) := by
  change execStormWindowExpiry src s = _
  simp [execStormWindowExpiry, hr, ho, hw]

/-- Settles O7: the trip is the count's passing of its limit, and the expiry closes the window. -/
theorem stormGuardTripsPastItsLimit : Obligations.StormGuardTripsPastItsLimit := by
  constructor
  · intro n s hrun x ht hp hl ho hw hc hroom hkey
    have hguard : (s.stormOf n.val).2 = x.stormLimit.toNat := by simp [State.stormOf, x]
    have hg : (s.stormOf n.val).2 ≠ 0 := by
      rw [hguard]; exact fun h => hl (BitVec.eq_of_toNat_eq h)
    obtain ⟨hsrc, d, hcairn⟩ := State.occur_trips_reports n.isLt hp hg ho hw (hc.trans hguard.symm) ⟨hroom, rfl, hkey⟩ 0
    obtain ⟨hframe, hother⟩ := s.occur_touches n.val 0
    have hexec : exec (.setpend (.shared n)) s = .next (s.occur n.val 0) :=
      exec_setpend_edge (src := .shared n) hrun (isReserved_shared n.isLt) (Source.isEdge_of_trigger _ ht)
    rw [Source.withdraw_eq] at hsrc
    refine ⟨_, hexec, ?_, hother, ?_, ?_, ?_, ?_, ?_, reportOf s 0x13 8 (BitVec.ofNat 16 n.val) 1 d, ?_, rfl, rfl, rfl, rfl, rfl, rfl⟩
    · rw [hcairn] at hframe ⊢
      exact hframe
    · rw [hsrc]
    · rw [hsrc]
    · rw [hsrc]
    · rw [hsrc]
    · rw [hsrc]
    · rw [hcairn]
  · intro src s hrun ho hover
    exact ⟨_, exec_stormWindowExpiry hrun ho (decide_eq_true hover), onlySource_updSrc s _ _, State.updSrc_srcAt_same s _ _⟩

end Sys2Proof.Machine
end

section
/-! SUPPORT. The collector's choice (spec/02 R34): its list stands in the order of R34, so the first ready source is the one that all
others follow. -/

namespace Sys2Proof.Machine

/-! ### Canonical tables as lists -/

theorem Tbl.lt_of_wfFrom {α : Type} [DecidableEq α] {d : α} {t : Tbl α} {k : Nat} (h : Tbl.wfFrom d (some k) t = true) :
    ∀ p ∈ t, k < p.1 := by
  induction t generalizing k with
  | nil => simp
  | cons q rest ih =>
    obtain ⟨j, v⟩ := q
    simp only [Tbl.wfFrom, Bool.and_eq_true, decide_eq_true_eq] at h
    obtain ⟨⟨hkj, -⟩, hrest⟩ := h
    rintro p (_ | ⟨_, hp⟩)
    · exact hkj
    · exact Nat.lt_trans hkj (ih hrest p hp)

/-- The keys of a canonical table rise. -/
theorem Tbl.pairwise_of_wf {α : Type} [DecidableEq α] {d : α} {t : Tbl α} {lo : Option Nat} (h : Tbl.wfFrom d lo t = true) :
    t.Pairwise (fun p q => p.1 < q.1) := by
  induction t generalizing lo with
  | nil => exact .nil
  | cons q rest ih =>
    obtain ⟨j, v⟩ := q
    simp only [Tbl.wfFrom, Bool.and_eq_true] at h
    exact .cons (Tbl.lt_of_wfFrom h.2) (ih h.2)

/-- A row of a canonical table is what its key reads as. -/
theorem Tbl.get_of_mem {α : Type} [DecidableEq α] {d : α} {t : Tbl α} (h : t.Pairwise (fun p q => p.1 < q.1)) {p : Nat × α} (hp : p ∈ t) :
    Tbl.get d t p.1 = p.2 := by
  induction t with
  | nil => simp at hp
  | cons q rest ih =>
    obtain ⟨j, v⟩ := q
    rw [List.pairwise_cons] at h
    obtain _ | ⟨_, hp⟩ := hp
    · simp [Tbl.get]
    · have hne : j ≠ p.1 := Nat.ne_of_lt (h.1 p hp)
      rw [Tbl.get, if_neg hne, ih h.2 hp]

/-- A key that reads as something else than the unlisted value has its row. -/
theorem Tbl.mem_of_get_ne {α : Type} {d : α} {t : Tbl α} {k : Nat} (h : Tbl.get d t k ≠ d) : (k, Tbl.get d t k) ∈ t := by
  induction t with
  | nil => exact absurd rfl h
  | cons q rest ih =>
    obtain ⟨j, v⟩ := q
    by_cases hj : j = k
    · subst hj; simp [Tbl.get]
    · simp only [Tbl.get, hj, if_false] at h ⊢
      exact .tail _ (ih h)

/-- In an ordered list the element that precedes every other match is the first match. -/
theorem find?_eq_some_of_first {α : Type} {R : α → α → Prop} (hR : ∀ a b, R a b → ¬R b a) {l : List α} (hl : l.Pairwise R) {p : α → Bool}
    {a : α} (ha : a ∈ l) (hp : p a = true) (hfirst : ∀ b ∈ l, b ≠ a → p b = true → R a b) : l.find? p = some a := by
  induction l with
  | nil => simp at ha
  | cons b bs ih =>
    rw [List.pairwise_cons] at hl
    by_cases hba : b = a
    · subst hba; simp [hp]
    · have hmem : a ∈ bs := (List.mem_cons.mp ha).resolve_left (Ne.symm hba)
      have hpb : ¬p b = true := fun hb => hR b a (hl.1 a hmem) (hfirst b (.head _) hba hb)
      rw [List.find?_cons_of_neg hpb]
      exact ih hl.2 hmem (fun c hc => hfirst c (.tail _ hc))

/-! ### The order of emission -/

theorem emitsBefore_asymm {m n : Nat} (h : emitsBefore m n) : ¬emitsBefore n m := by
  unfold emitsBefore at *
  omega

theorem State.mem_emitOrder {s : State} {pos : Nat} {p : Nat × Source} :
    p ∈ s.emitOrder pos ↔ p ∈ s.wired.src ∧ s.posOf (srcHandle p.1) = pos := by
  simp only [State.emitOrder, List.mem_append, List.mem_filter, List.mem_reverse, beq_iff_eq, decide_eq_true_eq]
  constructor
  · rintro (⟨h, -⟩ | ⟨h, -⟩)
    · exact h
    · exact h
  · intro h
    exact (Nat.lt_or_ge p.1 8192).imp (fun hlt => ⟨h, hlt⟩) (fun hge => ⟨h, hge⟩)

section
variable {s : State} (hwf : Tbl.wf Source.reset s.wired.src = true)
include hwf

theorem State.emitOrder_pairwise (pos : Nat) : (s.emitOrder pos).Pairwise (fun p q => emitsBefore p.1 q.1) := by
  have hmine : (s.wired.src.reverse.filter (fun p => s.posOf (srcHandle p.1) == pos)).Pairwise (fun p q => q.1 < p.1) :=
    (List.pairwise_reverse.mpr (Tbl.pairwise_of_wf hwf)).filter _
  simp only [State.emitOrder]
  refine List.pairwise_append.mpr ⟨?_, ?_, fun p hp q hq => ?_⟩
  · refine (hmine.filter _).imp_of_mem (fun hp hq h => .inr ⟨?_, h⟩)
    simp only [List.mem_filter, decide_eq_true_eq] at hp hq
    exact iff_of_true hp.2 hq.2
  · refine (hmine.filter _).imp_of_mem (fun hp hq h => .inr ⟨?_, h⟩)
    simp only [List.mem_filter, decide_eq_true_eq] at hp hq
    exact iff_of_false (Nat.not_lt.mpr hp.2) (Nat.not_lt.mpr hq.2)
  · simp only [List.mem_filter, decide_eq_true_eq] at hp hq
    exact .inl ⟨hp.2, hq.2⟩

theorem State.srcAt_of_mem {p : Nat × Source} (hp : p ∈ s.wired.src) : s.srcAt p.1 = p.2 := Tbl.get_of_mem (Tbl.pairwise_of_wf hwf) hp

/-- The collector finds the source that precedes all others of the position that satisfy a test no reset source passes. -/
theorem State.emitOrder_find {pos n : Nat} {test : Nat × Source → Bool} (hreset : ∀ m, test (m, Source.reset) = false)
    (hb : s.posOf (srcHandle n) = pos) (hn : test (n, s.srcAt n) = true)
    (hfirst : ∀ m, m ≠ n → s.posOf (srcHandle m) = pos → test (m, s.srcAt m) = true → emitsBefore n m) :
    (s.emitOrder pos).find? test = some (n, s.srcAt n) := by
  have hlisted : s.srcAt n ≠ Source.reset := fun h => by rw [h, hreset] at hn; exact Bool.false_ne_true hn
  refine find?_eq_some_of_first (fun _ _ => emitsBefore_asymm) (State.emitOrder_pairwise hwf pos)
    (State.mem_emitOrder.mpr ⟨Tbl.mem_of_get_ne hlisted, hb⟩) hn (fun q hq hne ht => ?_)
  obtain ⟨hmem, hpos⟩ := State.mem_emitOrder.mp hq
  have hx := State.srcAt_of_mem hwf hmem
  refine hfirst q.1 (fun hqn => hne (Prod.ext hqn ?_)) hpos (by rw [hx]; exact ht)
  rw [← hx, hqn]

theorem State.emitOrder_find_none {pos : Nat} {test : Nat × Source → Bool}
    (h : ∀ m, s.posOf (srcHandle m) = pos → test (m, s.srcAt m) = false) : (s.emitOrder pos).find? test = none := by
  refine List.find?_eq_none.mpr (fun p hp => ?_)
  obtain ⟨hmem, hpos⟩ := State.mem_emitOrder.mp hp
  have htest := h p.1 hpos
  rw [State.srcAt_of_mem hwf hmem] at htest
  exact fun h => Bool.false_ne_true (htest.symm.trans h)

end

/-! ### One emission -/

/-- The collector's test for a withdraw that may leave. -/
def State.mayWithdraw (s : State) (p : Nat × Source) : Bool := p.2.wdraw && !s.onInput8 p.1

/-- The collector's test for a merge or a new record that may leave. -/
def mayEmit (p : Nat × Source) : Bool := p.2.mergeOwed != 0 || p.2.ready

theorem State.mayWithdraw_iff (s : State) (m : Nat) (x : Source) : s.mayWithdraw (m, x) = true ↔ x.wdraw = true ∧ s.onInput8 m = false := by
  simp [State.mayWithdraw]

theorem mayEmit_iff (m : Nat) (x : Source) : mayEmit (m, x) = true ↔ x.mergeOwed ≠ 0 ∨ x.ready = true := by simp [mayEmit]

theorem State.emitOne_withdraw {s : State} {pos n : Nat} {x : Source} (h : (s.emitOrder pos).find? s.mayWithdraw = some (n, x)) :
    s.emitOne pos = s.emitWithdraw n := by
  unfold State.mayWithdraw at h
  simp only [State.emitOne, h]

theorem State.emitOne_next {s : State} {pos n : Nat} {x : Source} (hw : (s.emitOrder pos).find? s.mayWithdraw = none)
    (h : (s.emitOrder pos).find? mayEmit = some (n, x)) :
    s.emitOne pos = if x.mergeOwed ≠ 0 then s.emitMerge n else s.emitNew n 11 := by
  unfold State.mayWithdraw at hw
  unfold mayEmit at h
  simp only [State.emitOne, hw, h, bne_iff_ne]

theorem State.emitOne_none {s : State} {pos : Nat} (hw : (s.emitOrder pos).find? s.mayWithdraw = none)
    (h : (s.emitOrder pos).find? mayEmit = none) : s.emitOne pos = s := by
  unfold State.mayWithdraw at hw
  unfold mayEmit at h
  simp only [State.emitOne, hw, h]

/-- A record of an input other than 10 waits in that input's queue. -/
theorem queueOf_input {r : Rec} (h : r.input ≠ 10) : queueOf r = r.input := by
  unfold queueOf
  split
  · exact if_neg h
  · rfl

theorem State.enqueue_input (s : State) {r : Rec} {i : Nat} (hr : r.input = i) (hi : i ≠ 10) : s.enqueue r = s.updInq i (fun q => q ++ [r]) := by
  rw [State.enqueue, queueOf_input (hr ▸ hi), hr]

/-- A source changed and its record put at input 11: nothing else moves, and the record is the last that waits there. -/
theorem State.emitted (s : State) (n : Nat) (f : Source → Source) {r : Rec} (hr : r.input = 11) :
    onlySourceAndInput s ((s.updSrc n f).enqueue r) n 11 ∧ ((s.updSrc n f).enqueue r).srcAt n = f (s.srcAt n) ∧
      ((s.updSrc n f).enqueue r).inqAt 11 = s.inqAt 11 ++ [r] := by
  rw [State.enqueue_input _ hr (by decide)]
  refine ⟨⟨rfl, fun k hk => ?_, fun k hk => ?_⟩, ?_, ?_⟩
  · rw [State.updInq_srcAt, State.updSrc_srcAt_other s n f hk]
  · rw [State.updInq_inqAt_other _ _ _ hk, State.updSrc_inqAt]
  · rw [State.updInq_srcAt, State.updSrc_srcAt_same]
  · rw [State.updInq_inqAt_same, State.updSrc_inqAt]

theorem exec_collectorEmit (pos : Fin 4) {s : State} (hr : s.running = true) (hl : s.wired.live = true) :
    exec (.collectorEmit pos) s = .next (s.emitOne pos.val) := by
  change execCollectorEmit pos s = _
  simp [execCollectorEmit, hr, hl]

/-- Settles O8: the two searches find the source that R34's order puts first. -/
theorem collectorEmitsInOrder : Obligations.CollectorEmitsInOrder := by
  intro pos s hrun hlive hwf bound out next
  have hexec := exec_collectorEmit pos hrun hlive
  have hout (m : Nat) : s.mayWithdraw (m, s.srcAt m) = true ↔ out m := s.mayWithdraw_iff m _
  have hnext (m : Nat) : mayEmit (m, s.srcAt m) = true ↔ next m := mayEmit_iff m _
  have hstill (h : ∀ m, bound m → ¬out m) : (s.emitOrder pos.val).find? s.mayWithdraw = none :=
    State.emitOrder_find_none hwf (fun m hb => Bool.eq_false_iff.mpr (fun hm => h m hb ((hout m).mp hm)))
  refine ⟨fun n hb hn hfirst => ?_, fun n hb hn hnone hfirst => ?_, fun h => ?_⟩
  · have hfind := State.emitOrder_find (test := s.mayWithdraw) hwf (fun _ => rfl) hb ((hout n).mpr hn)
      (fun m hm hbm ht => hfirst m hm hbm ((hout m).mp ht))
    rw [State.emitOne_withdraw hfind] at hexec
    obtain ⟨honly, hsrc, hinq⟩ := s.emitted n (fun x => { x with wdraw := false, byWrite := false })
      (r := { s.wiredRec n .withdraw 0 11 with written := (s.srcAt n).byWrite }) rfl
    exact ⟨_, _, hexec, honly, hsrc, hinq, rfl, rfl, rfl, rfl⟩
  · have hfind := State.emitOrder_find (test := mayEmit) hwf (fun _ => rfl) hb ((hnext n).mpr hn)
      (fun m hm hbm ht => hfirst m hm hbm ((hnext m).mp ht))
    rw [State.emitOne_next (hstill hnone) hfind] at hexec
    refine ⟨fun hm => ?_, fun hm => ?_⟩
    · rw [if_pos hm] at hexec
      obtain ⟨honly, hsrc, hinq⟩ := s.emitted n (fun x => { x with mergeOwed := x.mergeOwed - 1 }) (r := s.wiredRec n .merge 1 11) rfl
      exact ⟨_, _, hexec, honly, hsrc, hinq, rfl, rfl, rfl⟩
    · rw [if_neg (fun h => h hm)] at hexec
      obtain ⟨honly, hsrc, hinq⟩ := s.emitted n (fun x => { x with offered := true })
        (r := s.wiredRec n (if (s.srcAt n).isEdge n then .event else .levelAssert) ((s.srcAt n).payloadOf n) 11) rfl
      exact ⟨_, _, hexec, honly, hsrc, hinq, rfl, rfl, rfl⟩
  · have hquiet : (s.emitOrder pos.val).find? mayEmit = none :=
      State.emitOrder_find_none hwf (fun m hb => Bool.eq_false_iff.mpr (fun hm => (h m hb).2 ((hnext m).mp hm)))
    rw [hexec, State.emitOne_none (hstill fun m hb => (h m hb).1) hquiet]

end Sys2Proof.Machine
end

section
/-! SUPPORT. A configuration write of word 0 (spec/02 R35 to R37, spec/13 R349). -/

namespace Sys2Proof.Machine

theorem merge_full (old d : Word) : merge .full old d = d := by simp [merge, accMask, accData]

theorem cfgTargets_word0 (s : State) (n : Fin 8192) (data : Word) :
    cfgTargets (.word0 n) (merge .full (s.cfgWord (.word0 n)) data) = [(n.val, Source.setWord0 data)] := by rw [merge_full]; rfl

theorem State.cfgApply_word0 (s : State) (n : Fin 8192) (data : Word) :
    s.cfgApply (.word0 n) .full data = s.reconfigure n.val (Source.setWord0 data) := by
  simp only [State.cfgApply, cfgTargets_word0]
  rfl

theorem State.cfgMustWait_word0 (s : State) (n : Fin 8192) (data : Word) :
    s.cfgMustWait (.word0 n) .full data =
      (s.posBusy (s.posOf (srcHandle n.val)) && s.directRoute n.val != (s.updSrc n.val (Source.setWord0 data)).directRoute n.val) := by
  simp only [State.cfgMustWait, cfgTargets_word0, List.any_cons, List.any_nil, Bool.or_false]

theorem exec_sourceConfigWrite (r : CfgReg) (acc : Acc) (data : Word) {s : State} (hr : s.running = true) :
    exec (.sourceConfigWrite r acc data) s = .next (s.cfgWrite r acc data none).evalAll := by
  change execSourceConfigWrite r acc data s = _
  simp [execSourceConfigWrite, hr]

theorem State.cfgWrite_applies {s : State} {r : CfgReg} {acc : Acc} {data : Word} (hw : s.wired.waiting = [])
    (hm : s.cfgMustWait r acc data = false) : s.cfgWrite r acc data none = s.cfgApply r acc data := by
  simp [State.cfgWrite, hw, hm, State.settleWrite]

theorem State.cfgWrite_waits {s : State} {r : CfgReg} {acc : Acc} {data : Word} (hm : s.cfgMustWait r acc data = true) (wid : Option Nat) :
    s.cfgWrite r acc data wid =
      s.modWired (fun x => { x with waiting := x.waiting ++ [{ reg := r, acc := acc, data := data, wid := wid }] }) := by
  simp [State.cfgWrite, hm]

/-- Where no record of the handle is under way a change of route moves nothing. -/
theorem State.routeChanged_quiet {s : State} {h : Handle} (hl : s.liveHandle h = false) (t : Option (BitVec 9)) (old new : Route) :
    s.routeChanged h t old new = s := by
  cases t <;> simp [State.routeChanged, hl]

/-- A source with nothing under way and nothing offered, its trigger and polarity kept, takes its new fields and nothing else moves. -/
theorem State.reconfigure_sameLine {s : State} {n : Nat} {f : Source → Source} (hl : s.liveHandle (srcHandle n) = false)
    (ho : (f (s.srcAt n)).offered = false) (ht : (f (s.srcAt n)).trigger = (s.srcAt n).trigger)
    (hp : (f (s.srcAt n)).polarity = (s.srcAt n).polarity) :
    s.reconfigure n f = s.updSrc n (fun x => (f x).drop true) := by
  have hx : (s.updSrc n (fun x => (f x).drop true)).srcAt n = f (s.srcAt n) := by
    rw [State.updSrc_srcAt_same, Source.drop_unoffered ho]
  have hline : ((s.srcAt n).trigger != ((s.updSrc n (fun x => (f x).drop true)).srcAt n).trigger ||
      (s.srcAt n).polarity != ((s.updSrc n (fun x => (f x).drop true)).srcAt n).polarity) = false := by simp [hx, ht, hp]
  simp only [State.reconfigure, hline, Bool.false_eq_true, if_false]
  exact State.routeChanged_quiet (s := s.updSrc n _) hl _ _ _

/-- The line sampled for an edge source is its new edge reference (spec/02 R37). -/
theorem State.resample_edge {s : State} {n : Nat} (hl : s.wired.live = true) (he : (s.srcAt n).isEdge n = true) :
    s.resample n = s.updSrc n (fun x => { x with ref := x.line }) := by
  have he' : ((s.updSrc n (fun x => { x with ref := x.line })).srcAt n).isEdge n = true := by rw [State.updSrc_srcAt_same]; exact he
  simp only [State.resample, hl, he', Bool.not_true, if_true]
  rfl

/-- A source with nothing under way and nothing offered that becomes an edge source takes its new fields and its line's level as reference. -/
theorem State.reconfigure_toEdge {s : State} {n : Nat} {f : Source → Source} (hl : s.liveHandle (srcHandle n) = false)
    (hlive : s.wired.live = true) (ho : (f (s.srcAt n)).offered = false) (ht : (f (s.srcAt n)).trigger ≠ (s.srcAt n).trigger)
    (he : (f (s.srcAt n)).isEdge n = true) :
    s.reconfigure n f = (s.updSrc n (fun x => (f x).drop true)).updSrc n (fun x => { x with ref := x.line }) := by
  have hx : (s.updSrc n (fun x => (f x).drop true)).srcAt n = f (s.srcAt n) := by
    rw [State.updSrc_srcAt_same, Source.drop_unoffered ho]
  have hline : ((s.srcAt n).trigger != ((s.updSrc n (fun x => (f x).drop true)).srcAt n).trigger ||
      (s.srcAt n).polarity != ((s.updSrc n (fun x => (f x).drop true)).srcAt n).polarity) = true := by simp [hx, ht.symm]
  have hsample := State.resample_edge (s := s.updSrc n (fun x => (f x).drop true)) hlive (by rw [hx]; exact he)
  simp only [State.reconfigure, hline, if_true, hsample]
  exact State.routeChanged_quiet (s := (s.updSrc n _).updSrc n _) hl _ _ _

/-- What `evalAll` leaves: every level is evaluated afresh, and all but the pairs stands. -/
theorem State.evalAll_srcAt (s : State) (k : Nat) : s.evalAll.srcAt k = s.srcAt k :=
  State.evalAll_keeps (·.srcAt k) (fun _ _ => rfl) s

/-- A write that changes nothing but a source, then the levels afresh. -/
theorem State.evalAll_onlySource {s u : State} {n : Nat} (h : onlySource s u n) :
    u.evalAll = { s with wired := u.evalAll.wired, pair := u.evalAll.pair } ∧ (∀ k, k ≠ n → u.evalAll.srcAt k = s.srcAt k) ∧
      ∀ k, (u.evalAll.pairAt k).stack = (s.pairAt k).stack := by
  have hpair : u.pair = s.pair := congrArg (·.pair) h.1
  refine ⟨?_, fun k hk => (u.evalAll_srcAt k).trans (h.2 k hk), fun k => ?_⟩
  · rw [State.evalAll_frame, h.1]
  · rw [State.evalAll_stack, State.pairAt, hpair]; rfl

/-- Settles O9: the write is one reconfiguration of its source, or an entry of the waiting list. -/
theorem sourceConfigWriteAppliesOrWaits : Obligations.SourceConfigWriteAppliesOrWaits := by
  intro n data s hrun hwait x y
  have hexec := exec_sourceConfigWrite (.word0 n) .full data hrun
  have hdrop (hoff : x.offered = false) : Source.drop (Source.setWord0 data (s.srcAt n.val)) true = y := Source.drop_unoffered (x := y) hoff true
  refine ⟨fun hmay hquiet hoff htrig hpol => ?_, fun hmay hquiet hoff hlive hlevel hedge => ?_, fun hbusy hroute => ?_⟩
  · rw [State.cfgWrite_applies hwait hmay, State.cfgApply_word0, State.reconfigure_sameLine hquiet hoff htrig hpol] at hexec
    obtain ⟨hframe, hother, hstack⟩ := State.evalAll_onlySource (onlySource_updSrc s n.val (fun x => (x.setWord0 data).drop true))
    refine ⟨_, hexec, hframe, ?_, hother, hstack⟩
    rw [State.evalAll_srcAt, State.updSrc_srcAt_same, hdrop hoff]
  · have htrig : y.trigger ≠ x.trigger := by rw [hlevel]; exact hedge
    rw [State.cfgWrite_applies hwait hmay, State.cfgApply_word0,
      State.reconfigure_toEdge hquiet hlive hoff htrig (Source.isEdge_of_trigger _ hedge)] at hexec
    obtain ⟨hframe, hother, -⟩ := State.evalAll_onlySource ((onlySource_updSrc s n.val (fun x => (x.setWord0 data).drop true)).trans
      (onlySource_updSrc _ n.val (fun x => { x with ref := x.line })))
    refine ⟨_, hexec, hframe, ?_, hother⟩
    rw [State.evalAll_srcAt, State.updSrc_srcAt_same, State.updSrc_srcAt_same, hdrop hoff]
    rfl
  · have hmust : s.cfgMustWait (.word0 n) .full data = true := by
      rw [State.cfgMustWait_word0, hbusy, Bool.true_and]
      exact bne_iff_ne.mpr hroute
    rw [State.cfgWrite_waits hmust] at hexec
    have hwired (u : State) : u.evalAll.wired = u.wired := State.evalAll_keeps (·.wired) (fun _ _ => rfl) u
    refine ⟨_, hexec, ?_, ?_⟩
    · rw [State.evalAll_frame]; rfl
    · rw [hwired, State.modWired_wired, hwait]; rfl

end Sys2Proof.Machine
end

section
/-! SUPPORT. An SGI_SEND of one target (spec/02 R53, R54) and the posted-write buffer's answer to it (spec/03 R83). -/

namespace Sys2Proof.Machine

theorem isSgi_eq_true_iff (n : Nat) : isSgi n = true ↔ 8192 ≤ n ∧ (n - 8192) % 64 < 16 := by simp [isSgi]

/-- The number of an SGI of a target's bank. -/
theorem isSgi_sgiNumber (b : BitVec 9) (k : BitVec 4) : isSgi (8192 + 64 * b.toNat + k.toNat) = true := by
  have hk := k.isLt
  exact (isSgi_eq_true_iff _).mpr ⟨by omega, by omega⟩

theorem sgiTargets_one {data : Word} (h : field data 6 2 = 0) : sgiTargets .full data = [(field data 16 9).toNat] := by
  have hmode : (field (accData .full data) 6 2 == 0) = true := beq_iff_eq.mpr h
  simp only [sgiTargets, hmode, if_true]
  rfl

theorem exec_sgiSend (t : Fin 512) (n : Fin 4) (acc : Acc) (data : Word) (tag : BitVec 8) {s : State} (hr : s.running = true)
    (hb : s.cp.wbuf = []) : exec (.sgiSend t n acc data tag) s = .next (s.sgiWrite t.val n.val acc data tag) := by
  change execSgiSend t n acc data tag s = _
  have hroom : s.bufferFull = false := by simp [State.bufferFull, hb]
  simp [execSgiSend, hr, hroom]

/-! ### The posted-write buffer with one write in it -/

/-- The one write in the buffer that owes more than one record owes one fewer. -/
theorem State.settleWrite_owes {s : State} {o : Owed} (hb : s.cp.wbuf = [o]) (hl : 1 < o.left) :
    s.settleWrite (some o.wid) = s.modCp (fun c => { c with wbuf := [{ o with left := o.left - 1 }] }) := by
  have hleft : o.left - 1 ≠ 0 := by omega
  simp [State.settleWrite, State.answerWrites, hb, drainOwed, hleft, foldList, State.modCp]

/-- The one write in the buffer that owes its last record is answered. -/
theorem State.settleWrite_answers {s : State} {o : Owed} (hb : s.cp.wbuf = [o]) (hl : o.left = 1) :
    s.settleWrite (some o.wid) = (s.modCp (fun c => { c with wbuf := [] })).respond false o.tag o.err 0 := by
  simp [State.settleWrite, State.answerWrites, hb, drainOwed, hl, foldList, State.modCp, State.respond]

theorem State.respond_srcAt (s : State) (rescue : Bool) (tag : BitVec 8) (err : BitVec 2) (data : Word) (k : Nat) :
    (s.respond rescue tag err data).srcAt k = s.srcAt k := rfl

/-! ### One SGI occurrence -/

theorem State.sgiAtOnce_iff (s : State) (n : Nat) : s.sgiAtOnce n = true ↔
    (s.srcAt n).pend = false ∧ (s.srcAt n).eff = true ∧ (s.srcAt n).act = false ∧ (s.srcAt n).offered = false ∧ (s.srcAt n).wdraw = false := by
  simp [State.sgiAtOnce, and_assoc]

/-- The record that an SGI forms at once on couloir input 8. -/
def State.sgiRec (s : State) (n : Nat) (payload : BitVec 16) (wid : Nat) : Rec :=
  { s.wiredRec n .event payload 8 with arrival := s.door.arrival, wid := some wid }

/-- The first occurrence of an SGI: no guard counts it. -/
theorem State.occur_sgi {s : State} {n : Nat} (hs : isSgi n = true) (hp : (s.srcAt n).pend = false) (payload : BitVec 16) :
    s.occur n payload = s.updSrc n (fun x => { x with pend := true, weight := 1, sender := payload }) := by
  rw [State.occur_unguarded (s.stormOf_sgi hs), State.pended_first hp]

/-- An SGI that may be emitted at once: its source offered, its record last on input 8, and one more arrival counted there. -/
theorem State.sgiSendOne_atOnce {s : State} {n : Nat} (payload : BitVec 16) (wid : Nat) (hs : isSgi n = true) (h : s.sgiAtOnce n = true) :
    s.sgiSendOne n payload wid =
      (((s.occur n payload).modDoor (fun d => { d with arrival := d.arrival + 1 })).updSrc n (fun x => { x with offered := true })).updInq 8
        (fun q => q ++ [s.sgiRec n payload wid]) := by
  obtain ⟨hp, -⟩ := (s.sgiAtOnce_iff n).mp h
  simp only [State.sgiSendOne, h, if_true]
  rw [State.enqueue_input (i := 8) _ rfl (by decide), State.occur_sgi hs hp]
  rfl

theorem State.sgiSendOne_waits {s : State} {n : Nat} (payload : BitVec 16) (wid : Nat) (h : s.sgiAtOnce n = false) :
    s.sgiSendOne n payload wid = s.occur n payload := by simp [State.sgiSendOne, h]

/-- An SGI_SEND of one target: the write is accepted, its one occurrence made, and the write's own share settled. -/
theorem State.sgiWrite_one {s : State} {data : Word} (hm : field data 6 2 = 0) (t n : Nat) (tag : BitVec 8) :
    let k := 8192 + 64 * (field data 16 9).toNat + (field data 0 4).toNat
    s.sgiWrite t n .full data tag =
      ((s.openWrite tag (4096 + 4 * t + n) (if s.sgiAtOnce k then 2 else 1)).sgiSendOne k (0#5 ++ BitVec.ofNat 2 n ++ BitVec.ofNat 9 t)
        s.cp.nextWid).settleWrite (some s.cp.nextWid) := by
  intro k
  have hcount : ([k].filter s.sgiAtOnce).length + 1 = if s.sgiAtOnce k then 2 else 1 := by
    cases h : s.sgiAtOnce k <;> simp [h]
  simp only [State.sgiWrite, sgiTargets_one hm, List.map_cons, List.map_nil]
  rw [hcount]
  rfl

/-- The posted-write buffer once it has taken its only write. -/
def State.tookWrite (s : State) (o : Owed) : State := s.modCp (fun c => { c with wbuf := [o], nextWid := c.nextWid + 1 })

/-- The entry of an SGI_SEND write that owes `left` records (spec/16 R419). -/
def State.sgiOwed (s : State) (t n : Nat) (tag : BitVec 8) (left : Nat) : Owed :=
  { wid := s.cp.nextWid, tag := tag, frame := 4096 + 4 * t + n, left := left, err := 0 }

section
variable {s : State} {t0 : Fin 512} {ring : Fin 4} {data : Word} {tag : BitVec 8} (hrun : s.running = true) (hbuf : s.cp.wbuf = [])
  (hmode : field data 6 2 = 0)
include hrun hbuf hmode

/-- An SGI_SEND of one target with no write before it: the write taken, its occurrence made, its own share settled. -/
theorem exec_sgiSend_one {k : Nat} {sender : BitVec 16} {o : Owed} (hk : k = 8192 + 64 * (field data 16 9).toNat + (field data 0 4).toNat)
    (hs : sender = 0#5 ++ BitVec.ofNat 2 ring.val ++ BitVec.ofNat 9 t0.val)
    (ho : o = s.sgiOwed t0.val ring.val tag (if s.sgiAtOnce k then 2 else 1)) :
    exec (.sgiSend t0 ring .full data tag) s = .next (((s.tookWrite o).sgiSendOne k sender o.wid).settleWrite (some o.wid)) := by
  have hleft : (if s.sgiAtOnce k then 2 else 1) ≠ 0 := by split <;> decide
  have hopen := State.openWrite_first s tag (4096 + 4 * t0.val + ring.val) (if s.sgiAtOnce k then 2 else 1) hbuf hleft
  rw [exec_sgiSend t0 ring .full data tag hrun hbuf, State.sgiWrite_one hmode, ← hk, ← hs, hopen, ho]
  rfl

end

/-- The block after a write whose one SGI formed its record: the source offered, the record last on input 8, the write waiting for its grant. -/
def State.sgiFormed (s : State) (n : Nat) (sender : BitVec 16) (o : Owed) : State :=
  (((((s.tookWrite o).updSrc n (fun x => { x with pend := true, weight := 1, sender := sender })).modDoor
    (fun d => { d with arrival := d.arrival + 1 })).updSrc n (fun x => { x with offered := true })).updInq 8
      (fun q => q ++ [s.sgiRec n sender o.wid])).modCp (fun c => { c with wbuf := [{ o with left := 1 }] })

/-- The block after a write whose one SGI keeps its occurrence in PEND: the write answered. -/
def State.sgiKept (s : State) (n : Nat) (sender : BitVec 16) (o : Owed) : State :=
  (((s.tookWrite o).updSrc n (fun x => { x with pend := true, weight := 1, sender := sender })).modCp
    (fun c => { c with wbuf := [] })).respond false o.tag o.err 0

section
variable (s : State) (n : Nat) (sender : BitVec 16) (o : Owed)

theorem State.sgiFormed_frame :
    s.sgiFormed n sender o = { s with
      wired := { s.wired with src := (s.sgiFormed n sender o).wired.src }, inq := (s.sgiFormed n sender o).inq,
      cp := (s.sgiFormed n sender o).cp, door := { s.door with arrival := s.door.arrival + 1 } } := by
  cases s
  rfl

theorem State.sgiFormed_srcAt : (s.sgiFormed n sender o).srcAt n =
    { s.srcAt n with pend := true, weight := 1, sender := sender, offered := true } := by
  simp [State.sgiFormed, State.tookWrite]

theorem State.sgiFormed_srcAt_other {k : Nat} (hk : k ≠ n) : (s.sgiFormed n sender o).srcAt k = s.srcAt k := by
  simp [State.sgiFormed, State.tookWrite, State.updSrc_srcAt_other _ _ _ hk]

theorem State.sgiFormed_inqAt : (s.sgiFormed n sender o).inqAt 8 = s.inqAt 8 ++ [s.sgiRec n sender o.wid] := by
  simp [State.sgiFormed, State.tookWrite]

theorem State.sgiFormed_inqAt_other {k : Nat} (hk : k ≠ 8) : (s.sgiFormed n sender o).inqAt k = s.inqAt k := by
  simp [State.sgiFormed, State.tookWrite, State.updInq_inqAt_other _ _ _ hk]

theorem State.sgiFormed_cp : (s.sgiFormed n sender o).cp = { s.cp with wbuf := [{ o with left := 1 }], nextWid := s.cp.nextWid + 1 } := by
  simp [State.sgiFormed, State.tookWrite]

theorem State.sgiKept_frame :
    s.sgiKept n sender o = { s with wired := { s.wired with src := (s.sgiKept n sender o).wired.src }, cp := (s.sgiKept n sender o).cp } := by
  cases s
  rfl

theorem State.sgiKept_srcAt : (s.sgiKept n sender o).srcAt n = { s.srcAt n with pend := true, weight := 1, sender := sender } := by
  simp [State.sgiKept, State.tookWrite, State.respond_srcAt]

theorem State.sgiKept_srcAt_other {k : Nat} (hk : k ≠ n) : (s.sgiKept n sender o).srcAt k = s.srcAt k := by
  simp [State.sgiKept, State.tookWrite, State.respond_srcAt, State.updSrc_srcAt_other _ _ _ hk]

theorem State.sgiKept_cp : (s.sgiKept n sender o).cp =
    { s.cp with
      wbuf := [], nextWid := s.cp.nextWid + 1,
      responses := { rescue := false, tag := o.tag, err := o.err, data := 0 } :: s.cp.responses } := by
  simp [State.sgiKept, State.tookWrite, State.respond]

end

section
variable {s : State} {n : Nat} {o : Owed} (sender : BitVec 16) (hs : isSgi n = true)
include hs

theorem State.sgiSettled_atOnce (h : s.sgiAtOnce n = true) (hl : o.left = 2) :
    ((s.tookWrite o).sgiSendOne n sender o.wid).settleWrite (some o.wid) = s.sgiFormed n sender o := by
  have hu : (s.tookWrite o).sgiAtOnce n = true := h
  obtain ⟨hp, -⟩ := ((s.tookWrite o).sgiAtOnce_iff n).mp hu
  rw [State.sgiSendOne_atOnce sender o.wid hs hu, State.occur_sgi hs hp, State.settleWrite_owes (o := o), hl]
  · rfl
  · simp [State.tookWrite]
  · omega

theorem State.sgiSettled_waits (h : s.sgiAtOnce n = false) (hp : (s.srcAt n).pend = false) (hl : o.left = 1) :
    ((s.tookWrite o).sgiSendOne n sender o.wid).settleWrite (some o.wid) = s.sgiKept n sender o := by
  have hu : (s.tookWrite o).sgiAtOnce n = false := h
  have hpu : ((s.tookWrite o).srcAt n).pend = false := hp
  rw [State.sgiSendOne_waits sender o.wid hu, State.occur_sgi hs hpu, State.settleWrite_answers (o := o)]
  · rfl
  · simp [State.tookWrite]
  · exact hl

end

/-- Settles O10: the one occurrence forms its record at once, or stays in PEND. -/
theorem sgiSendMakesOneOccurrence : Obligations.SgiSendMakesOneOccurrence := by
  intro t0 ring data tag s hrun hbuf hmode n x sender hpend
  have hsgi : isSgi n = true := isSgi_sgiNumber _ _
  have hexec := exec_sgiSend_one (t0 := t0) (ring := ring) (tag := tag) (k := n) (sender := sender) hrun hbuf hmode rfl rfl rfl
  refine ⟨fun heff hact hoff hwd => ?_, fun heff => ?_⟩
  · have honce : s.sgiAtOnce n = true := (s.sgiAtOnce_iff n).mpr ⟨hpend, heff, hact, hoff, hwd⟩
    rw [if_pos honce, State.sgiSettled_atOnce sender hsgi honce rfl] at hexec
    exact ⟨_, _, hexec, State.sgiFormed_frame .., State.sgiFormed_srcAt .., fun k hk => State.sgiFormed_srcAt_other _ _ _ _ hk,
      State.sgiFormed_inqAt .., fun k hk => State.sgiFormed_inqAt_other _ _ _ _ hk, rfl, rfl, rfl, rfl,
      by rw [State.sgiFormed_cp], by rw [State.sgiFormed_cp]; rfl⟩
  · have hwaits : ¬s.sgiAtOnce n = true := by
      intro h
      obtain ⟨-, he, -⟩ := (s.sgiAtOnce_iff n).mp h
      exact Bool.false_ne_true (heff.symm.trans he)
    rw [if_neg hwaits, State.sgiSettled_waits sender hsgi (by simpa using hwaits) hpend rfl] at hexec
    exact ⟨_, hexec, State.sgiKept_frame .., State.sgiKept_srcAt .., fun k hk => State.sgiKept_srcAt_other _ _ _ _ hk,
      by rw [State.sgiKept_cp]; rfl, by rw [State.sgiKept_cp]⟩

end Sys2Proof.Machine
end

section
/-! SUPPORT. What the operations of a Pass port touch (spec/03 R60, R70, R74), and the port they leave. -/

namespace Sys2Proof.Machine

theorem Tbl.erase_erase {α : Type} (t : Tbl α) (key : Nat) : Tbl.erase (Tbl.erase t key) key = Tbl.erase t key := by
  simp [Tbl.erase]

theorem Tbl.erase_place {α : Type} (key : Nat) (v : α) (t : Tbl α) : Tbl.erase (Tbl.place key v t) key = Tbl.erase t key := by
  induction t with
  | nil => simp [Tbl.place, Tbl.erase]
  | cons p rest ih =>
    obtain ⟨k, w⟩ := p
    by_cases h : key < k
    · simp [Tbl.place, Tbl.erase, h]
    · simp only [Tbl.place, h, if_false]
      simp only [Tbl.erase, List.filter_cons] at ih ⊢
      rw [ih]

theorem Tbl.erase_set {α : Type} [DecidableEq α] (d : α) (t : Tbl α) (key : Nat) (v : α) :
    Tbl.erase (Tbl.set d t key v) key = Tbl.erase t key := by
  unfold Tbl.set
  split
  · exact Tbl.erase_erase t key
  · rw [Tbl.erase_place, Tbl.erase_erase]

/-- Two changes of one row are one change. -/
theorem Tbl.upd_upd {α : Type} [DecidableEq α] (d : α) (t : Tbl α) (key : Nat) (f g : α → α) :
    Tbl.upd d (Tbl.upd d t key f) key g = Tbl.upd d t key (fun x => g (f x)) := by
  have h (v w : α) : Tbl.set d (Tbl.set d t key v) key w = Tbl.set d t key w := by
    rw [Tbl.set, Tbl.erase_set, Tbl.set]
  simp only [Tbl.upd, Tbl.get_set_same, h]

/-- Two changes of one port are one change. -/
theorem State.updPass_updPass (s : State) (n : Nat) (f g : PassPort → PassPort) :
    (s.updPass n f).updPass n g = s.updPass n (fun p => g (f p)) := by
  simp only [State.updPass, Tbl.upd_upd]

theorem onlyPort_refl (s : State) (n : Nat) : onlyPort s s n := ⟨rfl, fun _ _ => rfl⟩

theorem onlyPort.trans {s t u : State} {n : Nat} (h : onlyPort s t n) (g : onlyPort t u n) : onlyPort s u n := by
  refine ⟨?_, fun k hk => (g.2 k hk).trans (h.2 k hk)⟩
  rw [g.1, h.1]

theorem onlyPort_updPass (s : State) (n : Nat) (f : PassPort → PassPort) : onlyPort s (s.updPass n f) n :=
  ⟨rfl, fun _ hk => State.updPass_passAt_other s n f hk⟩

theorem State.devTouch_passAt (s : State) (q : BitVec 16) (k : Nat) : (s.devTouch q).passAt k = s.passAt k := by
  rw [State.devTouch_frame]; rfl

theorem State.devTouch_onlyPort (s : State) (q : BitVec 16) (n : Nat) : onlyPort s (s.devTouch q) n :=
  by
  refine ⟨?_, fun k _ => s.devTouch_passAt q k⟩
  rw [State.devTouch_frame]

/-- A unit without a FAULT ration records a code: the port's error bit, and what waits for the cairn table. -/
theorem State.passCode_other (s : State) (m n code : Nat) :
    s.passCode (.other m) n code =
      { s.updPass n (fun p => { p with err := setBit p.err code true }) with cairn := (s.passCode (.other m) n code).cairn } :=
  State.report_other_frame ..

theorem State.passCode_onlyPort (s : State) (n code : Nat) : onlyPort s (s.passCode (portUnit n) n code) n := by
  rw [portUnit, State.passCode_other]
  exact ⟨rfl, fun _ hk => State.updPass_passAt_other s n (fun p => { p with err := setBit p.err code true }) hk⟩

@[simp] theorem State.passCode_passAt (s : State) (n code : Nat) :
    (s.passCode (portUnit n) n code).passAt n = { s.passAt n with err := setBit (s.passAt n).err code true } := by
  rw [portUnit, State.passCode_other]
  exact State.updPass_passAt_same s n (fun p => { p with err := setBit p.err code true })

theorem State.passRefuse_onlyPort (s : State) (n : Nat) (d : BitVec 128) (par : BitVec 16) (code : Nat) :
    onlyPort s (s.passRefuse (portUnit n) n d par code) n :=
  (onlyPort_updPass s n _).trans (State.passCode_onlyPort _ n code)

@[simp] theorem State.passRefuse_passAt (s : State) (n : Nat) (d : BitVec 128) (par : BitVec 16) (code : Nat) :
    (s.passRefuse (portUnit n) n d par code).passAt n =
      { s.passAt n with
        refused := (s.passAt n).refused + 1, lastErr := d, lastPar := par, lastCode := BitVec.ofNat 4 code, lastTime := s.now32,
        err := setBit (s.passAt n).err code true } := by
  simp only [State.passRefuse, State.passCode_passAt, State.updPass_passAt_same]

end Sys2Proof.Machine
end

section
/-! SUPPORT. The beat of a Pass record (spec/03 R59 to R73): the port that counts it, the port that has spent its credit, and the checks in order. -/

namespace Sys2Proof.Machine

/-! ### The port before the checks -/

/-- The port once it has counted a beat: its PCLK runs, and a credit it owed is returned (spec/03 R60). -/
def PassPort.counted (p : PassPort) : PassPort :=
  { { p with pclk := none }.cycles 1 with accepted := p.accepted + 1, arrival := p.arrival + 1 }

/-- The port once a beat has used its credit. -/
def PassPort.spent (p : PassPort) : PassPort := { p.counted with credit := p.counted.credit - 1 }

/-- A cycle of a live port whose PCLK runs returns one credit where one is owed. -/
theorem PassPort.counted_eq {p : PassPort} (h : p.live = true) :
    p.counted =
      { p with
        pclk := none, owed := p.owed - min 1 p.owed, credit := p.credit + min 1 p.owed, fullCycles := p.counted.fullCycles,
        accepted := p.accepted + 1, arrival := p.arrival + 1 } := by
  simp [PassPort.counted, PassPort.cycles, h]

theorem PassPort.spent_eq {p : PassPort} (h : p.live = true) (hc : p.credit ≠ 0) :
    p.spent =
      { p with
        pclk := none, owed := p.owed - min 1 p.owed, credit := p.credit - 1 + min 1 p.owed, fullCycles := p.counted.fullCycles,
        accepted := p.accepted + 1, arrival := p.arrival + 1 } := by
  have hsub : p.credit + min 1 p.owed - 1 = p.credit - 1 + min 1 p.owed := by omega
  rw [PassPort.spent, PassPort.counted_eq h]
  simp only [hsub]

/-! ### The SEQ comparison -/

/-- Whether the SEQ of a record that carries one is not the one after the port's reference (spec/03 R70). -/
def PassPort.seqGap (p : PassPort) (d : BitVec 128) : Bool :=
  bitAt d 107 && p.seqRef.any (fun g => (field d 8 8 : BitVec 8) != g + 1)

/-- The port after the SEQ comparison. -/
def PassPort.seqSeen (p : PassPort) (d : BitVec 128) : PassPort :=
  { p with
    seqRef := if bitAt d 107 then some (field d 8 8) else p.seqRef, seqGaps := if p.seqGap d then satInc p.seqGaps else p.seqGaps,
    err := if p.seqGap d then setBit p.err 0xB true else p.err }

theorem PassPort.seqGap_iff (p : PassPort) (d : BitVec 128) :
    p.seqGap d = true ↔ ∃ g, p.seqRef = some g ∧ bitAt d 107 = true ∧ field d 8 8 ≠ g + 1 := by
  cases h : p.seqRef <;> simp [PassPort.seqGap, h]

theorem PassPort.seqGap_first {p : PassPort} {d : BitVec 128} (h : p.seqRef = none ∨ bitAt d 107 = false) : p.seqGap d = false := by
  rcases h with h | h <;> simp only [PassPort.seqGap, h, Option.any_none, Bool.and_false, Bool.false_and]

/-- The block once the SEQ of a record that carries one is the port's reference, and a gap before it is counted. -/
def State.seqNoted (s : State) (n : Nat) (d : BitVec 128) : State :=
  s.updPass n (fun p => { p with
    seqRef := some (field d 8 8), seqGaps := if (s.passAt n).seqGap d then satInc p.seqGaps else p.seqGaps })

theorem State.seqCheck_eq (s : State) (n : Nat) (d : BitVec 128) :
    s.seqCheck n d =
      if bitAt d 107 then
        if (s.passAt n).seqGap d then (s.seqNoted n d).passCode (portUnit n) n 0xB else s.seqNoted n d
      else s := by
  unfold State.seqCheck
  cases hb : bitAt d 107
  · rfl
  · cases hr : (s.passAt n).seqRef <;> simp [State.seqNoted, PassPort.seqGap, hb, hr]

theorem State.seqCheck_onlyPort (s : State) (n : Nat) (d : BitVec 128) : onlyPort s (s.seqCheck n d) n := by
  rw [State.seqCheck_eq]
  split
  · split
    · exact (onlyPort_updPass s n _).trans (State.passCode_onlyPort _ n 0xB)
    · exact onlyPort_updPass s n _
  · exact onlyPort_refl s n

theorem State.seqCheck_passAt (s : State) (n : Nat) (d : BitVec 128) : (s.seqCheck n d).passAt n = (s.passAt n).seqSeen d := by
  rw [State.seqCheck_eq]
  cases hb : bitAt d 107
  · simp only [PassPort.seqSeen, PassPort.seqGap, hb, Bool.false_and, Bool.false_eq_true, if_false]
  · cases hg : (s.passAt n).seqGap d <;> simp [PassPort.seqSeen, State.seqNoted, hb, hg]

theorem State.seqCheck_xl (s : State) (n : Nat) (d : BitVec 128) : (s.seqCheck n d).xl = s.xl := by
  rw [State.seqCheck_eq]
  split
  · split
    · rw [portUnit, State.passCode_other]; rfl
    · rfl
  · rfl

/-! ### Checks 5 to 7 -/

/-- A cached entry that is valid, open to the ingress and covers the event passes checks 5 to 7 (spec/03 R71). -/
theorem State.portCheck_passed {s : State} {q : BitVec 16} {l : DevLine} {i : Nat} {e : BitVec 20} (hl : s.devLine q = some l)
    (hv : l.entry.valid = true) (hi : bitAt l.entry.ingress i = true) (he : e.toNat < 2 ^ l.entry.eventBits.toNat) :
    s.portCheck i q e = .passed l.entry.devGen := by
  have hcheck : devCheck l.entry i e = none := by
    simp only [devCheck, hv, hi, he, Bool.not_true, Bool.false_eq_true, if_false, if_true]
  simp only [State.portCheck, hl, hcheck]

/-- The record that port `n` buffers for a beat that passes its checks under an entry of generation `gen`. -/
def State.passRec (s : State) (n : Nat) (d : BitVec 128) (par : BitVec 16) (k : RKind) (a : BitVec 40) (gen : BitVec 32) : Rec :=
  { origin := .handle { cls := 2, req := field d 112 16, evt := field d 80 20 }, kind := k,
    payload := if k = .eventPayload then field d 64 16 else 0, srcTime := s.stampTime (field d 16 48), input := n, arrival := a, replayed := false,
    count := 0, unchecked := false, devGen := gen, wid := none, snap := false, written := false, raw := d, par := par }

theorem State.acceptRecord_passed {s : State} {n : Nat} {d : BitVec 128} {g : BitVec 32}
    (h : s.portCheck n (field d 112 16) (field d 80 20) = .passed g) (par : BitVec 16) (k : RKind) (a : BitVec 40) :
    s.acceptRecord n d par k a =
      (s.devTouch (field d 112 16)).updPass n (fun p => { p with buf := p.buf ++ [.record (s.passRec n d par k a g)] }) := by
  simp only [State.acceptRecord, h]
  rfl

/-- SYNC is no KIND of a record. -/
theorem passKind_some {v : BitVec 4} {k : RKind} (h : passKind v = some k) : v ≠ 8 := by
  rintro rfl
  simp [passKind] at h

theorem passKind_none {v : BitVec 4} (h : v ∉ ([1, 2, 3, 4, 8] : List (BitVec 4))) : passKind v = none ∧ v ≠ 8 := by
  simp only [List.mem_cons, List.not_mem_nil, or_false, not_or] at h
  obtain ⟨h1, h2, h3, h4, h8⟩ := h
  refine ⟨?_, h8⟩
  simp only [passKind, beq_eq_false_iff_ne.mpr h1, beq_eq_false_iff_ne.mpr h2, beq_eq_false_iff_ne.mpr h3, beq_eq_false_iff_ne.mpr h4]
  rfl

theorem reservedRequester_of_ne {q : BitVec 16} (h : field q 4 12 ≠ (0xFF0 : BitVec 12)) : reservedRequester q = false :=
  beq_eq_false_iff_ne.mpr h

/-! ### The checks in order -/

/-- A refused record whose credit is owed again. -/
def State.refuseFreed (s : State) (n : Nat) (d : BitVec 128) (par : BitVec 16) (code : Nat) : State :=
  (s.passRefuse (portUnit n) n d par code).updPass n PassPort.free

theorem State.refuseFreed_onlyPort {s u : State} {n : Nat} (h : onlyPort s u n) (d : BitVec 128) (par : BitVec 16) (code : Nat) :
    onlyPort s (u.refuseFreed n d par code) n :=
  (h.trans (u.passRefuse_onlyPort n d par code)).trans (onlyPort_updPass _ n _)

theorem State.refuseFreed_passAt (s : State) (n : Nat) (d : BitVec 128) (par : BitVec 16) (code : Nat) :
    (s.refuseFreed n d par code).passAt n =
      { s.passAt n with
        refused := (s.passAt n).refused + 1, lastErr := d, lastPar := par, lastCode := BitVec.ofNat 4 code, lastTime := s.now32,
        err := setBit (s.passAt n).err code true, owed := (s.passAt n).owed + 1 } := by
  rw [State.refuseFreed, State.updPass_passAt_same, State.passRefuse_passAt]
  rfl

/-- The block once a record has passed check 1 and met the SEQ comparison. -/
def State.seqChecked (s : State) (n : Nat) (d : BitVec 128) : State := (s.updPass n PassPort.spent).seqCheck n d

theorem State.seqChecked_onlyPort (s : State) (n : Nat) (d : BitVec 128) : onlyPort s (s.seqChecked n d) n :=
  (onlyPort_updPass s n _).trans (State.seqCheck_onlyPort _ n d)

theorem State.seqChecked_passAt (s : State) (n : Nat) (d : BitVec 128) : (s.seqChecked n d).passAt n = (s.passAt n).spent.seqSeen d := by
  rw [State.seqChecked, State.seqCheck_passAt, State.updPass_passAt_same]

theorem State.seqChecked_devLine (s : State) (n : Nat) (d : BitVec 128) (q : BitVec 16) : (s.seqChecked n d).devLine q = s.devLine q := by
  unfold State.devLine
  rw [State.seqChecked, State.seqCheck_xl, State.updPass_xl]

theorem exec_passRecord (n : Fin 8) (d : BitVec 128) (par : BitVec 16) {s : State} (hr : s.running = true) (hl : (s.passAt n.val).live = true) :
    exec (.passRecord n d par) s = .next (s.passBeat n.val d par) := by
  change execPassRecord n d par s = _
  simp [execPassRecord, hr, hl]

section
variable {s : State} {n : Nat} {d : BitVec 128} {par : BitVec 16}

theorem State.passBeat_overrun (hc : (s.passAt n).credit = 0) :
    s.passBeat n d par = (s.updPass n PassPort.counted).passRefuse (portUnit n) n d par 2 := by
  simp only [State.passBeat, hc, if_true]
  rfl

variable (hc : (s.passAt n).credit ≠ 0)
include hc

theorem State.passBeat_parity (hp : parityOk d par 16 = false) :
    s.passBeat n d par = (s.updPass n PassPort.spent).refuseFreed n d par 1 := by
  simp only [State.passBeat, hc, hp, if_false, State.updPass_updPass]
  rfl

variable (hp : parityOk d par 16 = true)
include hp

theorem State.passBeat_reserved (hq : reservedRequester (field d 112 16) = true) :
    s.passBeat n d par = (s.seqChecked n d).refuseFreed n d par 3 := by
  simp only [State.passBeat, hc, hp, hq, if_false, if_true, State.updPass_updPass]
  rfl

variable (hq : reservedRequester (field d 112 16) = false) (h8 : field d 108 4 ≠ (8 : BitVec 4))
include hq h8

theorem State.passBeat_badKind (hk : passKind (field d 108 4) = none) : s.passBeat n d par = (s.seqChecked n d).refuseFreed n d par 4 := by
  simp only [State.passBeat, hc, hp, hq, beq_eq_false_iff_ne.mpr h8, hk, if_false, State.updPass_updPass]
  rfl

theorem State.passBeat_record {k : RKind} (hk : passKind (field d 108 4) = some k) :
    s.passBeat n d par = (s.seqChecked n d).acceptRecord n d par k (s.passAt n).arrival := by
  simp only [State.passBeat, hc, hp, hq, beq_eq_false_iff_ne.mpr h8, hk, if_false, State.updPass_updPass]
  rfl

end

/-- Settles O11: each check has its outcome, and each outcome is the port that has counted the beat, changed in a few fields. -/
theorem passRecordMeetsItsChecksInOrder : Obligations.PassRecordMeetsItsChecksInOrder := by
  intro n d par s hrun hlive p q back
  have hexec := exec_passRecord n d par hrun hlive
  have hback : back = min 1 p.owed := by
    simp only [back]
    split <;> omega
  have hcounted := PassPort.counted_eq hlive
  have hspent := PassPort.spent_eq hlive
  rw [hback]
  refine ⟨fun hc => ?_, fun hc hpar => ?_, fun hc hpar hq => ?_, fun hc hpar hq hkind => ?_, fun l k hc hpar hq hk hl hv hi he => ?_⟩
  · rw [State.passBeat_overrun hc] at hexec
    have hport := (s.updPass n.val PassPort.counted).passRefuse_passAt n.val d par 2
    rw [State.updPass_passAt_same, hcounted] at hport
    refine ⟨_, hexec, (onlyPort_updPass s n.val _).trans (State.passRefuse_onlyPort ..), ?_⟩
    simp [hport, p, hc]
  · rw [State.passBeat_parity hc hpar] at hexec
    have hport := (s.updPass n.val PassPort.spent).refuseFreed_passAt n.val d par 1
    rw [State.updPass_passAt_same, hspent hc] at hport
    refine ⟨_, hexec, State.refuseFreed_onlyPort (onlyPort_updPass s n.val _) d par 1, ?_⟩
    simp [hport, p]
  · rw [State.passBeat_reserved hc hpar (beq_iff_eq.mpr hq)] at hexec
    have hport := (s.seqChecked n.val d).refuseFreed_passAt n.val d par 3
    rw [State.seqChecked_passAt, hspent hc] at hport
    refine ⟨_, hexec, State.refuseFreed_onlyPort (s.seqChecked_onlyPort n.val d) d par 3, ?_⟩
    simp [hport, p, PassPort.seqSeen]
  · obtain ⟨hk, h8⟩ := passKind_none hkind
    rw [State.passBeat_badKind hc hpar (reservedRequester_of_ne hq) h8 hk] at hexec
    have hport := (s.seqChecked n.val d).refuseFreed_passAt n.val d par 4
    rw [State.seqChecked_passAt, hspent hc] at hport
    refine ⟨_, hexec, State.refuseFreed_onlyPort (s.seqChecked_onlyPort n.val d) d par 4, ?_⟩
    simp [hport, p, PassPort.seqSeen]
  · rw [State.passBeat_record hc hpar (reservedRequester_of_ne hq) (passKind_some hk) hk,
      State.acceptRecord_passed (State.portCheck_passed ((s.seqChecked_devLine n.val d q).trans hl) hv hi he)] at hexec
    refine ⟨_, (s.seqChecked n.val d).passRec n.val d par k p.arrival l.entry.devGen, hexec,
      ((s.seqChecked_onlyPort n.val d).trans (State.devTouch_onlyPort _ q n.val)).trans (onlyPort_updPass _ n.val _), ?_⟩
    rw [State.updPass_passAt_same, State.devTouch_passAt, State.seqChecked_passAt, hspent hc]
    exact ⟨rfl, rfl, rfl, rfl, rfl, rfl, rfl, rfl, rfl, fun hb => if_pos hb, fun hg => if_pos ((p.seqGap_iff d).mpr hg),
      fun hn => if_neg (Bool.eq_false_iff.mp (PassPort.seqGap_first (p := p) hn))⟩

end Sys2Proof.Machine
end

section
/-! SUPPORT. PASSn_RESET_N of a Pass port (spec/03 R63, R64), what a couloir then sees, and PCLK_OK of the port's frame (R87). -/

namespace Sys2Proof.Machine

/-! ### PASSn_RESET_N -/

/-- From when PCLK_OK reads 0: never while PCLK runs, else 100 ticks after it stopped (spec/15 R389, log 23). -/
def PassPort.stands (p : PassPort) (clock : Bool) (ticks : Nat) : Option Nat := if clock then none else p.pclk.or (some (ticks + 100))

/-- The port once its reset pin is low. -/
def PassPort.resetLow (p : PassPort) (clock : Bool) (ticks : Nat) : PassPort :=
  { p with resetN := false, live := false, credit := 0, pclk := p.stands clock ticks }

/-- The port once its reset pin is high; the sequence reference goes where the pin rose. -/
def PassPort.resetHigh (p : PassPort) (clock : Bool) (ticks : Nat) : PassPort :=
  { p with resetN := true, seqRef := if p.resetN then p.seqRef else none, pclk := p.stands clock ticks }

section
variable (n : Fin 8) (clock : Bool) (s : State)

theorem exec_passReset_low :
    exec (.passReset n { resetN := false, clock := clock }) s = .next (s.updPass n.val (fun p => p.resetLow clock s.clk.ticks)) := by
  change execPassReset n _ s = _
  simp only [execPassReset, PassPort.resetLow, Bool.and_false]
  rfl

theorem exec_passReset_high :
    exec (.passReset n { resetN := true, clock := clock }) s =
      .next ((s.updPass n.val (fun p => p.resetHigh clock s.clk.ticks)).passRise n.val) := by
  have hport (p : PassPort) : p.resetHigh clock s.clk.ticks =
      { p with
        resetN := true, pclk := if clock then none else p.pclk.or (some (s.clk.ticks + 100)), live := p.live && true,
        seqRef := if true && !p.resetN then none else p.seqRef } := by
    cases hr : p.resetN <;> simp [PassPort.resetHigh, PassPort.stands, hr]
  change execPassReset n _ s = _
  simp only [hport]
  rfl

end

/-- A port whose pin is high rises live where the block serves. -/
theorem State.passRise_updPass {s : State} {n : Nat} {f : PassPort → PassPort} (hn : (f (s.passAt n)).resetN = true)
    (hl : (f (s.passAt n)).live = false) (hr : s.running = true) (hc : s.boot.campReady = true) (hp : s.pwr.state = 0) :
    (s.updPass n f).passRise n = s.updPass n (fun p => { f p with live := true, credit := 0, owed := 32 - (f p).buf.length }) := by
  simp [State.passRise, hn, hl, hr, hc, hp, State.updPass_updPass]

/-- What the rise of a port leaves: all but LIVE and the two counts of credits. -/
theorem State.passRise_keeps {β : Type} (f : PassPort → β)
    (hf : ∀ (p : PassPort) (live : Bool) (credit owed : Nat), f { p with live := live, credit := credit, owed := owed } = f p) (s : State) (n : Nat) :
    f ((s.passRise n).passAt n) = f (s.passAt n) := by
  simp only [State.passRise]
  split
  · rw [State.updPass_passAt_same, hf]
  · rfl

theorem exec_passRecord_notLive {n : Fin 8} {s : State} (h : (s.passAt n.val).live = false) (d : BitVec 128) (par : BitVec 16) :
    exec (.passRecord n d par) s = .next s := by
  change execPassRecord n d par s = _
  simp [execPassRecord, h]

/-- What a couloir input presents depends on the ports' buffers alone among what is known of the ports. -/
theorem State.couloirHead_updPass {s : State} {n : Nat} {f : PassPort → PassPort} (h : (f (s.passAt n)).buf = (s.passAt n).buf) (q i : Nat) :
    (s.updPass n f).couloirHead q i = s.couloirHead q i := by
  have hbuf : ((s.updPass n f).passAt i).buf = (s.passAt i).buf := by
    rw [State.updPass_passAt]
    split
    next hi => rw [h, hi]
    next => rfl
  simp only [State.couloirHead, hbuf]
  rfl

/-- PCLK_OK is bit 3 of a port's status word (spec/03 R87). -/
theorem State.passWord_pclkOk (s : State) (n : Nat) :
    (s.passWord n 0x000).getLsbD 3 = (s.linksAlive && (s.passAt n).pclk.all (fun e => decide (s.clk.ticks < e))) := by
  simp [State.passWord, putBit, putNat, put]

/-- Either level of the pin leaves what PCLK_OK reads from. -/
theorem exec_passReset_pclk {n : Fin 8} {resetN clock : Bool} {s t : State}
    (h : exec (.passReset n { resetN := resetN, clock := clock }) s = .next t) :
    (t.passAt n.val).pclk = (s.passAt n.val).stands clock s.clk.ticks := by
  cases resetN
  · rw [exec_passReset_low] at h
    cases h
    rw [State.updPass_passAt_same]
    rfl
  · rw [exec_passReset_high] at h
    cases h
    rw [State.passRise_keeps (·.pclk) (fun _ _ _ _ => rfl), State.updPass_passAt_same]
    rfl

/-- Settles O12: the low pin's port and the high pin's port, the latter raised where the block serves. -/
theorem passResetDropsAndRestoresLive : Obligations.PassResetDropsAndRestoresLive := by
  intro n clock s p stands
  refine ⟨?_, fun hlow hdown hrun hcamp hpower => ?_, fun hdown d par => exec_passRecord_notLive hdown d par, fun t hlow h => ?_, fun t h => ?_,
    fun t u resetN h hpass hruns => ?_⟩
  · exact ⟨_, exec_passReset_low n clock s, rfl, fun k hk => State.updPass_passAt_other s n.val _ hk, State.updPass_passAt_same s n.val _⟩
  · have hexec := exec_passReset_high n clock s
    rw [State.passRise_updPass (f := fun p => p.resetHigh clock s.clk.ticks) rfl hdown hrun hcamp hpower] at hexec
    refine ⟨_, hexec, rfl, fun k hk => State.updPass_passAt_other s n.val _ hk, ?_⟩
    rw [State.updPass_passAt_same]
    simp only [PassPort.resetHigh, show (s.passAt n.val).resetN = false from hlow]
    rfl
  · rw [exec_passReset_high] at h
    cases h
    rw [State.passRise_keeps (·.seqRef) (fun _ _ _ _ => rfl), State.updPass_passAt_same]
    simp only [PassPort.resetHigh, show (s.passAt n.val).resetN = false from hlow]
    rfl
  · rw [exec_passReset_low] at h
    cases h
    exact ⟨by rw [State.updPass_passAt_same]; rfl, State.couloirHead_updPass rfl⟩
  · have hport : (u.passAt n.val).pclk = p.stands clock s.clk.ticks := by
      rw [← exec_passReset_pclk h]
      simp only [State.passAt, hpass]
    rw [State.passWord_pclkOk, hport]
    cases clock <;> simp [PassPort.stands, hruns]

end Sys2Proof.Machine
end

section
/-! SUPPORT. A SYNC that completes, and one that times out (spec/03 R75 to R77). -/

namespace Sys2Proof.Machine

/-! ### The first SYNC of a buffer -/

section
variable {ahead : List PassItem} (h : ∀ i ∈ ahead, ∃ r, i = .record r) (tag q : BitVec 16) (mark : Bool) (acc : Nat) (marker : Option (BitVec 40))
  (rest : List PassItem)
include h

theorem firstSync_append : firstSync (ahead ++ .sync tag mark q acc marker :: rest) = some (tag, acc) := by
  induction ahead with
  | nil => rfl
  | cons i is ih =>
    obtain ⟨r, rfl⟩ := h i (.head _)
    exact ih (fun j hj => h j (.tail _ hj))

theorem dropSync_append : dropSync (ahead ++ .sync tag mark q acc marker :: rest) = ahead ++ rest := by
  induction ahead with
  | nil => rfl
  | cons i is ih =>
    obtain ⟨r, rfl⟩ := h i (.head _)
    exact congrArg (PassItem.record r :: ·) (ih (fun j hj => h j (.tail _ hj)))

end

/-! ### The conditions and the completion -/

/-- The conditions of a SYNC hold where nothing of its port is under way and, with MARK, its marker has come and every doorbell record before
it has settled. -/
theorem State.syncReady_of_settled {s : State} {n : Nat} {mark : Bool} {marker : Option (BitVec 40)}
    (hport : s.inFlight (fun r => r.input == n) = false)
    (hmark : mark = true → ∃ a, marker = some a ∧ s.inFlight (fun r => r.fromDoorbell && arrHigher a r.arrival) = false ∧
      ∀ r ∈ s.inqAt 8, r.fromDoorbell = true → arrHigher a r.arrival = false) : s.syncReady n mark marker = true := by
  cases mark with
  | false => simp [State.syncReady, hport]
  | true =>
    obtain ⟨a, rfl, hflight, hqueue⟩ := hmark rfl
    have hany : (s.inqAt 8).any (fun r => r.fromDoorbell && arrHigher a r.arrival) = false := by
      simpa [List.any_eq_false] using hqueue
    simp [State.syncReady, hport, hflight, hany]

theorem State.finishSync_inTime {s : State} {acc : Nat} (h : s.clk.ticks < acc + 2000) (n : Nat) (tag : BitVec 16) :
    s.finishSync n tag acc =
      s.updPass n (fun p => { p with buf := dropSync p.buf, syncDone := (tag, false) :: p.syncDone, owed := p.owed + 1 }) := by
  have hlate : decide (acc + 2000 ≤ s.clk.ticks) = false := decide_eq_false (Nat.not_le.mpr h)
  simp only [State.finishSync, hlate]
  rfl

theorem State.finishSync_late {s : State} {acc : Nat} (h : acc + 2000 ≤ s.clk.ticks) (n : Nat) (tag : BitVec 16) :
    s.finishSync n tag acc =
      (s.updPass n (fun p =>
        { p with
          buf := dropSync p.buf, syncDone := (tag, true) :: p.syncDone, syncTimeouts := satInc p.syncTimeouts,
          owed := p.owed + 1 })).passCode (portUnit n) n 0xC := by
  simp only [State.finishSync, decide_eq_true h]
  rfl

theorem exec_syncComplete {n : Fin 8} {s : State} {tag q : BitVec 16} {mark : Bool} {acc : Nat} {marker : Option (BitVec 40)} {rest : List PassItem}
    (hr : s.running = true) (hb : (s.passAt n.val).buf = .sync tag mark q acc marker :: rest) (hs : s.syncReady n.val mark marker = true) :
    exec (.syncComplete n) s = .next (s.finishSync n.val tag acc) := by
  change execSyncComplete n s = _
  simp only [execSyncComplete, hr, hb, hs]
  rfl

theorem exec_syncTimeout {n : Fin 8} {s : State} {tag : BitVec 16} {acc : Nat} (hr : s.running = true)
    (hb : firstSync (s.passAt n.val).buf = some (tag, acc)) (hl : acc + 2000 ≤ s.clk.ticks) :
    exec (.syncTimeout n) s = .next (s.finishSync n.val tag acc) := by
  change execSyncTimeout n s = _
  simp only [execSyncTimeout, hr, hb, hl]
  rfl

/-- Settles O13: the head SYNC with its conditions, or the first SYNC past its time, is dropped and its entry freed. -/
theorem syncCompletesOrTimesOut : Obligations.SyncCompletesOrTimesOut := by
  intro n s tag q mark acc marker ahead rest hrun hbuf hahead p
  have hdrop : dropSync p.buf = ahead ++ rest := (congrArg dropSync hbuf).trans (dropSync_append hahead tag q mark acc marker rest)
  refine ⟨fun hnil hmark hport hearly => ?_, fun hlate => ?_⟩
  · subst hnil
    have hexec := exec_syncComplete hrun hbuf (State.syncReady_of_settled hport hmark)
    rw [State.finishSync_inTime hearly] at hexec
    refine ⟨_, hexec, rfl, fun k hk => State.updPass_passAt_other s n.val _ hk, ?_⟩
    rw [State.updPass_passAt_same, hdrop]
  · have hfirst := (congrArg firstSync hbuf).trans (firstSync_append hahead tag q mark acc marker rest)
    have hexec := exec_syncTimeout hrun hfirst hlate
    rw [State.finishSync_late hlate] at hexec
    refine ⟨_, hexec, (onlyPort_updPass s n.val _).trans (State.passCode_onlyPort _ n.val 0xC), ?_⟩
    rw [State.passCode_passAt, State.updPass_passAt_same, hdrop]

end Sys2Proof.Machine
end

section
/-! SUPPORT. A DOORBELL write and a DB_MARK write (spec/03 R77, R81 to R83). -/

namespace Sys2Proof.Machine

/-! ### DOORBELL -/

theorem exec_doorbell (master : BitVec 16) (acc : Acc) (data : Word) (tag : BitVec 8) {s : State} (hr : s.running = true) (hb : s.cp.wbuf = []) :
    exec (.doorbell master acc data tag) s = .next (s.doorbellWrite master acc data tag) := by
  change execDoorbell master acc data tag s = _
  have hroom : s.bufferFull = false := by simp [State.bufferFull, hb]
  simp [execDoorbell, hr, hroom]

section
variable {master : BitVec 16} {data : Word} (hq : field master 4 12 ≠ (0xFF0 : BitVec 12))
include hq

theorem doorFormat_formed (hz : field data 20 12 = (0 : BitVec 12)) : doorFormat master .full data = none := by
  simp [doorFormat, reservedRequester_of_ne hq, hz]

/-- MBZ of a DOORBELL write is not 0: DOORBELL_FORMAT (spec/03 R82). -/
theorem doorFormat_mbz (hz : field data 20 12 ≠ (0 : BitVec 12)) : doorFormat master .full data = some 5 := by
  simpa [doorFormat, reservedRequester_of_ne hq] using hz

end

/-- The doorbell has taken a write. -/
def State.doorCounted (s : State) : State := s.modDoor (fun d => { d with accepted := d.accepted + 1 })

/-- The block after a DOORBELL write that formed its record with no write before it: the record last on input 8, the write waiting for its grant. -/
def State.doorFormed (s : State) (master : BitVec 16) (data : Word) (tag : BitVec 8) (gen : BitVec 32) : State :=
  (((s.doorCounted.devTouch master).tookWrite { wid := s.cp.nextWid, tag := tag, frame := 528, left := 1, err := 0 }).modDoor
    (fun d => { d with arrival := d.arrival + 1 })).updInq 8 (fun q => q ++ [s.doorRec master .full data s.cp.nextWid gen false])

theorem State.doorbellWrite_formed {s : State} {master : BitVec 16} {data : Word} {g : BitVec 32} (hb : s.cp.wbuf = [])
    (hf : doorFormat master .full data = none) (hc : s.portCheck 8 master (field data 0 20) = .passed g) (tag : BitVec 8) :
    s.doorbellWrite master .full data tag = s.doorFormed master data tag g := by
  have hcheck : s.doorCounted.portCheck 8 master (field data 0 20) = .passed g := hc
  have hcp : (s.doorCounted.devTouch master).cp = s.cp := by rw [State.devTouch_frame]; rfl
  have hopen := State.openWrite_first (s.doorCounted.devTouch master) tag 528 1 (by rw [hcp, hb]) (by decide)
  have htook : (s.doorCounted.devTouch master).openWrite tag 528 1 =
      (s.doorCounted.devTouch master).tookWrite { wid := s.cp.nextWid, tag := tag, frame := 528, left := 1, err := 0 } := by
    rw [hopen, ← hcp]
    rfl
  have hwrite : s.doorbellWrite master .full data tag =
      ((s.doorCounted.devTouch master).openWrite tag 528 1).doorPush (s.doorCounted.doorRec master .full data s.cp.nextWid g false) := by
    unfold State.doorCounted at hcheck
    simp only [State.doorbellWrite, hf, hcheck]
    rfl
  rw [hwrite, htook, State.doorPush, State.enqueue_input (i := 8) _ rfl (by decide)]
  rfl

section
variable (s : State) (master : BitVec 16) (data : Word) (tag : BitVec 8) (g : BitVec 32)

theorem State.doorFormed_frame :
    s.doorFormed master data tag g =
      { s with
        door := { s.door with accepted := s.door.accepted + 1, arrival := s.door.arrival + 1 }, inq := (s.doorFormed master data tag g).inq,
        cp := (s.doorFormed master data tag g).cp, xl := { s.xl with devCache := (s.doorFormed master data tag g).xl.devCache } } := by
  unfold State.doorFormed
  rw [State.devTouch_frame]
  rfl

theorem State.doorFormed_inqAt :
    (s.doorFormed master data tag g).inqAt 8 = s.inqAt 8 ++ [s.doorRec master .full data s.cp.nextWid g false] := by
  unfold State.doorFormed
  rw [State.updInq_inqAt_same, State.devTouch_frame]
  rfl

theorem State.doorFormed_inqAt_other {k : Nat} (hk : k ≠ 8) : (s.doorFormed master data tag g).inqAt k = s.inqAt k := by
  unfold State.doorFormed
  rw [State.updInq_inqAt_other _ _ _ hk, State.devTouch_frame]
  rfl

theorem State.doorFormed_cp :
    (s.doorFormed master data tag g).cp =
      { s.cp with wbuf := [{ wid := s.cp.nextWid, tag := tag, frame := 528, left := 1, err := 0 }], nextWid := s.cp.nextWid + 1 } := by
  unfold State.doorFormed
  rw [State.devTouch_frame]
  rfl

end

theorem State.doorCode_other (s : State) (m code : Nat) :
    s.doorCode (.other m) code =
      { s.modDoor (fun d => { d with err := setBit d.err code true }) with cairn := (s.doorCode (.other m) code).cairn } :=
  State.report_other_frame ..

/-- A refusal at the doorbell: what its frame counts and keeps, and what waits for the cairn table. -/
theorem State.doorRefuse_other (s : State) (m : Nat) (data : Word) (req : BitVec 16) (code : Nat) :
    s.doorRefuse (.other m) data req code =
      { s with
        cairn := (s.doorRefuse (.other m) data req code).cairn,
        door := { s.door with
          refused := s.door.refused + 1, lastErrData := data, lastReq := req, lastCode := BitVec.ofNat 4 code, lastTime := s.now32,
          err := setBit s.door.err code true } } := by
  unfold State.doorRefuse
  rw [State.doorCode_other]
  rfl

/-- A DOORBELL write of a bad format with no write before it: refused, and answered at once. -/
theorem State.doorbellWrite_refused {s : State} {master : BitVec 16} {data : Word} {c : Nat} (hb : s.cp.wbuf = [])
    (hf : doorFormat master .full data = some c) (tag : BitVec 8) :
    s.doorbellWrite master .full data tag =
      ((s.doorCounted.doorRefuse (portUnit 8) data master c).modCp (fun x => { x with nextWid := x.nextWid + 1 })).respond false tag 0 0 := by
  have hbuf : (s.doorCounted.doorRefuse (portUnit 8) data master c).cp.wbuf = [] := by
    rw [portUnit, State.doorRefuse_other]
    exact hb
  rw [← State.openWrite_answered _ tag 528 hbuf]
  simp only [State.doorbellWrite, hf]
  rfl

/-! ### DB_MARK -/

/-- The search of a buffer for a SYNC of a requester and TAG that waits for its marker. -/
def syncWants (q tag : BitVec 16) (found : Option Nat) (i : PassItem) : Option Nat :=
  match found, i with
  | none, .sync t true r a none => if t == tag && r == q then some a else none
  | found, _ => found

/-- A buffer without such a SYNC wants no marker. -/
theorem syncWants_none {q tag : BitVec 16} {buf : List PassItem} (h : ∀ a, PassItem.sync tag true q a none ∉ buf) :
    buf.foldl (syncWants q tag) none = none := by
  induction buf with
  | nil => rfl
  | cons i is ih =>
    have hrest := ih (fun a ha => h a (.tail _ ha))
    have hhead : syncWants q tag none i = none := by
      unfold syncWants
      split
      next t r a _ =>
        refine if_neg (fun hboth => ?_)
        simp only [Bool.and_eq_true, beq_iff_eq] at hboth
        obtain ⟨rfl, rfl⟩ := hboth
        exact h a (.head _)
      next => rfl
    rw [List.foldl_cons, hhead, hrest]

theorem State.markerPort_eq (s : State) (q tag : BitVec 16) :
    s.markerPort q tag =
      (bestOf (fun x y => decide (x.1 < y.1))
        ((List.range 8).filterMap (fun n => ((s.passAt n).buf.foldl (syncWants q tag) none).map (fun a => (a, n))))).map (fun x => x.2) := rfl

/-- A marker that no port's SYNC waits for meets none. -/
theorem State.markerPort_none {s : State} {q tag : BitVec 16} (h : ∀ n, n < 8 → ∀ a, PassItem.sync tag true q a none ∉ (s.passAt n).buf) :
    s.markerPort q tag = none := by
  have hfound : (List.range 8).filterMap (fun n => ((s.passAt n).buf.foldl (syncWants q tag) none).map (fun a => (a, n))) = [] := by
    rw [List.filterMap_eq_nil_iff]
    intro n hn
    rw [syncWants_none (h n (List.mem_range.mp hn))]
    rfl
  rw [State.markerPort_eq, hfound]
  rfl

theorem exec_dbMark (master : BitVec 16) (data : Word) {s : State} (hr : s.running = true) :
    exec (.dbMark master data) s = .next (s.dbMarkWrite master (field data 0 16)) := by
  change execDbMark master data s = _
  simp [execDbMark, hr]

section
variable {s : State} {q tag : BitVec 16} (hn : s.markerPort q tag = none)
include hn

theorem State.dbMarkWrite_stored (hl : s.door.markers.length < 16) :
    s.dbMarkWrite q tag =
      s.modDoor (fun d => { d with markers := d.markers ++ [{ master := q, tag := tag, arrival := s.door.arrival }] }) := by
  simp only [State.dbMarkWrite, hn, hl, if_true]

theorem State.dbMarkWrite_evicts (hl : ¬s.door.markers.length < 16) :
    s.dbMarkWrite q tag =
      s.modDoor (fun d =>
        { d with
          markers := d.markers.drop 1 ++ [{ master := q, tag := tag, arrival := s.door.arrival }], err := setBit d.err 0xD true }) := by
  simp only [State.dbMarkWrite, hn, hl, if_false]

end

theorem bitAt_setBit_same {n : Nat} (x : BitVec n) {i : Nat} (hi : i < n) : bitAt (setBit x i true) i = true := by simp [setBit, hi]

/-- Settles O14: the write forms its record or is refused, and the marker is stored, in the oldest one's place where 16 stand. -/
theorem doorbellFormsOneRecord : Obligations.DoorbellFormsOneRecord := by
  intro master data tag s hrun hbuf
  have hexec := exec_doorbell master .full data tag hrun hbuf
  have hmark := exec_dbMark master data hrun
  refine ⟨fun l hq hz hl hv hi he => ?_, fun hq hz => ?_, fun hnone => ⟨fun hroom => ?_, fun hfull => ?_⟩⟩
  · rw [State.doorbellWrite_formed hbuf (doorFormat_formed hq hz) (State.portCheck_passed hl hv hi he)] at hexec
    exact ⟨_, s.doorRec master .full data s.cp.nextWid l.entry.devGen false, hexec, State.doorFormed_frame .., State.doorFormed_inqAt ..,
      fun k hk => State.doorFormed_inqAt_other _ _ _ _ _ hk, rfl, rfl, rfl, rfl, by rw [State.doorFormed_cp], by rw [State.doorFormed_cp]; rfl⟩
  · rw [State.doorbellWrite_refused hbuf (doorFormat_mbz hq hz), portUnit, State.doorRefuse_other] at hexec
    exact ⟨_, hexec, rfl, rfl, rfl, rfl, rfl, rfl, hbuf⟩
  · rw [State.dbMarkWrite_stored (State.markerPort_none hnone) hroom] at hmark
    exact ⟨_, hmark, rfl⟩
  · rw [State.dbMarkWrite_evicts (State.markerPort_none hnone) (by omega)] at hmark
    exact ⟨_, hmark, rfl, bitAt_setBit_same s.door.err (by decide), rfl⟩

end Sys2Proof.Machine
end

section
/-! SUPPORT. What stands when a belay's command ends (spec/05 R125 to R127, spec/06 R169): levels that follow, a refill that finds nothing spilled. -/

namespace Sys2Proof.Machine

/-! ### Levels that follow -/

/-- A pair without what `evalAll` computes afresh. -/
def Pair.unlevelled (p : Pair) : Pair := { p with level := 0, withheldNow := false, withheld := 0 }

theorem State.evalPair_unlevelled (s : State) (t n k : Nat) : ((s.evalPair t n).pairAt k).unlevelled = (s.pairAt k).unlevelled := by
  simp only [State.evalPair, State.updPair_pairAt]
  split
  next h => rw [h]; rfl
  next => rfl

theorem State.evalAll_unlevelled (s : State) (k : Nat) : (s.evalAll.pairAt k).unlevelled = (s.pairAt k).unlevelled :=
  foldList_keeps _ (fun s => (s.pairAt k).unlevelled)
    (fun _ s => foldBelow_keeps _ (fun s => (s.pairAt k).unlevelled) (fun _ s => State.evalPair_unlevelled s _ _ k) 4 s) _ s

theorem onlyLevels_evalAll (s : State) : onlyLevels s s.evalAll := by
  refine ⟨State.evalAll_frame s, fun k => ?_⟩
  have hlevels := congrArg (fun p : Pair =>
    { p with level := (s.evalAll.pairAt k).level, withheldNow := (s.evalAll.pairAt k).withheldNow, withheld := (s.evalAll.pairAt k).withheld })
    (State.evalAll_unlevelled s k)
  exact hlevels

theorem onlyLevels_respond (u : State) (rescue : Bool) (tag : BitVec 8) (err : BitVec 2) (data : Word) :
    onlyLevels { u with cp := (u.evalAll.respond rescue tag err data).cp } (u.evalAll.respond rescue tag err data) :=
  ⟨congrArg (fun v : State => { v with cp := (u.evalAll.respond rescue tag err data).cp }) (State.evalAll_frame u), (onlyLevels_evalAll u).2⟩

theorem State.evalAll_cp (s : State) : s.evalAll.cp = s.cp := State.evalAll_keeps State.cp (fun _ _ => rfl) s

/-! ### A refill that finds nothing -/

theorem snd_mem_of_mem_enumFrom {α : Type} {a : Nat × α} {i : Nat} {l : List α} (h : a ∈ enumFrom i l) : a.2 ∈ l := by
  induction l generalizing i with
  | nil => cases h
  | cons b bs ih =>
    rcases List.mem_cons.mp h with rfl | h
    · exact .head _
    · exact .tail _ (ih h)

/-- A target with nothing spilled has nothing to read back (spec/06 R169). -/
theorem State.pumpRefill_unspilled {s : State} {t : Nat} (h : ∀ x ∈ (s.tgtAt t).store, x.spilled = false) : s.pumpRefill t = s := by
  have hnone : (s.storeOf t).filter (fun a => a.2.spilled) = [] :=
    List.filter_eq_nil_iff.mpr (fun a ha => by simp [h a.2 (snd_mem_of_mem_enumFrom ha)])
  unfold State.pumpRefill
  simp only [hnone, bestOf, ite_self]

theorem State.after_unspilled {s : State} {t : Nat} (h : ∀ x ∈ (s.tgtAt t).store, x.spilled = false) : s.after t = s.evalAll := by
  rw [State.after, State.pumpRefill_unspilled h]

end Sys2Proof.Machine
end

section
/-! SUPPORT. What is moved lands with its spill mark set (spec/05 R130, spec/06 R168 to R170): a refutation. -/

namespace Sys2Proof.Machine

/-- What is on its way to target 0 with the mark of the spill pool. -/
def movedSpilled : Inst :=
  { origin := .handle { cls := 2, req := 77, evt := 3 }, serial := 13, more := [], level := false, prio := 9, payload := 0, vector := 3, replayed := false,
    counted := false, count := 0, target := 0, ring := 0, slot := none, input := 0, arrival := 0, landed := 0, settle := false, group := 0, due := false,
    spilled := true, openEntry := false, line := 0, refilled := false, moving := false, promoted := false, newPrio := none }

/-- A running block whose belay 0 holds that in its landing, every store empty and the spill pool without an open entry. -/
def spilledArrival : State :=
  { State.reset with
    pwr := { Power.reset with coldHeld := false, avail := true }, boot := { Boot.reset with fastReady := true },
    bel := [(0, { Belay.reset with landing := [{ pos := 0, item := .moved movedSpilled none }] })] }

/-- The belay places what was moved and at once takes it for a victim of the spill pool, which is full: nothing stays pending. -/
theorem exec_belayInsert_spilledArrival :
    ∃ t, exec (.belayInsert 0) spilledArrival = .next t ∧ (t.tgtAt 0).store = [] := ⟨_, rfl, by decide +kernel⟩

/-- Refutes O21: what is moved is placed with the spill mark it carries, which no hypothesis looks at (`roomy` speaks of what is in the store before), so that
the belay spills or discards it at once. -/
theorem not_landedRecordsInsertOrWithdraw : ¬ Obligations.LandedRecordsInsertOrWithdraw := by
  intro ⟨_, h⟩
  obtain ⟨t₀, hexec₀, hgone⟩ := exec_belayInsert_spilledArrival
  obtain ⟨_, hmoved, _⟩ := h 0 0 0 (.moved movedSpilled none) [] spilledArrival rfl (by decide) rfl rfl rfl
  obtain ⟨t, u, hexec, ⟨hlevels, _⟩, _, _, _, hplaced⟩ := hmoved movedSpilled rfl ⟨by decide, fun x hx => by cases hx⟩
  obtain ⟨_, hstore⟩ := hplaced (fun y hy => by cases hy)
  obtain rfl : t₀ = t := Host.Outcome.next.inj (hexec₀.symm.trans hexec)
  have hpending : (t₀.tgtAt 0).store = [{ movedSpilled with settle := true }] := by
    rw [hlevels]
    exact congrArg Target.store hstore
  rw [hgone] at hpending
  cases hpending

end Sys2Proof.Machine
end

section
/-! SUPPORT. Serials that retire and entries that leave a stack (spec/06 R162, R163, spec/13 R347). -/

namespace Sys2Proof.Machine

/-! ### Serials acknowledged -/

theorem State.ack_logAt_same (s : State) (serial : BitVec 32) : (s.ack serial).logAt serial.toNat = LogEntry.reset :=
  Tbl.get_erase_same _ s.log _

theorem State.ack_logAt_other (s : State) {serial : BitVec 32} {k : Nat} (h : serial.toNat ≠ k) : (s.ack serial).logAt k = s.logAt k :=
  Tbl.get_erase_other _ s.log h.symm

theorem State.ackAll_frame (s : State) (l : List (BitVec 32)) :
    s.ackAll l = { s with log := (s.ackAll l).log, mem := { s.mem with retained := (s.ackAll l).mem.retained } } := by
  induction l generalizing s with
  | nil => rfl
  | cons x xs ih => exact ih (s.ack x)

theorem State.ackAll_logAt_other {s : State} {l : List (BitVec 32)} {k : Nat} (h : ∀ x ∈ l, x.toNat ≠ k) : (s.ackAll l).logAt k = s.logAt k := by
  induction l generalizing s with
  | nil => rfl
  | cons x xs ih => exact (ih fun y hy => h y (.tail _ hy)).trans (State.ack_logAt_other s (h x (.head _)))

theorem State.ackAll_logAt_mem {s : State} {l : List (BitVec 32)} {x : BitVec 32} (h : x ∈ l) : (s.ackAll l).logAt x.toNat = LogEntry.reset := by
  induction l generalizing s with
  | nil => cases h
  | cons y ys ih =>
    by_cases hlater : ∃ z ∈ ys, z.toNat = x.toNat
    · obtain ⟨z, hz, hzx⟩ := hlater
      obtain rfl : z = x := BitVec.eq_of_toNat_eq hzx
      exact ih hz
    · have hkept : ((s.ack y).ackAll ys).logAt x.toNat = (s.ack y).logAt x.toNat := State.ackAll_logAt_other (by simpa using hlater)
      obtain rfl | hx := List.mem_cons.mp h
      · exact hkept.trans (State.ack_logAt_same s x)
      · exact absurd ⟨x, hx, rfl⟩ hlater

/-! ### Entries of edge messages -/

/-- An entry whose completion changes no source, link or group and is followed by no reassertion: of an ungrouped edge message (spec/06 R163). -/
def Active.isMessage (a : Active) : Prop := a.inst.origin.cls = 2 ∧ a.inst.level = false ∧ a.inst.group = 0

theorem State.completed_message (s : State) (t : Nat) {a : Active} (h : a.isMessage) :
    s.completed t a = (s.ackAll a.inst.serials).countBelay t (fun b => { b with completes := b.completes + 1 }) := by
  obtain ⟨hcls, hlevel, hgroup⟩ := h
  unfold State.completed
  cases ho : a.inst.origin with
  | doorbell v => simp [hgroup, ho]
  | handle h =>
    have hcls : h.cls = 2 := by simpa [ho, Origin.cls] using hcls
    simp [hgroup, ho, hcls, hlevel]

/-- What leaves pair `key` with stack `stack` and the serials `l` retired: nothing else moves but the belays' counts and the lines kept for the serials. -/
structure Retired (s u : State) (key : Nat) (stack : List Active) (l : List (BitVec 32)) : Prop where
  frame : u = { s with bel := u.bel, pair := u.pair, log := u.log, mem := { s.mem with retained := u.mem.retained } }
  pair  : u.pairAt key = { s.pairAt key with stack := stack }
  other : ∀ k, k ≠ key → u.pairAt k = s.pairAt k
  gone  : ∀ x ∈ l, u.logAt x.toNat = LogEntry.reset
  kept  : ∀ k, (∀ x ∈ l, x.toNat ≠ k) → u.logAt k = s.logAt k

theorem Retired.refl (s : State) (key : Nat) : Retired s s key (s.pairAt key).stack [] :=
  ⟨rfl, rfl, fun _ _ => rfl, fun _ h => absurd h List.not_mem_nil, fun _ _ => rfl⟩

theorem Retired.trans {s u v : State} {key : Nat} {st st' : List Active} {l l' : List (BitVec 32)} (h : Retired s u key st l)
    (g : Retired u v key st' l') : Retired s v key st' (l ++ l') where
  frame := by rw [g.frame, h.frame]
  pair := by rw [g.pair, h.pair]
  other k hk := (g.other k hk).trans (h.other k hk)
  gone x hx := by
    by_cases hlater : ∃ y ∈ l', y.toNat = x.toNat
    · obtain ⟨y, hy, hyx⟩ := hlater
      exact hyx ▸ g.gone y hy
    · rcases List.mem_append.mp hx with hx | hx
      · exact (g.kept _ (by simpa using hlater)).trans (h.gone x hx)
      · exact g.gone x hx
  kept k hk := (g.kept k fun x hx => hk x (List.mem_append_right l hx)).trans (h.kept k fun x hx => hk x (List.mem_append_left l' hx))

theorem Retired.tgtAt {s u : State} {key : Nat} {st : List Active} {l : List (BitVec 32)} (h : Retired s u key st l) (k : Nat) :
    u.tgtAt k = s.tgtAt k := by rw [h.frame]; rfl

/-- The state after the first entry that satisfies `p` has left its stack. -/
def State.popped (s : State) (key : Nat) (p : Active → Bool) : State := s.updPair key (fun q => { q with stack := dropFirst p q.stack })

theorem State.popped_pairAt_same (s : State) (key : Nat) (p : Active → Bool) :
    (s.popped key p).pairAt key = { s.pairAt key with stack := dropFirst p (s.pairAt key).stack } := State.updPair_pairAt_same s key _

theorem State.popped_pairAt_other (s : State) {key k : Nat} (p : Active → Bool) (h : k ≠ key) : (s.popped key p).pairAt k = s.pairAt k :=
  State.updPair_pairAt_other s key _ h

section
variable {s : State} {t n : Nat} {p : Active → Bool} {a : Active} (hfind : (s.pairAt (4 * t + n)).stack.find? p = some a) (hm : a.isMessage)
include hfind hm

theorem State.completeFirst_message :
    s.completeFirst t n p =
      ((s.popped (4 * t + n) p).ackAll a.inst.serials).countBelay t (fun b => { b with completes := b.completes + 1 }) := by
  unfold State.completeFirst
  rw [hfind]
  exact State.completed_message _ t hm

theorem State.completeFirst_retired :
    Retired s (s.completeFirst t n p) (4 * t + n) (dropFirst p (s.pairAt (4 * t + n)).stack) a.inst.serials := by
  rw [State.completeFirst_message hfind hm, State.ackAll_frame]
  exact {
    frame := rfl
    pair := s.popped_pairAt_same _ p
    other := fun k hk => s.popped_pairAt_other p hk
    gone := fun x hx => State.ackAll_logAt_mem (s := s.popped _ p) hx
    kept := fun k hk => State.ackAll_logAt_other (s := s.popped _ p) hk }

theorem State.completeFirst_belAt {c : Nat} (hserve : s.servingBelay t = some c) :
    (s.completeFirst t n p).belAt c = { s.belAt c with completes := (s.belAt c).completes + 1 } := by
  have hsame : ((s.popped (4 * t + n) p).ackAll a.inst.serials).servingBelay t = some c := by
    rw [State.ackAll_frame]
    exact hserve
  rw [State.completeFirst_message hfind hm, State.countBelay, hsame, Option.getD_some, State.updBel_belAt_same, State.ackAll_frame]
  rfl

end

/-- A stack of edge messages of a physical frame, completed from the top down, is empty, and every serial it held has retired (spec/06 R167). -/
theorem State.unwindAll_retired {s : State} {t n : Nat} {stack : List Active} (hstack : (s.pairAt (4 * t + n)).stack = stack)
    (h : ∀ a ∈ stack, a.inst.slot = none ∧ a.isMessage) :
    Retired s (s.unwindAll t n none stack.length) (4 * t + n) [] (stack.flatMap fun a => a.inst.serials) := by
  induction stack generalizing s with
  | nil =>
    have hnone := Retired.refl s (4 * t + n)
    rwa [hstack] at hnone
  | cons a rest ih =>
    obtain ⟨hslot, hm⟩ := h a (.head _)
    have hfind : (s.pairAt (4 * t + n)).stack.find? (fun b => b.inst.slot == none) = some a := by simp [hstack, hslot]
    have hpop : dropFirst (fun b : Active => b.inst.slot == none) (s.pairAt (4 * t + n)).stack = rest := by simp [hstack, dropFirst, hslot]
    have hfirst := State.completeFirst_retired hfind hm
    rw [hpop] at hfirst
    exact hfirst.trans (ih (congrArg Pair.stack hfirst.pair) fun b hb => h b (.tail _ hb))

/-! ### Strays -/

theorem satInc_of_ne {w : Nat} {x : BitVec w} (h : x ≠ BitVec.allOnes w) : satInc x = x + 1 := by
  have hmax : x.toNat ≠ 2 ^ w - 1 := fun hx => h (BitVec.eq_of_toNat_eq (by rw [hx, BitVec.toNat_allOnes]))
  have hroom : x.toNat + 1 < 2 ^ w := by have := x.isLt; omega
  rw [satInc, satAdd, if_pos hroom, BitVec.ofNat_add, BitVec.ofNat_toNat, BitVec.setWidth_eq]
  rfl

/-- A stray that does not bring its frame's count to the limit moves that count and STRAY_LAST, and raises no report (spec/06 R164). -/
theorem State.stray_counted {s : State} {t n : Nat} {tag : Option (BitVec 11)} (w : Option Word)
    (hlimit : (s.frameAt (frameKey t n tag)).strayCount + 1 ≠ (s.frameAt (frameKey t n tag)).strayLimit.setWidth 32)
    (hmax : (s.frameAt (frameKey t n tag)).strayCount ≠ 0xFFFFFFFF) :
    s.stray t n tag w = { s with frame := (s.stray t n tag w).frame } ∧
      (s.stray t n tag w).frameAt (frameKey t n tag) =
        { s.frameAt (frameKey t n tag) with
          strayCount := (s.frameAt (frameKey t n tag)).strayCount + 1, strayLast := w.getD (s.frameAt (frameKey t n tag)).strayLast } ∧
      ∀ k, k ≠ frameKey t n tag → (s.stray t n tag w).frameAt k = s.frameAt k := by
  have hinc : satInc (s.frameAt (frameKey t n tag)).strayCount = (s.frameAt (frameKey t n tag)).strayCount + 1 := satInc_of_ne hmax
  have hstray : s.stray t n tag w =
      s.updFrame (frameKey t n tag) (fun f => { f with strayCount := satInc f.strayCount, strayLast := w.getD f.strayLast }) := by
    have hbelow := beq_eq_false_iff_ne.mpr hlimit
    simp only [State.stray, State.updFrame_frameAt_same, hinc, hbelow, Bool.and_false, Bool.false_eq_true, if_false]
  rw [hstray, State.updFrame_frameAt_same, hinc]
  exact ⟨rfl, rfl, fun k hk => State.updFrame_frameAt_other s _ _ hk⟩

end Sys2Proof.Machine
end

section
/-! SUPPORT. COMPLETE and UNWIND of a physical frame (spec/06 R161 to R164, R167). -/

namespace Sys2Proof.Machine

section
variable (T : Fin 512) (n : Fin 4) {c : Nat} {s : State} (hr : s.running = true) (hserve : s.servingBelay T.val = some c)
include hr hserve

theorem exec_complete_phys (wide : Bool) (data : Word) :
    exec (.complete (.phys T n) wide data) s =
      .next (s.completeAt T.val n.val none (if wide then data else (s.frameAt (4 * T.val + n.val)).stage ++ field data 0 32)) := by
  change execComplete (.phys T n) wide data s = _
  simp only [execComplete, hr, State.completeWrite, State.frameOf, hserve, Option.isNone_some, Bool.false_eq_true, if_true, if_false, ok]
  rfl

theorem exec_unwind_phys {data : Word} (hbit : bitAt data 0 = true) :
    exec (.unwind (.phys T n) data) s = .next (s.unwindAt T.val n.val none) := by
  change execUnwind (.phys T n) data s = _
  simp only [execUnwind, hr, State.unwindWrite, State.frameOf, hserve, Option.isSome_some, hbit, Bool.and_self, if_true, ok]

end

theorem State.completeAt_named {s : State} {t n : Nat} {tag : Option (BitVec 11)} {w : Word} {a : Active}
    (h : (s.pairAt (4 * t + n)).stack.find? (Active.matches tag w) = some a) :
    s.completeAt t n tag w = (s.completeFirst t n (Active.matches tag w)).after t :=
  if_pos (List.any_eq_true.mpr ⟨a, List.mem_of_find?_eq_some h, List.find?_some h⟩)

theorem State.completeAt_unnamed {s : State} {t n : Nat} {tag : Option (BitVec 11)} {w : Word}
    (h : ∀ a ∈ (s.pairAt (4 * t + n)).stack, Active.matches tag w a = false) : s.completeAt t n tag w = s.stray t n tag (some w) :=
  if_neg (by simpa using h)

theorem State.unwindAt_absent {s : State} {t : Nat} (h : (s.tgtAt t).present = false) (n : Nat) :
    s.unwindAt t n none = (s.unwindAll t n none (s.pairAt (4 * t + n)).stack.length).after t := by
  simp [State.unwindAt, h]

theorem State.unwindAt_present {s : State} {t : Nat} (h : (s.tgtAt t).present = true) (n : Nat) : s.unwindAt t n none = s.stray t n none none := by
  simp [State.unwindAt, h]

/-- Settles O25: the entry named leaves the stack and its serial retires, or the write is one stray; UNWIND takes the stack entry by entry. -/
theorem completionsRetireOrAreStray : Obligations.CompletionsRetireOrAreStray := by
  refine ⟨fun T n wide data s hr hserve => ?_, fun T n data s hr hserve hbit => ?_⟩
  · have hexec := exec_complete_phys T n hr hserve wide data
    refine ⟨fun a h hfind ho hcls hlevel hgroup hmore hroom => ?_, fun hnone hlimit hmax => ?_⟩
    · have hm : a.isMessage := ⟨by rw [ho]; exact hcls, hlevel, hgroup⟩
      have hret := State.completeFirst_retired (p := Active.matches none _) hfind hm
      have hserials : a.inst.serials = [a.inst.serial] := by rw [Inst.serials, hmore]
      rw [State.completeAt_named hfind, State.after_unspilled (hret.tgtAt T.val ▸ hroom.2)] at hexec
      exact ⟨_, _, hexec, onlyLevels_evalAll _, hret.frame, hret.pair, hret.other, State.completeFirst_belAt hfind hm hserve,
        hret.gone _ (by simp [hserials]), fun k hk => hret.kept k (by simpa [hserials] using hk.symm)⟩
    · rw [State.completeAt_unnamed hnone] at hexec
      exact ⟨_, hexec, State.stray_counted (tag := none) _ hlimit hmax⟩
  · have hexec := exec_unwind_phys T n hr hserve hbit
    refine ⟨fun habsent hroom hall => ?_, fun hpresent hlimit hmax => ?_⟩
    · have hret := State.unwindAll_retired rfl hall
      rw [State.unwindAt_absent habsent, State.after_unspilled (hret.tgtAt T.val ▸ hroom.2)] at hexec
      exact ⟨_, _, hexec, onlyLevels_evalAll _, hret.frame, hret.pair, hret.other,
        fun a ha x hx => hret.gone x (List.mem_flatMap.mpr ⟨a, ha, hx⟩),
        fun k hk => hret.kept k fun x hx => (List.mem_flatMap.mp hx).elim fun a ha => hk a ha.1 x ha.2⟩
    · rw [State.unwindAt_present hpresent] at hexec
      exact ⟨_, hexec, State.stray_counted (tag := none) none hlimit hmax⟩

end Sys2Proof.Machine
end

section
/-! SUPPORT. What the memory port, the rations and the links move stays beside a belay's own tables (spec/12 R306 to R329, spec/09 R218 to R245). -/

namespace Sys2Proof.Machine

/-- Nothing differs but what the memory port, the rations, the arbiters, the links and the partnership hold. -/
def State.outward (s t : State) : Prop :=
  t = { s with mem := t.mem, rat := t.rat, arb := t.arb, links := t.links, lanes := t.lanes, partner := t.partner }

theorem State.outward_refl (s : State) : s.outward s := rfl

theorem State.outward.trans {s t u : State} (h : s.outward t) (g : t.outward u) : s.outward u := by
  unfold State.outward at g h ⊢
  rw [g, h]

section
variable {s t : State} (h : s.outward t)
include h

theorem State.outward.updQuota (act scope unit : Nat) (f : Quota → Quota) : s.outward (t.updQuota act scope unit f) := h.trans rfl
theorem State.outward.updArb (k : Nat) (f : ArbReq → ArbReq) : s.outward (t.updArb k f) := h.trans rfl
theorem State.outward.modMem (f : Mem → Mem) : s.outward (t.modMem f) := h.trans rfl
theorem State.outward.updLink (k : Nat) (f : Link → Link) : s.outward (t.updLink k f) := h.trans rfl
theorem State.outward.modPartner (f : Partner → Partner) : s.outward (t.modPartner f) := h.trans rfl

end

section
variable {s u : State} (h : s.outward u)
include h

theorem State.outward.tgtAt (k : Nat) : u.tgtAt k = s.tgtAt k := by rw [h]; rfl
theorem State.outward.pairAt (k : Nat) : u.pairAt k = s.pairAt k := by rw [h]; rfl
theorem State.outward.frameAt (k : Nat) : u.frameAt k = s.frameAt k := by rw [h]; rfl
theorem State.outward.belAt (k : Nat) : u.belAt k = s.belAt k := by rw [h]; rfl
theorem State.outward.srcAt (k : Nat) : u.srcAt k = s.srcAt k := by rw [h]; rfl
theorem State.outward.grpAt (k : Nat) : u.grpAt k = s.grpAt k := by rw [h]; rfl
theorem State.outward.grp : u.grp = s.grp := by rw [h]
theorem State.outward.cp : u.cp = s.cp := by rw [h]

end

theorem foldList_outward {α : Type} {f : α → State → State} (hf : ∀ (a : α) (s : State), s.outward (f a s)) (l : List α) (s : State) :
    s.outward (foldList f l s) := by
  induction l generalizing s with
  | nil => exact s.outward_refl
  | cons a as ih => exact (hf a s).trans (ih (f a s))

/-! ### The memory port -/

theorem State.charge_outward (s : State) (act scope unit : Nat) : s.outward (s.charge act scope unit) := by
  rw [State.charge_frame]
  rfl

theorem State.exhaust_outward (s : State) (act scope unit : Nat) : s.outward (s.exhaust act scope unit) := by
  unfold State.exhaust
  split <;> rfl

theorem State.spend_outward (s : State) (act scope unit : Nat) : s.outward (s.spend act scope unit).2 := by
  have hsettled : s.outward (s.settleQuota act scope unit) := s.outward_refl.updQuota _ _ _ _
  unfold State.spend
  dsimp only
  split
  · exact hsettled.updQuota _ _ _ _
  · split
    · dsimp only
      split
      · exact (hsettled.updQuota _ _ _ _).trans (State.exhaust_outward _ _ _ _)
      · exact hsettled.updQuota _ _ _ _
    · exact (hsettled.updQuota _ _ _ _).trans (State.exhaust_outward _ _ _ _)

theorem State.enterReq_outward (s : State) (r : MemReq) : s.outward (s.enterReq r) := by
  have htaken : s.outward (if r.above then (false, s.spendAbove r.act r.scope r.unit) else s.spend r.act r.scope r.unit).2 := by
    split
    · exact (s.outward_refl.updQuota _ _ _ _).updQuota _ _ _ _
    · exact State.spend_outward s _ _ _
  have hlost := fun lost => htaken.trans (foldList_outward (f := fun (q : MemReq) s =>
    s.updArb (100 + s.serverOf q.unit) (fun a => { a.waitOne with losses := a.losses + 1 })) (fun _ t => t.outward_refl.updArb _ _) lost _)
  unfold State.enterReq
  dsimp only
  split
  · exact ((hlost _).updArb _ _).modMem _
  · exact (hlost _).modMem _

theorem State.enterAll_outward (s : State) (n : Nat) : s.outward (s.enterAll n) := by
  induction n generalizing s with
  | zero => exact s.outward_refl
  | succ n ih =>
    unfold State.enterAll
    split
    · exact (State.enterReq_outward s _).trans (ih _)
    · exact s.outward_refl

theorem State.sendReq_outward (s : State) (r : MemReq) (i : BitVec 8) : s.outward (s.sendReq r i) := by
  unfold State.sendReq
  exact ((foldList_outward (fun _ t => t.outward_refl.updArb _ _) _ s).updArb _ _).modMem _

theorem State.pumpMem_outward (s : State) (n : Nat) : s.outward (s.pumpMem n) := by
  induction n generalizing s with
  | zero => exact s.outward_refl
  | succ n ih =>
    have henter := State.enterAll_outward s s.mem.waits.length
    unfold State.pumpMem
    dsimp only
    split
    · split
      · exact henter.trans ((State.sendReq_outward _ _ _).trans (ih _))
      · exact henter
    · exact henter

theorem State.memRead_outward (s : State) (o : MemOwner) (addr : BitVec 47) : s.outward (s.memRead o addr) :=
  (s.outward_refl.modMem _).trans (State.pumpMem_outward _ _)

theorem State.readBack_outward (s : State) (w o : MemOwner) (addr : BitVec 47) : s.outward (s.readBack w o addr) := by
  unfold State.readBack
  split
  · exact s.outward_refl.modMem _
  · exact State.memRead_outward s o addr

theorem State.pumpRefill_outward (s : State) (t : Nat) : s.outward (s.pumpRefill t) := by
  unfold State.pumpRefill
  dsimp only
  split
  · split
    · exact s.outward_refl
    · exact (State.charge_outward s _ _ _).trans (State.readBack_outward _ _ _ _)
  · exact s.outward_refl

/-! ### The links -/

theorem State.updLane_outward (s : State) (n : Nat) (f : Lane → Lane) : s.outward (s.updLane n f) := rfl

theorem State.sendFlit_outward (s : State) (k : Nat) (f : BitVec 256) : s.outward (s.sendFlit k f) :=
  (s.outward_refl.updLink k _).trans (foldList_outward (fun _ t => t.updLane_outward _ _) _ _)

theorem State.sendSeq_outward (s : State) (k : Nat) (b : BitVec 224) : s.outward (s.sendSeq k b) := (State.sendFlit_outward s k _).updLink k _

theorem State.closeBurst_outward (s : State) (k : Nat) : s.outward (s.closeBurst k) := by
  unfold State.closeBurst
  dsimp only
  split
  · exact s.outward_refl
  · exact (State.sendSeq_outward s k _).updLink k _

theorem State.sendEntries_outward (s : State) (k : Nat) (e0 e1 : BitVec 96) : s.outward (s.sendEntries k e0 e1) := by
  unfold State.sendEntries
  dsimp only
  split
  · split
    · exact ((State.sendSeq_outward s k _).updLink k _).trans (State.closeBurst_outward _ k)
    · exact (State.sendSeq_outward s k _).updLink k _
  · exact State.sendSeq_outward s k _

theorem State.pumpLink_outward (s : State) (k n : Nat) : s.outward (s.pumpLink k n) := by
  induction n generalizing s with
  | zero => exact s.outward_refl
  | succ n ih =>
    unfold State.pumpLink
    dsimp only
    split
    · split
      · exact (State.closeBurst_outward s k).trans (ih _)
      · split
        · exact s.outward_refl
        · exact (s.outward_refl.updLink k _).trans (State.sendEntries_outward _ k _ _)
        · exact (s.outward_refl.updLink k _).trans ((State.sendEntries_outward _ k _ _).trans (ih _))
    · exact s.outward_refl

theorem State.queueEntry_outward (s : State) (k : Nat) (e : BitVec 96) : s.outward (s.queueEntry k e) :=
  (s.outward_refl.updLink k _).trans (State.pumpLink_outward _ _ _)

theorem State.pumpNotices_outward (s : State) (k n : Nat) : s.outward (s.pumpNotices k n) := by
  induction n generalizing s with
  | zero => exact s.outward_refl
  | succ n ih =>
    unfold State.pumpNotices
    split
    · exact s.outward_refl
    · split
      · exact (((s.outward_refl.modPartner _).updLink k _).trans (State.queueEntry_outward _ k _)).trans (ih _)
      · split
        · exact (((s.outward_refl.modPartner _).updLink k _).trans (State.queueEntry_outward _ k _)).trans (ih _)
        · exact s.outward_refl

theorem State.notice_outward (s : State) (pair src : Nat) (e : BitVec 96) : s.outward (s.notice pair src e) := by
  unfold State.notice
  split
  · exact s.outward_refl
  · split
    · exact s.outward_refl
    · exact (s.outward_refl.modPartner _).trans (State.pumpNotices_outward _ _ _)

theorem State.claimNoticed_outward (s : State) (x : Inst) : s.outward (s.claimNoticed x).2 := by
  unfold State.claimNoticed
  split
  · exact s.outward_refl
  · split
    · exact s.outward_refl
    · split
      · exact State.notice_outward s _ _ _
      · exact s.outward_refl

/-- Only a remote source has its claim noticed (spec/09 R239). -/
theorem State.claimNoticed_local (s : State) {x : Inst} (h : x.origin.cls ≠ 3) : s.claimNoticed x = (false, s) := by
  unfold State.claimNoticed
  split
  · rfl
  next g ho =>
    have hcls : (g.cls == 3) = false := by simpa [ho, Origin.cls] using h
    simp only [hcls, Bool.false_eq_true, if_false]

end Sys2Proof.Machine
end

section
/-! SUPPORT. The claim word's fields (spec/06 R153), and what a CLAIM picks (spec/05 R126, spec/06 R155). -/

namespace Sys2Proof.Machine

/-! ### The claim word -/

/-- A claim word by its fields, from bit 62 down (spec/06 R153). -/
def wordOf (replayed many : Bool) (cls : BitVec 2) (prio : BitVec 8) (data : BitVec 16) (link : BitVec 8) (vector : BitVec 24) : Word :=
  (1#1 : BitVec 1) ++ bit replayed ++ bit many ++ cls ++ (0#3 : BitVec 3) ++ prio ++ data ++ link ++ vector

theorem Inst.word_eq_wordOf (x : Inst) :
    ∃ link, x.word = wordOf x.replayed (x.counted && decide (2 ≤ x.count.toNat)) x.origin.cls x.prio
      (if x.counted && decide (2 ≤ x.count.toNat) then x.count else x.payload) link x.vector := ⟨_, rfl⟩

section
variable (replayed many : Bool) (cls : BitVec 2) (prio : BitVec 8) (data : BitVec 16) (link : BitVec 8) (vector : BitVec 24)

theorem wordOf_fields :
    bitAt (wordOf replayed many cls prio data link vector) 63 = true ∧ bitAt (wordOf replayed many cls prio data link vector) 62 = replayed ∧
    bitAt (wordOf replayed many cls prio data link vector) 61 = many ∧ field (wordOf replayed many cls prio data link vector) 59 2 = cls ∧
    field (wordOf replayed many cls prio data link vector) 56 3 = (0 : BitVec 3) ∧
    field (wordOf replayed many cls prio data link vector) 48 8 = prio ∧ field (wordOf replayed many cls prio data link vector) 32 16 = data ∧
    field (wordOf replayed many cls prio data link vector) 0 24 = vector := by
  unfold wordOf
  refine ⟨?_, ?_, ?_, ?_, ?_, ?_, ?_, ?_⟩
  iterate 3
    · simp only [BitVec.getLsbD_append]
      simp
  iterate 5
    · simp (disch := decide) only [BitVec.extractLsb'_append_eq_of_le, BitVec.extractLsb'_append_eq_of_add_le, Nat.reduceSub]
      simp

end

/-! ### The best of a list -/

theorem bestOf_mem {α : Type} {better : α → α → Bool} {l : List α} {b : α} (h : bestOf better l = some b) : b ∈ l := by
  induction l generalizing b with
  | nil => cases h
  | cons a as ih =>
    unfold bestOf at h
    split at h
    · cases h
      exact .head _
    next c hc =>
      split at h <;> cases h
      · exact .tail _ (ih hc)
      · exact .head _

theorem bestOf_eq_none {α : Type} {better : α → α → Bool} {l : List α} (h : bestOf better l = none) : l = [] := by
  cases l with
  | nil => rfl
  | cons a as =>
    unfold bestOf at h
    split at h
    · cases h
    · split at h <;> cases h

/-- The element that is better than all others, and than which none is better, is the best. -/
theorem bestOf_eq_some {α : Type} {better : α → α → Bool} {l : List α} {m : α} (hm : m ∈ l)
    (hbest : ∀ a ∈ l, a ≠ m → better m a = true ∧ better a m = false) : bestOf better l = some m := by
  induction l with
  | nil => cases hm
  | cons b bs ih =>
    have ih := fun h => ih h fun a ha => hbest a (.tail _ ha)
    unfold bestOf
    split
    next hnone =>
      obtain rfl := bestOf_eq_none hnone
      rw [List.mem_singleton.mp hm]
    next c hc =>
      by_cases hb : b = m
      · subst hb
        by_cases hcb : c = b
        · rw [hcb, ite_self]
        · rw [if_neg (by simp [(hbest c (.tail _ (bestOf_mem hc)) hcb).2])]
      · have hin : m ∈ bs := (List.mem_cons.mp hm).resolve_left (Ne.symm hb)
        obtain rfl : c = m := Option.some.inj (hc.symm.trans (ih hin))
        rw [if_pos (hbest b (.head _) hb).1]

theorem rankAbove_asymm {a b : Nat × Inst} (h : rankAbove a b = true) : rankAbove b a = false := by
  simp only [rankAbove, Bool.or_eq_true, Bool.and_eq_true, decide_eq_true_eq, beq_iff_eq, Bool.or_eq_false_iff, Bool.and_eq_false_iff,
    decide_eq_false_iff_not, beq_eq_false_iff_ne] at h ⊢
  omega

/-! ### The pick -/

/-- What a CLAIM asks of an element of the store. -/
def State.mayClaim (s : State) (t n : Nat) (tag : Option (BitVec 11)) (a : Nat × Inst) : Bool :=
  inFrame n tag a && !s.held (s.storeOf t) a && decide (((s.pairAt (4 * t + n)).prioOf tag).toNat < a.2.prio.toNat) &&
    !(match a.2.origin with | .handle h => s.withdrawing h | .doorbell _ => false)

section
variable {s : State} {t n : Nat} {tag : Option (BitVec 11)}

theorem claimable_iff (a : Nat × Inst) : claimable s t n tag a ↔ a ∈ (s.storeOf t).filter (s.mayClaim t n tag) := by
  rw [List.mem_filter]
  unfold claimable State.mayClaim inFrame
  cases a.2.origin <;> simp [and_assoc]

theorem State.claimPick_room (h : (s.pairAt (4 * t + n)).stack.length < 16) :
    s.claimPick t n tag = (topRank ((s.storeOf t).filter (s.mayClaim t n tag))).map (fun a => a.2) := if_neg (by omega)

theorem State.claimPick_best {i : Nat} {x : Inst} (h : (s.pairAt (4 * t + n)).stack.length < 16) (hx : claimable s t n tag (i, x))
    (hbest : ∀ a, claimable s t n tag a → a ≠ (i, x) → rankAbove (i, x) a = true) : s.claimPick t n tag = some x := by
  have htop : topRank ((s.storeOf t).filter (s.mayClaim t n tag)) = some (i, x) :=
    bestOf_eq_some ((claimable_iff _).mp hx) fun a ha hne =>
      have hrank := hbest a ((claimable_iff a).mpr ha) hne
      ⟨hrank, rankAbove_asymm hrank⟩
  rw [State.claimPick_room h, htop]
  rfl

theorem State.claimPick_none (h : 16 ≤ (s.pairAt (4 * t + n)).stack.length ∨ ∀ a, ¬claimable s t n tag a) : s.claimPick t n tag = none := by
  by_cases hfull : 16 ≤ (s.pairAt (4 * t + n)).stack.length
  · exact if_pos hfull
  · have hempty : (s.storeOf t).filter (s.mayClaim t n tag) = [] :=
      List.eq_nil_iff_forall_not_mem.mpr fun a ha => h.resolve_left hfull a ((claimable_iff a).mpr ha)
    rw [State.claimPick_room (by omega), hempty]
    rfl

end

end Sys2Proof.Machine
end

section
/-! SUPPORT. What a CLAIM leaves (spec/06 R154 to R157, spec/07 R180, spec/08 R195). -/

namespace Sys2Proof.Machine

/-- A group whose P is claimed (spec/07 R180). -/
def Group.claimed (g : Group) : Group := { g with pending := false, due := false, spilled := false, active := true }

/-- The groups after a claim. -/
def Inst.groupsClaimed (x : Inst) (g : Tbl Group) : Tbl Group := if x.group != 0 then Tbl.upd Group.reset g x.group.toNat Group.claimed else g

/-- The wired sources after a claim (spec/02 R39). -/
def Inst.sourcesClaimed (x : Inst) (l : Tbl Source) : Tbl Source :=
  match x.origin with
  | .handle h => if h.cls == 0 || h.cls == 1 then Tbl.upd Source.reset l (handleSrc h) Source.claimed else l
  | .doorbell _ => l

/-- The entry that a claim puts on the stack. -/
def Inst.entered (x : Inst) (notices : Bool) : Active :=
  { inst := x, word := x.word, asserted := x.level && x.origin.cls == 2, recorded := none, marked := false, notices := notices }

/-- The pair of a claim: its entry is on top of the stack (spec/06 R154). -/
def Inst.pushed (x : Inst) (notices : Bool) (p : Pair) : Pair := { p with stack := x.entered notices :: p.stack }

/-- The target of a claim: what was taken has left the store. -/
def Inst.gone (x : Inst) (t : Target) : Target := { t with store := dropFirst (fun y => y.serial == x.serial) t.store }

/-- The frame of a claim: the shadow has the word's high half (spec/06 R157), CLAIM_TIME is `time` (R172). -/
def Inst.shown (x : Inst) (time : Word) (f : Frame) : Frame := { f with shadow := field x.word 32 32, claimTime := time }

/-- The belay of a claim (spec/06 R173). -/
def Belay.claimCounted (b : Belay) : Belay := { b with claims := b.claims + 1 }

/-- What a claim makes of each of the tables it touches. -/
def State.claimed (s : State) (t n : Nat) (tag : Option (BitVec 11)) (x : Inst) (notices : Bool) : State :=
  { s with
    tgt := (s.updTgt t x.gone).tgt
    pair := (s.updPair (4 * t + n) (x.pushed notices)).pair
    grp := x.groupsClaimed s.grp
    wired := { s.wired with src := x.sourcesClaimed s.wired.src }
    frame := (s.updFrame (frameKey t n tag) (x.shown (s.claimTimeOf x))).frame
    bel := (s.countBelay t Belay.claimCounted).bel }

/-- The group of a claim marked. -/
def State.markGroup (s : State) (x : Inst) : State :=
  if x.group != 0 then s.updGrp x.group.toNat Group.claimed else s

/-- The wired source of a claim marked. -/
def State.markSource (s : State) (x : Inst) : State :=
  match x.origin with
  | .handle h => if h.cls == 0 || h.cls == 1 then s.wiredClaim (handleSrc h) else s
  | .doorbell _ => s

/-- The marks that a claim sets, in the model's order. -/
def State.marked (s : State) (t n : Nat) (tag : Option (BitVec 11)) (x : Inst) (notices : Bool) : State :=
  let v := (((s.dropInst t x.serial).updPair (4 * t + n) (x.pushed notices)).markGroup x).markSource x
  (v.updFrame (frameKey t n tag) (x.shown (v.claimTimeOf x))).countBelay t Belay.claimCounted

section
variable (s : State) (t n : Nat) (tag : Option (BitVec 11)) (x : Inst)

theorem State.markGroup_eq : s.markGroup x = { s with grp := x.groupsClaimed s.grp } := by
  unfold State.markGroup Inst.groupsClaimed
  split <;> rfl

theorem State.markSource_eq : s.markSource x = { s with wired := { s.wired with src := x.sourcesClaimed s.wired.src } } := by
  unfold State.markSource Inst.sourcesClaimed
  cases x.origin with
  | doorbell v => rfl
  | handle h => cases hc : (h.cls == 0 || h.cls == 1) <;> simp only [hc] <;> rfl

theorem State.claimTimeOf_clk {s u : State} (h : u.clk = s.clk) : u.claimTimeOf x = s.claimTimeOf x := by
  unfold State.claimTimeOf State.now48
  rw [h]

theorem State.servingBelay_bel {s u : State} (h : u.bel = s.bel) : u.servingBelay t = s.servingBelay t := by
  unfold State.servingBelay State.belAt
  rw [h]

theorem State.marked_eq (notices : Bool) : s.marked t n tag x notices = s.claimed t n tag x notices := by
  unfold State.marked
  rw [State.markGroup_eq, State.markSource_eq]
  dsimp only
  rw [State.claimTimeOf_clk x (s := s), State.countBelay, State.servingBelay_bel t (s := s)]
  · dsimp only [State.dropInst, State.updStore, State.updTgt, State.updPair, State.updFrame, State.updBel, State.claimed, State.countBelay]
    rfl
  · rfl
  · rfl

theorem State.take_eq : s.take t n tag x = ((s.claimNoticed x).2.claimed t n tag x (s.claimNoticed x).1).after t := by
  rw [← State.marked_eq]
  rfl

theorem State.claimed_outward {s v : State} (h : s.outward v) (notices : Bool) :
    (s.claimed t n tag x notices).outward (v.claimed t n tag x notices) := by
  unfold State.outward at h ⊢
  rw [h]
  rfl

end

end Sys2Proof.Machine
end

section
/-! SUPPORT. A CLAIM of a frame, from the read to its response (spec/05 R126, spec/06 R153 to R157, spec/08 R195). -/

namespace Sys2Proof.Machine

/-! ### The tables after a claim -/

section
variable (s : State) (t n : Nat) (tag : Option (BitVec 11)) (x : Inst) (notices : Bool)

theorem State.claimed_tgtAt :
    (s.claimed t n tag x notices).tgtAt t = { s.tgtAt t with store := dropFirst (fun y => y.serial == x.serial) (s.tgtAt t).store } :=
  State.updTgt_tgtAt_same s t x.gone

theorem State.claimed_pairAt :
    (s.claimed t n tag x notices).pairAt (4 * t + n) =
      { s.pairAt (4 * t + n) with stack := x.entered notices :: (s.pairAt (4 * t + n)).stack } := State.updPair_pairAt_same s _ (x.pushed notices)

theorem State.claimed_pairAt_other {k : Nat} (h : k ≠ 4 * t + n) : (s.claimed t n tag x notices).pairAt k = s.pairAt k :=
  State.updPair_pairAt_other s _ (x.pushed notices) h

theorem State.claimed_shadow : ((s.claimed t n tag x notices).frameAt (frameKey t n tag)).shadow = field x.word 32 32 :=
  congrArg Frame.shadow (State.updFrame_frameAt_same s (frameKey t n tag) (x.shown (s.claimTimeOf x)))

theorem State.claimed_frameAt_other {k : Nat} (h : k ≠ frameKey t n tag) : (s.claimed t n tag x notices).frameAt k = s.frameAt k :=
  State.updFrame_frameAt_other s _ (x.shown (s.claimTimeOf x)) h

theorem State.claimed_belAt {c : Nat} (hserve : s.servingBelay t = some c) :
    (s.claimed t n tag x notices).belAt c = { s.belAt c with claims := (s.belAt c).claims + 1 } := by
  change (s.countBelay t Belay.claimCounted).belAt c = (s.belAt c).claimCounted
  rw [State.countBelay, hserve, Option.getD_some, State.updBel_belAt_same]

theorem State.claimed_srcAt {h : Handle} (ho : x.origin = .handle h) (hcls : h.cls = 0 ∨ h.cls = 1) :
    (s.claimed t n tag x notices).srcAt (handleSrc h) = (s.srcAt (handleSrc h)).claimed ∧
      ∀ k, k ≠ handleSrc h → (s.claimed t n tag x notices).srcAt k = s.srcAt k := by
  have hwired : (h.cls == 0 || h.cls == 1) = true := by simpa using hcls
  have hsrc : x.sourcesClaimed s.wired.src = Tbl.upd Source.reset s.wired.src (handleSrc h) Source.claimed := by
    simp only [Inst.sourcesClaimed, ho, hwired, if_true]
  unfold State.srcAt State.claimed
  rw [hsrc]
  exact ⟨Tbl.get_upd_same _ _ _ _, fun k hk => Tbl.get_upd_other _ _ _ hk⟩

theorem State.claimed_grpAt (h : x.group ≠ 0) :
    (s.claimed t n tag x notices).grpAt x.group.toNat = (s.grpAt x.group.toNat).claimed := by
  have hgrp : (x.group != 0) = true := bne_iff_ne.mpr h
  unfold State.grpAt State.claimed Inst.groupsClaimed
  rw [if_pos hgrp]
  exact Tbl.get_upd_same Group.reset s.grp x.group.toNat Group.claimed

theorem State.claimed_grp (h : x.group = 0) : (s.claimed t n tag x notices).grp = s.grp :=
  if_neg (by simp [h])

end

/-- What stands after a claim before the levels follow: the refill that the freed entry allows has been asked for. -/
def State.claimLeft (s : State) (t n : Nat) (tag : Option (BitVec 11)) (x : Inst) : State :=
  ((s.claimNoticed x).2.claimed t n tag x (s.claimNoticed x).1).pumpRefill t

theorem State.claimLeft_outward (s : State) (t n : Nat) (tag : Option (BitVec 11)) (x : Inst) :
    (s.claimed t n tag x (s.claimNoticed x).1).outward (s.claimLeft t n tag x) :=
  (State.claimed_outward t n tag x (State.claimNoticed_outward s x) _).trans (State.pumpRefill_outward _ t)

theorem mem_of_mem_dropFirst {α : Type} {p : α → Bool} {l : List α} {a : α} (h : a ∈ dropFirst p l) : a ∈ l := by
  induction l with
  | nil => exact h
  | cons b bs ih =>
    unfold dropFirst at h
    split at h
    · exact .tail _ h
    · rcases List.mem_cons.mp h with rfl | h
      · exact .head _
      · exact .tail _ (ih h)

/-- Where what was taken has no remote source and nothing is spilled, neither a link nor the memory port moves. -/
theorem State.claimLeft_local {s : State} {t : Nat} {x : Inst} (hx : x.origin.cls ≠ 3) (hroom : roomy s t) (n : Nat) (tag : Option (BitVec 11)) :
    s.claimLeft t n tag x = s.claimed t n tag x false := by
  rw [State.claimLeft, State.claimNoticed_local s hx]
  refine State.pumpRefill_unspilled fun y hy => ?_
  rw [State.claimed_tgtAt] at hy
  exact hroom.2 y (mem_of_mem_dropFirst hy)

/-! ### The read -/

theorem exec_claim (f : FrameId) (wide : Bool) {s : State} {T n c : Nat} {tag : Option (BitVec 11)} (hr : s.running = true)
    (hf : s.frameOf f = some (T, n, tag)) (hserve : s.servingBelay T = some c) (hw : s.readWaits (frameNumber f) 0 = false) :
    exec (.claim f wide) s =
      .next ((s.claimAt T n tag).2.respond false 0 0 (if wide then (s.claimAt T n tag).1 else (s.claimAt T n tag).1 &&& 0xFFFFFFFF)) := by
  change execClaim f wide s = _
  simp only [execClaim, hr, hw, State.claimFrame, hf, hserve, Option.isSome_some, if_true, Bool.not_true, Bool.or_self, Bool.false_eq_true, if_false, ok]

theorem State.claimAt_some {s : State} {t n : Nat} {tag : Option (BitVec 11)} {x : Inst} (h : s.claimPick t n tag = some x) :
    s.claimAt t n tag = (x.word, (s.claimLeft t n tag x).evalAll) := by
  simp only [State.claimAt, h, State.take_eq]
  rfl

/-- The frame of a CLAIM that takes nothing (spec/06 R157). -/
def State.shadowCleared (s : State) (t n : Nat) (tag : Option (BitVec 11)) : State := s.updFrame (frameKey t n tag) (fun f => { f with shadow := 0 })

theorem State.claimAt_none {s : State} {t n : Nat} {tag : Option (BitVec 11)} (h : s.claimPick t n tag = none) :
    s.claimAt t n tag = (0, if 16 ≤ (s.pairAt (4 * t + n)).stack.length then
      (s.shadowCleared t n tag).updPair (4 * t + n) (fun p => { p with claimRefused := satInc p.claimRefused }) else s.shadowCleared t n tag) := by
  simp only [State.claimAt, h]
  rfl

/-- A CLAIM that takes nothing clears the shadow, and counts itself where the stack is full (spec/06 R155, R157). -/
theorem State.claimAt_missed {s : State} {t n : Nat} {tag : Option (BitVec 11)} (h : s.claimPick t n tag = none) :
    ∃ u, s.claimAt t n tag = (0, u) ∧ u = { s with pair := u.pair, frame := u.frame } ∧
      u.frameAt (frameKey t n tag) = { s.frameAt (frameKey t n tag) with shadow := 0 } ∧
      (∀ k, k ≠ frameKey t n tag → u.frameAt k = s.frameAt k) ∧ (∀ k, k ≠ 4 * t + n → u.pairAt k = s.pairAt k) ∧
      u.pairAt (4 * t + n) = { s.pairAt (4 * t + n) with
        claimRefused := if 16 ≤ (s.pairAt (4 * t + n)).stack.length then satInc (s.pairAt (4 * t + n)).claimRefused
          else (s.pairAt (4 * t + n)).claimRefused } := by
  have hframe : (s.shadowCleared t n tag).frameAt (frameKey t n tag) = { s.frameAt (frameKey t n tag) with shadow := 0 } :=
    State.updFrame_frameAt_same s _ _
  have hframes : ∀ k, k ≠ frameKey t n tag → (s.shadowCleared t n tag).frameAt k = s.frameAt k :=
    fun k hk => State.updFrame_frameAt_other s _ _ hk
  rw [State.claimAt_none h]
  by_cases hfull : 16 ≤ (s.pairAt (4 * t + n)).stack.length
  · simp only [if_pos hfull]
    exact ⟨_, rfl, rfl, hframe, hframes, fun k hk => State.updPair_pairAt_other _ _ _ hk, State.updPair_pairAt_same _ _ _⟩
  · simp only [if_neg hfull]
    exact ⟨_, rfl, rfl, hframe, hframes, fun _ _ => rfl, rfl⟩

/-- Settles O24: the claim word is the concatenation of its fields, and the pick is the highest-ranked of what is claimable. -/
theorem claimsTakeTheHighestRanked : Obligations.ClaimsTakeTheHighestRanked := by
  refine ⟨fun x => ?_, fun f wide T n tag c s hr hf hserve hw => ?_⟩
  · obtain ⟨link, hword⟩ := x.word_eq_wordOf
    simp only [hword]
    exact wordOf_fields ..
  have hexec := exec_claim f wide hr hf hserve hw
  refine ⟨fun i x hroom hx hbest => ?_, fun hmiss => ?_⟩
  · rw [State.claimAt_some (State.claimPick_best hroom hx hbest)] at hexec
    have hout := State.claimLeft_outward s T n tag x
    refine ⟨_, s.claimLeft T n tag x, (s.claimNoticed x).1, hexec, onlyLevels_respond .., ?_,
      (hout.tgtAt T).trans (s.claimed_tgtAt ..), (hout.pairAt _).trans (s.claimed_pairAt ..),
      fun j hj => (hout.pairAt j).trans (s.claimed_pairAt_other _ _ _ _ _ hj), (congrArg Frame.shadow (hout.frameAt _)).trans (s.claimed_shadow ..),
      fun j hj => (hout.frameAt j).trans (s.claimed_frameAt_other _ _ _ _ _ hj), (hout.belAt c).trans (s.claimed_belAt _ _ _ _ _ hserve),
      fun h ho hcls => ?_, fun hgrp => ?_, fun hgrp => hout.grp.trans (s.claimed_grp _ _ _ _ _ hgrp), fun hcls hspace => ?_⟩
    · have hcp : (s.claimLeft T n tag x).evalAll.cp = s.cp := (State.evalAll_cp _).trans hout.cp
      simp only [State.respond, hcp]
    · obtain ⟨hsame, hother⟩ := s.claimed_srcAt T n tag x (s.claimNoticed x).1 ho hcls
      exact ⟨(hout.srcAt _).trans hsame, fun j hj => (hout.srcAt j).trans (hother j hj)⟩
    · rw [hout.grpAt, s.claimed_grpAt _ _ _ _ _ hgrp]
      exact ⟨rfl, rfl⟩
    · rw [State.claimLeft_local hcls hspace, State.claimNoticed_local s hcls]
      exact ⟨rfl, rfl⟩
  · obtain ⟨u, hat, hu, hframe, hframes, hpairs, hpair⟩ := State.claimAt_missed (State.claimPick_none hmiss)
    rw [hat] at hexec
    refine ⟨_, hexec, ?_, ?_, hframe, hframes, hpairs, hpair⟩
    · rw [hu]
      rfl
    · rw [hu]
      cases wide <;> rfl

end Sys2Proof.Machine
end

section
/-! SUPPORT. What a request at the memory port may change, and that a request once made stands until it is answered (spec/12 R321 to R329). -/

namespace Sys2Proof.Machine

/-- A line of an owner is asked for at the memory port: the request has been made and is not yet answered. -/
def State.asksFor (s : State) (o : MemOwner) (addr : BitVec 47) (data : BitVec 256) : Prop :=
  ∃ r, s.asks r ∧ r.owner = o ∧ r.addr = addr ∧ r.data = data

/-- Nothing differs but what the memory port, the rations and the arbiters hold, and every line asked for still is. -/
structure State.ported (s t : State) : Prop where
  frame : t = { s with mem := t.mem, rat := t.rat, arb := t.arb }
  asked : ∀ o addr data, s.asksFor o addr data → t.asksFor o addr data

theorem State.ported_refl (s : State) : s.ported s := ⟨rfl, fun _ _ _ h => h⟩

theorem State.ported.trans {s t u : State} (h : s.ported t) (g : t.ported u) : s.ported u := by
  refine ⟨?_, fun o addr data ha => g.asked o addr data (h.asked o addr data ha)⟩
  rw [g.frame, h.frame]

/-- A change of the rations and the arbiters leaves the requests. -/
theorem State.ported_of_mem {s t : State} (hframe : t = { s with rat := t.rat, arb := t.arb }) : s.ported t := by
  rw [hframe]
  exact ⟨rfl, fun _ _ _ h => h⟩

section
variable {s u : State} (h : s.ported u)
include h

theorem State.ported.vt : u.vt = s.vt := by rw [h.frame]
theorem State.ported.boot : u.boot = s.boot := by rw [h.frame]
theorem State.ported.xl : u.xl = s.xl := by rw [h.frame]
theorem State.ported.vtAt (k : Nat) : u.vtAt k = s.vtAt k := by rw [h.frame]; rfl

theorem State.ported.updQuota (act scope unit : Nat) (f : Quota → Quota) : s.ported (u.updQuota act scope unit f) := h.trans (State.ported_of_mem rfl)
theorem State.ported.updArb (k : Nat) (f : ArbReq → ArbReq) : s.ported (u.updArb k f) := h.trans (State.ported_of_mem rfl)

end

theorem foldList_ported {α : Type} {f : α → State → State} (hf : ∀ (a : α) (s : State), s.ported (f a s)) (l : List α) (s : State) :
    s.ported (foldList f l s) := by
  induction l generalizing s with
  | nil => exact s.ported_refl
  | cons a as ih => exact (hf a s).trans (ih (f a s))

theorem foldFrom_ported {f : Nat → State → State} (hf : ∀ (i : Nat) (s : State), s.ported (f i s)) (i n : Nat) (s : State) :
    s.ported (foldFrom f i n s) := by
  induction n generalizing i s with
  | zero => exact s.ported_refl
  | succ n ih => exact (hf i s).trans (ih (i + 1) (f i s))

theorem foldBelow_ported {f : Nat → State → State} (hf : ∀ (i : Nat) (s : State), s.ported (f i s)) (n : Nat) (s : State) :
    s.ported (foldBelow n f s) := foldFrom_ported hf 0 n s

/-- A change of the memory port that keeps every waiting, queued and outstanding line. -/
theorem State.modMem_ported (s : State) {f : Mem → Mem}
    (hf : ∀ o addr data, s.asksFor o addr data → (s.modMem f).asksFor o addr data) : s.ported (s.modMem f) := ⟨rfl, hf⟩

/-- Requests handed on one by one: each is still there, or stands in the next list with the same line. -/
theorem State.asksFor_of_handed {s t : State} (h : ∀ r, s.asks r → ∃ q, t.asks q ∧ q.owner = r.owner ∧ q.addr = r.addr ∧ q.data = r.data)
    (o : MemOwner) (addr : BitVec 47) (data : BitVec 256) (ha : s.asksFor o addr data) : t.asksFor o addr data := by
  obtain ⟨r, hr, rfl, rfl, rfl⟩ := ha
  exact h r hr

/-! ### Quotas -/

theorem State.charge_ported (s : State) (act scope unit : Nat) : s.ported (s.charge act scope unit) :=
  State.ported_of_mem (by rw [State.charge_frame])

theorem State.exhaust_ported (s : State) (act scope unit : Nat) : s.ported (s.exhaust act scope unit) := by
  unfold State.exhaust
  split
  · exact s.ported_refl
  · exact State.ported_of_mem rfl

theorem State.settleQuota_ported (s : State) (act scope unit : Nat) : s.ported (s.settleQuota act scope unit) := s.ported_refl.updQuota _ _ _ _

theorem State.spend_ported (s : State) (act scope unit : Nat) : s.ported (s.spend act scope unit).2 := by
  have hsettled := s.settleQuota_ported act scope unit
  unfold State.spend
  dsimp only
  split
  · exact hsettled.updQuota _ _ _ _
  · split
    · dsimp only
      split
      · exact (hsettled.updQuota _ _ _ _).trans (State.exhaust_ported _ _ _ _)
      · exact hsettled.updQuota _ _ _ _
    · exact (hsettled.updQuota _ _ _ _).trans (State.exhaust_ported _ _ _ _)

/-! ### Queues -/

theorem eq_or_mem_dropFirst {r x : MemReq} {l : List MemReq} (h : x ∈ l) : x = r ∨ x ∈ dropFirst (fun q => q == r) l := by
  induction l with
  | nil => cases h
  | cons a as ih =>
    by_cases har : a = r
    · subst har
      rcases List.mem_cons.mp h with rfl | h
      · exact .inl rfl
      · exact .inr (by simpa [dropFirst] using h)
    · rcases List.mem_cons.mp h with rfl | h
      · exact .inr (by simp [dropFirst, har])
      · exact (ih h).imp_right (fun h => by simp [dropFirst, har, h])

/-- A request that enters its traverse queue leaves the waiting ones, and is asked for as before. -/
theorem State.entered_ported (s : State) (r : MemReq) (inRation : Bool) :
    s.ported (s.modMem (fun m =>
      { m with waits := dropFirst (fun x => x == r) m.waits, queued := m.queued ++ [{ r with inRation := inRation }] })) := by
  refine s.modMem_ported (State.asksFor_of_handed fun x hx => ?_)
  simp only [State.asks, State.modMem, List.mem_append, List.mem_singleton] at hx ⊢
  rcases hx with (hx | hx) | hx
  · rcases eq_or_mem_dropFirst (r := r) hx with rfl | hx
    · exact ⟨{ x with inRation := inRation }, .inl (.inr (.inr rfl)), rfl, rfl, rfl⟩
    · exact ⟨x, .inl (.inl hx), rfl, rfl, rfl⟩
  · exact ⟨x, .inl (.inr (.inl hx)), rfl, rfl, rfl⟩
  · exact ⟨x, .inr hx, rfl, rfl, rfl⟩

/-- A request that is sent leaves its traverse queue, and is outstanding. -/
theorem State.sent_ported (s : State) (r q : MemReq) (i : BitVec 8) (hq : q.owner = r.owner ∧ q.addr = r.addr ∧ q.data = r.data) :
    s.ported (s.modMem (fun m => { m with queued := dropFirst (fun q => q == r) m.queued, nextId := i + 1, out := m.out ++ [q] })) := by
  refine s.modMem_ported (State.asksFor_of_handed fun x hx => ?_)
  simp only [State.asks, State.modMem, List.mem_append, List.mem_singleton] at hx ⊢
  rcases hx with (hx | hx) | hx
  · exact ⟨x, .inl (.inl hx), rfl, rfl, rfl⟩
  · rcases eq_or_mem_dropFirst (r := r) hx with rfl | hx
    · exact ⟨q, .inr (.inr rfl), hq⟩
    · exact ⟨x, .inl (.inr hx), rfl, rfl, rfl⟩
  · exact ⟨x, .inr (.inl hx), rfl, rfl, rfl⟩

theorem State.enterReq_ported (s : State) (r : MemReq) : s.ported (s.enterReq r) := by
  have htaken : s.ported (if r.above then (false, s.spendAbove r.act r.scope r.unit) else s.spend r.act r.scope r.unit).2 := by
    split
    · exact (s.settleQuota_ported _ _ _).updQuota _ _ _ _
    · exact s.spend_ported _ _ _
  have hlost := fun lost => htaken.trans (foldList_ported (f := fun (q : MemReq) s =>
    s.updArb (100 + s.serverOf q.unit) (fun a => { a.waitOne with losses := a.losses + 1 })) (fun _ t => t.ported_refl.updArb _ _) lost _)
  unfold State.enterReq
  dsimp only
  split
  · exact ((hlost _).updArb _ _).trans (State.entered_ported _ r _)
  · exact (hlost _).trans (State.entered_ported _ r _)

theorem State.enterAll_ported (s : State) (n : Nat) : s.ported (s.enterAll n) := by
  induction n generalizing s with
  | zero => exact s.ported_refl
  | succ n ih =>
    unfold State.enterAll
    split
    · exact (s.enterReq_ported _).trans (ih _)
    · exact s.ported_refl

theorem State.sendReq_ported (s : State) (r : MemReq) (i : BitVec 8) : s.ported (s.sendReq r i) := by
  have hwait := foldList_ported (f := fun (q : MemReq) s => s.updArb (60 + q.input) ArbReq.waitOne) (fun _ t => t.ported_refl.updArb _ _)
  unfold State.sendReq
  exact ((hwait _ s).updArb _ _).trans (State.sent_ported _ r _ i ⟨rfl, rfl, rfl⟩)

theorem State.pumpMem_ported (s : State) (n : Nat) : s.ported (s.pumpMem n) := by
  induction n generalizing s with
  | zero => exact s.ported_refl
  | succ n ih =>
    have henter := s.enterAll_ported s.mem.waits.length
    unfold State.pumpMem
    dsimp only
    split
    · split
      · exact henter.trans ((State.sendReq_ported _ _ _).trans (ih _))
      · exact henter
    · exact henter

/-! ### Requests -/

theorem State.memIssue_ported (s : State) (o : MemOwner) (write : Bool) (addr : BitVec 47) (data : BitVec 256) (again : Bool) :
    s.ported (s.memIssue o write addr data again) := by
  refine State.ported.trans (s.modMem_ported (State.asksFor_of_handed fun x hx => ⟨x, ?_, rfl, rfl, rfl⟩)) (State.pumpMem_ported _ _)
  simp only [State.asks, State.modMem, List.mem_append] at hx ⊢
  exact hx.imp_left (Or.imp_left .inl)

/-- The request that is made is asked for. -/
theorem State.memIssue_asksFor (s : State) (o : MemOwner) (write : Bool) (addr : BitVec 47) (data : BitVec 256) (again : Bool) :
    (s.memIssue o write addr data again).asksFor o addr data :=
  (State.pumpMem_ported _ _).asked o addr data ⟨_, List.mem_append_left _ (List.mem_append_left _ (List.mem_append_right _ (.head _))), rfl, rfl, rfl⟩

/-- Lines held after a failed write are no requests: dropping some leaves what is asked for. -/
theorem State.retained_ported (s : State) (p : MemReq → Bool) : s.ported (s.modMem (fun m => { m with retained := m.retained.filter p })) :=
  s.modMem_ported fun _ _ _ h => h

theorem State.unretain_ported (s : State) (o : MemOwner) : s.ported (s.unretain o) := s.retained_ported _

theorem State.memWrite_ported (s : State) (o : MemOwner) (addr : BitVec 47) (data : BitVec 256) : s.ported (s.memWrite o addr data) :=
  (s.retained_ported _).trans (State.memIssue_ported _ _ _ _ _ _)

theorem State.memWrite_asksFor (s : State) (o : MemOwner) (addr : BitVec 47) (data : BitVec 256) : (s.memWrite o addr data).asksFor o addr data :=
  State.memIssue_asksFor _ _ _ _ _ _

theorem State.readBack_ported (s : State) (w o : MemOwner) (addr : BitVec 47) : s.ported (s.readBack w o addr) := by
  unfold State.readBack
  split
  · exact s.modMem_ported fun _ _ _ h => h
  · exact s.memIssue_ported o false addr 0 false

theorem State.pumpRefill_ported (s : State) (t : Nat) : s.ported (s.pumpRefill t) := by
  unfold State.pumpRefill
  dsimp only
  split
  · split
    · exact s.ported_refl
    · exact (s.charge_ported _ _ _).trans (State.readBack_ported _ _ _ _)
  · exact s.ported_refl

end Sys2Proof.Machine
end

section
/-! SUPPORT. A mailbox command from its turn to its answer (spec/11 R281 to R289). -/

namespace Sys2Proof.Machine

/-- A state with the mailboxes and Base Camp of another. -/
def State.deskOf (u s : State) : State := { u with mbx := s.mbx, camp := s.camp }

/-- The command of slot `i` begins: it is taken, and its commit record is made. -/
def State.begun (s : State) (m i : Nat) : State := s.deskOf ((s.takeSlot m i).commit m i)

theorem State.begun_eq (s : State) (m i : Nat) : (s.takeSlot m i).commit m i = s.begun m i := by
  simp only [State.begun, State.deskOf, State.takeSlot, State.commit, State.updSlot, State.updMbx, State.modCamp]

theorem State.begun_mbx (s : State) (m i : Nat) :
    (s.begun m i).mbx = ((s.updSlot m i (fun x => { x with posted := false, running := true })).updMbx m
      (fun x => { x with order := x.order.drop 1 })).mbx := by
  simp only [State.begun, State.deskOf, State.takeSlot, State.commit, State.modCamp]

/-- What a slot changed leaves of its mailbox. -/
theorem State.updSlot_mbxAt (s : State) (m i : Nat) (f : Slot → Slot) :
    (s.updSlot m i f).mbxAt m = { s.mbxAt m with slots := Tbl.upd Slot.reset (s.mbxAt m).slots i f } :=
  State.updMbx_mbxAt_same s m _

theorem State.updSlot_mbxAt_other (s : State) (m i : Nat) (f : Slot → Slot) {k : Nat} (hk : k ≠ m) : (s.updSlot m i f).mbxAt k = s.mbxAt k :=
  State.updMbx_mbxAt_other s m _ hk

theorem State.updSlot_slotAt (s : State) (m i : Nat) (f : Slot → Slot) : (s.updSlot m i f).slotAt m i = f (s.slotAt m i) := by
  rw [State.slotAt, State.updSlot_mbxAt]
  exact Tbl.get_upd_same _ _ _ _

theorem State.updSlot_slotAt_other (s : State) (m i : Nat) (f : Slot → Slot) {j : Nat} (hj : j ≠ i) :
    (s.updSlot m i f).slotAt m j = s.slotAt m j := by
  rw [State.slotAt, State.updSlot_mbxAt]
  exact Tbl.get_upd_other _ _ _ hj

section
variable {s : State} {m i : Nat} {code : BitVec 16} (h : turnOf s m i code)
include h

theorem State.taken_of_turnOf : s.taken m = some (i, (s.slotAt m i).req) := by
  obtain ⟨hrun, hexec, -, hrekey, htest, hnext, ⟨rest, horder⟩, -⟩ := h
  simp [State.taken, hrun, hexec, hrekey, htest, hnext, horder]

/-- A command whose turn it is, which its mailbox may issue and nothing holds back, is applied once it has begun, and answered. -/
theorem State.command_of_turnOf {codes : List (BitVec 16)} {by_ : Issuers} {ready : BitVec 448 → Bool} (f : BitVec 448 → State → Answer × State)
    (hcode : codes.contains code = true) (hallow : by_.allow m = true) (hready : ready (argsOf s m i) = true) :
    s.command m codes by_ ready f =
      (f (argsOf s m i) (s.begun m i)).2.answerSlot m i (f (argsOf s m i) (s.begun m i)).1 := by
  have htaken := State.taken_of_turnOf h
  obtain ⟨-, -, hboot, -, -, -, -, rfl, hheader, -⟩ := h
  have hready : ready (reqArgs (s.slotAt m i).req) = true := hready
  simp only [State.command, State.commandOf, htaken, hcode, hboot, hheader, hallow, hready, State.begun_eq, argsOf, Bool.not_true, Bool.false_eq_true,
    if_false]

end

/-! ### The answer -/

theorem State.begun_mbxAt_taken (s : State) (m i : Nat) : (s.begun m i).mbxAt m =
    { (s.updSlot m i (fun x => { x with posted := false, running := true })).mbxAt m with
      order := ((s.updSlot m i (fun x => { x with posted := false, running := true })).mbxAt m).order.drop 1 } :=
  (congrArg (fun t => Tbl.get Mbox.reset t m) (s.begun_mbx m i)).trans (State.updMbx_mbxAt_same _ m _)

theorem State.begun_mbxAt (s : State) (m i : Nat) : (s.begun m i).mbxAt m =
    { s.mbxAt m with
      order := (s.mbxAt m).order.drop 1,
      slots := Tbl.upd Slot.reset (s.mbxAt m).slots i (fun x => { x with posted := false, running := true }) } := by
  rw [s.begun_mbxAt_taken, s.updSlot_mbxAt]

theorem State.begun_mbxAt_other (s : State) (m i : Nat) {k : Nat} (hk : k ≠ m) : (s.begun m i).mbxAt k = s.mbxAt k :=
  (congrArg (fun t => Tbl.get Mbox.reset t k) (s.begun_mbx m i)).trans
    ((State.updMbx_mbxAt_other _ m _ hk).trans (s.updSlot_mbxAt_other m i _ hk))

theorem State.begun_slotAt (s : State) (m i : Nat) : (s.begun m i).slotAt m i = { s.slotAt m i with posted := false, running := true } :=
  (congrArg (fun x : Mbox => Tbl.get Slot.reset x.slots i) (s.begun_mbxAt_taken m i)).trans (s.updSlot_slotAt m i _)

theorem State.begun_slotAt_other (s : State) (m i : Nat) {j : Nat} (hj : j ≠ i) : (s.begun m i).slotAt m j = s.slotAt m j :=
  (congrArg (fun x : Mbox => Tbl.get Slot.reset x.slots j) (s.begun_mbxAt_taken m i)).trans (s.updSlot_slotAt_other m i _ hj)

theorem State.takeSlot_slotAt_req (s : State) (m i : Nat) : ((s.takeSlot m i).slotAt m i).req = (s.slotAt m i).req := by
  have hbegun : (s.takeSlot m i).slotAt m i = (s.begun m i).slotAt m i := by
    simp only [State.slotAt, State.mbxAt, State.begun, State.deskOf, State.commit, State.modCamp]
  rw [hbegun, s.begun_slotAt]

theorem State.begun_camp (s : State) (m i : Nat) : (s.begun m i).camp =
    (if s.camp.standby.toNat ≤ 1 then
      { s.camp with
        rr := m, execSeq := s.camp.execSeq + 1, copySeq := s.camp.execSeq + 1,
        record := some { mbox := m, slot := i, req := (s.slotAt m i).req, seq := s.camp.execSeq + 1 } }
    else { s.camp with rr := m, execSeq := s.camp.execSeq + 1 }) := by
  have hcamp : (s.takeSlot m i).camp = { s.camp with rr := m } := by simp only [State.takeSlot, State.updSlot, State.updMbx, State.modCamp]
  simp only [State.begun, State.deskOf, State.commit, State.modCamp, s.takeSlot_slotAt_req, hcamp]

/-- A slot answered without a notification: nothing changes but the slot (spec/11 R287). -/
theorem State.answerSlot_quiet {s : State} {m i : Nat} (a : Answer) (hquiet : bitAt (s.slotAt m i).req 40 = false ∨ (s.mbxAt m).enable = false) :
    s.answerSlot m i a =
      s.updSlot m i (fun x => { x with resp := respWords (s.slotAt m i).req a false s.camp.execSeq, running := false, done := true }) := by
  have henable (f : Slot → Slot) : ((s.updSlot m i f).mbxAt m).enable = (s.mbxAt m).enable := by rw [s.updSlot_mbxAt]
  unfold State.answerSlot State.finishSlot
  dsimp only
  rw [henable, if_neg]
  rcases hquiet with h | h <;> rw [h] <;> simp only [Bool.false_and, Bool.and_false, Bool.false_eq_true, not_false_eq_true]

/-- A slot changed, seen from a state that differs in its mailboxes and in how far Base Camp has come. -/
theorem State.updSlot_deskOf {v s : State} {m i n : Nat} {seq : BitVec 32} (g : Slot → Slot)
    (hcamp : v.camp = { s.camp with execSeq := seq, rr := n, record := v.camp.record, copySeq := v.camp.copySeq }) :
    v.updSlot m i g =
      { v.deskOf s with
        mbx := (v.updSlot m i g).mbx,
        camp := { (v.deskOf s).camp with
          execSeq := seq, rr := n, record := (v.updSlot m i g).camp.record, copySeq := (v.updSlot m i g).camp.copySeq } } :=
  congrArg (fun c => ({ v with mbx := (v.updSlot m i g).mbx, camp := c } : State)) hcamp

/-- A command applied to the state in which it has begun, and answered: `answered` says what that is for the mailboxes, and the rest is the
command's own. -/
theorem answered_of_begun {s v : State} {m i : Nat} {code : BitVec 16} (h : turnOf s m i code) (hmbx : v.mbx = (s.begun m i).mbx)
    (hcamp : v.camp = (s.begun m i).camp) (a : Answer) : answered s (v.deskOf s) (v.answerSlot m i a) m i a := by
  obtain ⟨-, -, -, -, -, -, -, -, -, hnotify⟩ := h
  have hat (k : Nat) : v.mbxAt k = (s.begun m i).mbxAt k := congrArg (fun t => Tbl.get Mbox.reset t k) hmbx
  have hslot (j : Nat) : v.slotAt m j = (s.begun m i).slotAt m j := congrArg (fun x : Mbox => Tbl.get Slot.reset x.slots j) (hat m)
  have hreq : (v.slotAt m i).req = (s.slotAt m i).req := by rw [hslot, s.begun_slotAt]
  have hquiet : bitAt (v.slotAt m i).req 40 = false ∨ (v.mbxAt m).enable = false := by rwa [hreq, hat, s.begun_mbxAt]
  have hseq : v.camp.execSeq = s.camp.execSeq + 1 := by
    rw [hcamp, s.begun_camp]
    split <;> rfl
  rw [State.answerSlot_quiet a hquiet, hreq, hseq]
  refine ⟨?_, ?_, fun k hk => ?_, ?_, fun j hj => ?_, ?_⟩
  · refine State.updSlot_deskOf _ ?_
    rw [hcamp, s.begun_camp]
    split <;> rfl
  · show if _ then v.camp.record = _ ∧ v.camp.copySeq = _ else v.camp.record = _ ∧ v.camp.copySeq = _
    rw [hcamp, s.begun_camp]
    split <;> exact ⟨rfl, rfl⟩
  · rw [v.updSlot_mbxAt_other m i _ hk, hat, s.begun_mbxAt_other m i hk]
  · rw [v.updSlot_mbxAt, hat, s.begun_mbxAt]
  · rw [v.updSlot_slotAt_other m i _ hj, hslot, s.begun_slotAt_other m i hj]
  · rw [v.updSlot_slotAt, hslot, s.begun_slotAt]

/-- What a command comes to that leaves the mailboxes and Base Camp as they are, those of `b`, when it begins. -/
theorem State.command_answered {s b v : State} {m i : Nat} {code : BitVec 16} {a : Answer} (h : turnOf s m i code) (hb : s.begun m i = s.deskOf b)
    {codes : List (BitVec 16)} {by_ : Issuers} {ready : BitVec 448 → Bool} {f : BitVec 448 → State → Answer × State}
    (hcode : codes.contains code = true) (hallow : by_.allow m = true) (hready : ready (argsOf s m i) = true)
    (hf : f (argsOf s m i) (s.deskOf b) = (a, v)) (hmbx : v.mbx = b.mbx) (hcamp : v.camp = b.camp) :
    answered s (v.deskOf s) (s.command m codes by_ ready f) m i a := by
  rw [State.command_of_turnOf h f hcode hallow hready, hb, hf]
  exact answered_of_begun h (by rw [hb]; exact hmbx) (by rw [hb]; exact hcamp) a

/-- The same for a command that ends by evaluating the levels. -/
theorem State.command_answered_levels {s b w : State} {m i : Nat} {code : BitVec 16} {a : Answer} (h : turnOf s m i code)
    (hb : s.begun m i = s.deskOf b) {codes : List (BitVec 16)} {by_ : Issuers} {ready : BitVec 448 → Bool} {f : BitVec 448 → State → Answer × State}
    (hcode : codes.contains code = true) (hallow : by_.allow m = true) (hready : ready (argsOf s m i) = true)
    (hf : f (argsOf s m i) (s.deskOf b) = (a, w.evalAll)) (hmbx : w.mbx = b.mbx) (hcamp : w.camp = b.camp) :
    answered s (w.evalAll.deskOf s) (s.command m codes by_ ready f) m i a :=
  State.command_answered h hb hcode hallow hready hf ((State.evalAll_keeps State.mbx (fun _ _ => rfl) w).trans hmbx)
    ((State.evalAll_keeps State.camp (fun _ _ => rfl) w).trans hcamp)

theorem onlyLevels_deskOf {u w : State} (h : onlyLevels u w) (s : State) : onlyLevels (u.deskOf s) (w.deskOf s) :=
  ⟨congrArg (fun v : State => v.deskOf s) h.1, h.2⟩

end Sys2Proof.Machine
end

section
/-! SUPPORT. The arguments and results of mailbox commands (spec/11 R289, R291, R448). -/

namespace Sys2Proof.Machine

/-- With no failing condition there is no bad argument. -/
theorem lowestBad_of_forall {l : List (Bool × Nat)} (h : ∀ p ∈ l, p.1 = false) : lowestBad l = none := by
  unfold lowestBad
  induction l with
  | nil => rfl
  | cons p l ih =>
    rw [List.foldl_cons, h p (.head _)]
    exact ih fun q hq => h q (.tail _ hq)

theorem argOver_of_lt {a : BitVec 448} {o bits : Nat} (h : (arg a o 8 : BitVec 8).toNat < 2 ^ bits) : argOver a o 1 bits = false :=
  decide_eq_false (Nat.not_le.mpr h)

theorem field_or {n : Nat} (x y : BitVec n) (o w : Nat) : (field (x ||| y) o w : BitVec w) = field x o w ||| field y o w := by
  simp only [field, BitVec.extractLsb'_or]

theorem field_resPut_zero {w : Nat} (hw : w ≤ 416) (v : BitVec w) : (field (resPut 0 v) 0 w : BitVec w) = v := by
  apply BitVec.eq_of_getLsbD_eq
  intro i hi
  simp [field, resPut, hi]
  omega

/-- A field put at a byte offset leaves the bits below. -/
theorem field_resPut_below {w o n : Nat} (h : n ≤ 8 * o) (v : BitVec w) : (field (resPut o v) 0 n : BitVec n) = 0 := by
  apply BitVec.eq_of_getLsbD_eq
  intro i hi
  simp [field, resPut, hi]
  omega

end Sys2Proof.Machine
end

section
/-! SUPPORT. VT_RUN (spec/08 R200, R203). -/

namespace Sys2Proof.Machine

/-- The pair's running slot becomes another, and a virtual target's map bits change with it. -/
def State.switched (s : State) (v k : Nat) (f : Vt → Vt) (c : Option (BitVec 11)) : State :=
  (s.updVt v f).updPair k (fun p => { p with running := c })

theorem State.switched_vtAt (s : State) (v k : Nat) (f : Vt → Vt) (c : Option (BitVec 11)) : (s.switched v k f c).vtAt v = f (s.vtAt v) :=
  s.updVt_vtAt_same v f

theorem State.switched_vtAt_other (s : State) {v j : Nat} (k : Nat) (f : Vt → Vt) (c : Option (BitVec 11)) (hj : j ≠ v) :
    (s.switched v k f c).vtAt j = s.vtAt j := s.updVt_vtAt_other v f hj

theorem State.switched_pairAt (s : State) (v k : Nat) (f : Vt → Vt) (c : Option (BitVec 11)) :
    (s.switched v k f c).pairAt k = { s.pairAt k with running := c } := (s.updVt v f).updPair_pairAt_same k _

theorem State.switched_pairAt_other (s : State) (v : Nat) {k j : Nat} (f : Vt → Vt) (c : Option (BitVec 11)) (hj : j ≠ k) :
    (s.switched v k f c).pairAt j = s.pairAt j := (s.updVt v f).updPair_pairAt_other k _ hj

/-- With no virtual target running, VT_RUN starts one and answers 0xFFFF. -/
theorem State.runSlot_start {s : State} {t n : Nat} (h : (s.pairAt (4 * t + n)).running = none) (c : BitVec 11) :
    s.runSlot t n (some c) =
      (resPut 0 (0xFFFF : BitVec 16),
        (s.switched (s.ctxAt c.toNat).vt.toNat (4 * t + n) (fun m => { m with running := true, notified := false }) (some c)).evalAll) := by
  simp only [State.runSlot, State.runningVt, h, Option.map_none, State.switched]

/-- STOP stops the virtual target that runs, and answers its number in the low 16 bits. -/
theorem State.runSlot_stop {s : State} {t n : Nat} {c : BitVec 11} (h : (s.pairAt (4 * t + n)).running = some c) :
    ∃ d, field d 0 16 = BitVec.ofNat 16 (s.ctxAt c.toNat).vt.toNat ∧
      s.runSlot t n none = (d, (s.switched (s.ctxAt c.toNat).vt.toNat (4 * t + n) (fun m => { m with running := false }) none).evalAll) := by
  simp only [State.runSlot, State.runningVt, h, Option.map_some, State.switched]
  refine ⟨_, ?_, rfl⟩
  rw [field_or, field_resPut_zero (by omega)]
  split
  · rw [field_or, field_resPut_below (by omega), field_resPut_below (by omega)]
    simp
  · simp [field]

section
variable {s : State} {m : Nat} {a : BitVec 448} (hm : m = 1) (ht : (arg a 0 16 : BitVec 16).toNat < 512) (hn : (arg a 2 8 : BitVec 8).toNat < 4)
include hm ht hn

/-- The hypervisor's mailbox may run any virtual target, and its arguments stand. -/
theorem State.vtRun_of_hypervisor (hstop : (arg a 3 8 : BitVec 8).toNat < 2) :
    s.vtRun m a =
      (let t := (arg a 0 16 : BitVec 16).toNat
       let n := (arg a 2 8 : BitVec 8).toNat
       let v := (arg a 4 16 : BitVec 16).toNat
       if bitAt (arg a 3 8 : BitVec 8) 0 then (okWith (s.runSlot t n none).1, (s.runSlot t n none).2)
       else if !(s.vtAt v).resident then (status 6, s)
       else
        let c := (s.vtAt v).slot
        if (s.ctxAt c.toNat).target.toNat ≠ t || (s.ctxAt c.toNat).ring.toNat ≠ n then (badArg 0, s)
        else (okWith (s.runSlot t n (some c)).1, (s.runSlot t n (some c)).2)) := by
  subst hm
  have hmay (v : Option Nat) : s.mayRun 1 v = true := by simp [State.mayRun, guestOf]
  have hargs : lowestBad [(decide (511 < (arg a 0 16 : BitVec 16).toNat), 0), (decide (3 < (arg a 2 8 : BitVec 8).toNat), 2), (argOver a 3 1 1, 3)] =
      none := lowestBad_of_forall (by simp [argOver_of_lt (bits := 1) hstop]; omega)
  simp only [State.vtRun, hmay, hargs, Bool.not_true, Bool.false_eq_true, if_false]

/-- VT_RUN of the hypervisor with STOP: the virtual target that runs on the pair stops, and its number is answered. -/
theorem State.vtRun_stop (hstop : (arg a 3 8 : BitVec 8) = 1) {c : BitVec 11}
    (hrun : (s.pairAt (4 * (arg a 0 16 : BitVec 16).toNat + (arg a 2 8 : BitVec 8).toNat)).running = some c) {r : Nat}
    (hr : (s.ctxAt c.toNat).vt.toNat = r) :
    ∃ d, field d 0 16 = BitVec.ofNat 16 r ∧
      s.vtRun m a = (okWith d,
        (s.switched r (4 * (arg a 0 16 : BitVec 16).toNat + (arg a 2 8 : BitVec 8).toNat)
          (fun x => { x with running := false }) none).evalAll) := by
  obtain ⟨d, hd, hslot⟩ := State.runSlot_stop hrun
  have hbit : bitAt (1 : BitVec 8) 0 = true := rfl
  subst hr
  refine ⟨d, hd, ?_⟩
  rw [State.vtRun_of_hypervisor hm ht hn (by rw [hstop]; decide), hstop]
  simp only [hbit, hslot, if_true]

/-- VT_RUN of the hypervisor on a pair where none runs: the resident virtual target bound to the pair starts. -/
theorem State.vtRun_start (hstop : (arg a 3 8 : BitVec 8) = 0) {y : Vt} (hy : s.vtAt (arg a 4 16 : BitVec 16).toNat = y) (hres : y.resident = true)
    (htarget : (s.ctxAt y.slot.toNat).target.toNat = (arg a 0 16 : BitVec 16).toNat)
    (hring : (s.ctxAt y.slot.toNat).ring.toNat = (arg a 2 8 : BitVec 8).toNat)
    (hvt : (s.ctxAt y.slot.toNat).vt.toNat = (arg a 4 16 : BitVec 16).toNat)
    (hidle : (s.pairAt (4 * (arg a 0 16 : BitVec 16).toNat + (arg a 2 8 : BitVec 8).toNat)).running = none) :
    s.vtRun m a = (okWith (resPut 0 (0xFFFF : BitVec 16)),
      (s.switched (arg a 4 16 : BitVec 16).toNat (4 * (arg a 0 16 : BitVec 16).toNat + (arg a 2 8 : BitVec 8).toNat)
        (fun x => { x with running := true, notified := false }) (some y.slot)).evalAll) := by
  have hbit : bitAt (0 : BitVec 8) 0 = false := rfl
  rw [State.vtRun_of_hypervisor hm ht hn (by rw [hstop]; decide), hstop]
  simp only [hbit, hy, hres, htarget, hring, hvt, State.runSlot_start hidle, ne_eq, not_true_eq_false, decide_false, Bool.or_self, Bool.not_true,
    Bool.false_eq_true, if_false]

end

/-- A switch and the levels that follow, carried over from a state to one with other mailboxes. -/
theorem State.switched_levels (s b : State) (v k : Nat) (f : Vt → Vt) (c : Option (BitVec 11)) :
    onlyLevels (s.switched v k f c) (((s.deskOf b).switched v k f c).evalAll.deskOf s) :=
  onlyLevels_deskOf (onlyLevels_evalAll ((s.deskOf b).switched v k f c)) s

end Sys2Proof.Machine
end

section
/-! SUPPORT. VT_CREATE and the descriptor it writes (spec/08 R205, R207, R209). -/

namespace Sys2Proof.Machine

/-! ### Descriptors -/

theorem State.ported.descAddr {s u : State} (h : s.ported u) (v : Nat) : u.descAddr v = s.descAddr v :=
  congrArg (fun b : Boot => b.vtBase ++ (0#7 : BitVec 7) + BitVec.ofNat 47 (2 * v)) h.boot

/-- One line of a descriptor written to the bivouac table. -/
def State.writeVtLine (s : State) (v i : Nat) : State :=
  s.memWrite (.descriptor (BitVec.ofNat 16 v)) (s.descAddr v + BitVec.ofNat 47 i) ((s.vtAt v).descLine i)

theorem State.writeVtLine_ported (s : State) (v i : Nat) : s.ported (s.writeVtLine v i) := State.memWrite_ported _ _ _ _

theorem State.writeVt_ported (s : State) (v : Nat) : s.ported (s.writeVt v) := (s.writeVtLine_ported v 0).trans (State.writeVtLine_ported _ v 1)

/-- Both lines of a descriptor that is written are asked for. -/
theorem State.writeVt_asksFor (s : State) (v : Nat) {k : Nat} (hk : k < 2) :
    (s.writeVt v).asksFor (.descriptor (BitVec.ofNat 16 v)) ((s.writeVt v).descAddr v + BitVec.ofNat 47 k) (((s.writeVt v).vtAt v).descLine k) := by
  have hline (u : State) (i : Nat) : (u.writeVtLine v i).asksFor (.descriptor (BitVec.ofNat 16 v)) (u.descAddr v + BitVec.ofNat 47 i) ((u.vtAt v).descLine i) :=
    State.memWrite_asksFor _ _ _ _
  rw [(s.writeVt_ported v).descAddr, (s.writeVt_ported v).vtAt]
  obtain rfl | rfl : k = 0 ∨ k = 1 := by omega
  · exact (State.writeVtLine_ported _ v 1).asked _ _ _ (hline s 0)
  · have h1 := hline (s.writeVtLine v 0) 1
    rwa [(s.writeVtLine_ported v 0).descAddr, (s.writeVtLine_ported v 0).vtAt] at h1

/-! ### VT_CREATE -/

/-- The virtual target that VT_CREATE's arguments define, with an area at a page. -/
def Vt.made (a : BitVec 448) (page : BitVec 40) : Vt :=
  { Vt.reset with
    defined := true, owner := arg a 2 6, ring := arg a 3 2, dbTarget := arg a 4 9, dbRing := arg a 6 2, dbLevel := arg a 7 4, cap := arg a 8 16,
    area := page ++ (0#7 : BitVec 7) }

/-- The state in which VT_CREATE has defined its virtual target and not yet written the descriptor. -/
def State.vtDefined (s : State) (a : BitVec 448) : State :=
  ((s.settleQuota 3 1 ((arg a 4 16 : BitVec 16).toNat / 2)).drawAlloc.2.takePages (areaPages (arg a 8 16))).updVt (arg a 0 16 : BitVec 16).toNat
    (fun _ => Vt.made a (Config.alloc s.freeCtr))

theorem State.vtDefined_frame (s : State) (a : BitVec 448) : s.vtDefined a =
    { s with
      vt := (s.vtDefined a).vt, rat := { s.rat with quota := (s.vtDefined a).rat.quota }, freeCtr := (s.vtDefined a).freeCtr,
      boot := { s.boot with tableFree := s.boot.tableFree - areaPages (arg a 8 16) } } := by
  simp only [State.vtDefined, State.settleQuota, State.updQuota, State.drawAlloc, State.takePages, State.modBoot, State.updVt]

/-- Arguments of VT_CREATE that stand (spec/08 R207). -/
structure CreateArgs (a : BitVec 448) : Prop where
  owner    : ownerOk (arg a 2 8) = true
  ring     : (arg a 3 8 : BitVec 8) = 2 ∨ (arg a 3 8 : BitVec 8) = 3
  dbTarget : (arg a 4 16 : BitVec 16).toNat < 512
  dbRing   : (arg a 6 8 : BitVec 8).toNat < 4
  dbLevel  : (arg a 7 8 : BitVec 8).toNat < 16
  cap      : 1 ≤ (arg a 8 16 : BitVec 16).toNat ∧ (arg a 8 16 : BitVec 16).toNat ≤ 4096

section
variable {s : State} {a : BitVec 448} (hargs : CreateArgs a) (hdef : (s.vtAt (arg a 0 16 : BitVec 16).toNat).defined = false)
  (hspace : areaPages (arg a 8 16) ≤ s.boot.tableFree) (hzero : s.vtZeroing (arg a 0 16 : BitVec 16).toNat = false) (hfree : noContract s)
include hargs hdef hspace hzero hfree

theorem State.vtCreate_eq : s.vtCreate a =
    (okWith (resPut 0 (Config.alloc s.freeCtr ++ (0#12 : BitVec 12))), (s.vtDefined a).writeVt (arg a 0 16 : BitVec 16).toNat) := by
  have hring : ((arg a 3 8 : BitVec 8).toNat ≠ 2 && (arg a 3 8 : BitVec 8).toNat ≠ 3 : Bool) = false := by
    rcases hargs.ring with h | h <;> simp [h]
  have hbad : lowestBad [((s.vtAt (arg a 0 16 : BitVec 16).toNat).defined, 0), (!ownerOk (arg a 2 8), 2),
      ((arg a 3 8 : BitVec 8).toNat ≠ 2 && (arg a 3 8 : BitVec 8).toNat ≠ 3, 3), (decide (511 < (arg a 4 16 : BitVec 16).toNat), 4), (argOver a 6 1 2, 6),
      (argOver a 7 1 4, 7), ((arg a 8 16 : BitVec 16).toNat = 0 || decide (4096 < (arg a 8 16 : BitVec 16).toNat), 8)] = none := by
    refine lowestBad_of_forall ?_
    have hcap := hargs.cap
    have hdb := hargs.dbTarget
    simp only [List.forall_mem_cons, hdef, hargs.owner, hring, argOver_of_lt (bits := 2) hargs.dbRing, argOver_of_lt (bits := 4) hargs.dbLevel]
    simp
    omega
  have hadmits : (s.vtDefined a).admits = true := by
    obtain ⟨hcontract, hnext⟩ := hfree
    rw [State.vtDefined_frame, State.admits]
    simp only [hcontract, hnext, Option.or_none]
  have hpages : s.spaceStatus (areaPages (arg a 8 16)) = none := if_pos hspace
  simp only [State.vtCreate, hbad, State.vtMake, hzero, hpages, Bool.false_eq_true, if_false]
  show (if !(s.vtDefined a).admits then _ else _) = _
  rw [hadmits]
  rfl

/-- What VT_CREATE leaves: the virtual target defined with its area, both lines of its descriptor asked for. -/
theorem State.vtCreate_effect : ∃ b v, s.vtCreate a = (okWith (resPut 0 (b ++ (0#12 : BitVec 12))), v) ∧
    v = { s with
      vt := v.vt, mem := v.mem, arb := v.arb, rat := v.rat, freeCtr := v.freeCtr,
      boot := { s.boot with tableFree := s.boot.tableFree - areaPages (arg a 8 16) } } ∧
    (∀ j, j ≠ (arg a 0 16 : BitVec 16).toNat → v.vtAt j = s.vtAt j) ∧ v.vtAt (arg a 0 16 : BitVec 16).toNat = Vt.made a b ∧
    ∀ k, k < 2 → v.asksFor (.descriptor (BitVec.ofNat 16 (arg a 0 16 : BitVec 16).toNat))
      (v.descAddr (arg a 0 16 : BitVec 16).toNat + BitVec.ofNat 47 k) ((v.vtAt (arg a 0 16 : BitVec 16).toNat).descLine k) := by
  have hport := (s.vtDefined a).writeVt_ported (arg a 0 16 : BitVec 16).toNat
  refine ⟨_, _, State.vtCreate_eq hargs hdef hspace hzero hfree, ?_, fun j hj => ?_, ?_, fun k hk => State.writeVt_asksFor _ _ hk⟩
  · rw [hport.frame, s.vtDefined_frame]
  · rw [hport.vtAt]
    exact State.updVt_vtAt_other _ _ _ hj
  · rw [hport.vtAt]
    exact State.updVt_vtAt_same _ _ _

end

end Sys2Proof.Machine
end

section
/-! SUPPORT. VT_RESIDENT and VT_DESTROY (spec/08 R202, R205, R207, R209). -/

namespace Sys2Proof.Machine

/-! ### Nothing waits at a ridge -/

theorem updList_eq_self {α : Type} {f : α → α} {l : List α} (h : ∀ a ∈ l, f a = a) (n : Nat) : updList f l n = l := by
  induction l generalizing n with
  | nil => rfl
  | cons a as ih =>
    cases n with
    | zero => exact congrArg (· :: as) (h a (.head _))
    | succ n => exact congrArg (a :: ·) (ih (fun b hb => h b (.tail _ hb)) n)

/-- Where no record waits for a change of the map, its end releases none. -/
theorem State.releaseWaits_none {s : State} (h : ∀ q ∈ s.xl.pos, q.waits = []) (p : Nat) : s.releaseWaits p = s := by
  have hself : ∀ q ∈ s.xl.pos, { q with waits := [] } = q := fun q hq => by rw [← h q hq]
  have hupd : s.updPos p (fun q => { q with waits := [] }) = s := by rw [State.updPos, updList_eq_self hself]
  have hat : (s.posAt p).waits = [] := by
    unfold State.posAt
    rw [List.getD_eq_getElem?_getD]
    cases hp : s.xl.pos[p]? with
    | none => rfl
    | some q => exact h q (List.mem_of_getElem? hp)
  unfold State.releaseWaits
  split
  · rfl
  · simp only [hat, foldList, hupd]

theorem State.releaseAllWaits_none {s : State} (h : ∀ q ∈ s.xl.pos, q.waits = []) : s.releaseAllWaits = s := by
  simp only [State.releaseAllWaits, foldBelow, foldFrom, State.releaseWaits_none h]

theorem State.residentSlot_frame (s : State) (c : Nat) (owner : BitVec 6) (ring : Option (BitVec 2)) : s.residentSlot c owner ring =
    { s with
      acc := { s.acc with slot := (s.residentSlot c owner ring).acc.slot },
      xl := { s.xl with rewrites := (s.residentSlot c owner ring).xl.rewrites } } := by
  simp only [State.residentSlot, State.setDesc, State.modAcc, State.modXl]

/-- The end of a residency change: the access slot set, no record released. -/
theorem State.residentSlot_released {s : State} (h : ∀ q ∈ s.xl.pos, q.waits = []) (c : Nat) (owner : BitVec 6) (ring : Option (BitVec 2)) :
    (s.residentSlot c owner ring).releaseAllWaits = s.residentSlot c owner ring :=
  State.releaseAllWaits_none (by rwa [State.residentSlot_frame])

/-! ### VT_RESIDENT -/

/-- Virtual target `v` bound to ring of target `t` under slot `c`, its saved entries on the pair's stack and its saved fields in the frame. -/
def State.bound (s : State) (v t c : Nat) : State :=
  let m := s.vtAt v
  { s with
    pair := Tbl.upd Pair.reset s.pair (4 * t + m.ring.toNat) (fun p =>
      { p with stack := m.savedAct.map (fun a => a.retag (BitVec.ofNat 9 t) m.ring (some (BitVec.ofNat 11 c))) ++ p.stack }),
    ctx := Tbl.upd Ctx.reset s.ctx c (fun x =>
      { x with used := true, vt := BitVec.ofNat 16 v, ring := m.ring, target := BitVec.ofNat 9 t, refilling := false }),
    frame := Tbl.upd Frame.reset s.frame (2048 + c) (fun _ => { m.saved with shadow := 0, stage := 0, flag := false }),
    vt := Tbl.upd Vt.reset s.vt v (fun m =>
      { m with resident := true, slot := BitVec.ofNat 11 c, savedAct := [], bivouac := [], dropTold := false }) }

section
variable (s : State) (v t c : Nat)

theorem State.bound_vtAt : (s.bound v t c).vtAt v =
    { s.vtAt v with resident := true, slot := BitVec.ofNat 11 c, savedAct := [], bivouac := [], dropTold := false } := by
  simp only [State.bound, State.vtAt, Tbl.get_upd_same]

theorem State.bound_vtAt_other {j : Nat} (hj : j ≠ v) : (s.bound v t c).vtAt j = s.vtAt j := by
  simp only [State.bound, State.vtAt, Tbl.get_upd_other _ _ _ hj]

theorem State.bound_ctxAt : (s.bound v t c).ctxAt c =
    { s.ctxAt c with used := true, vt := BitVec.ofNat 16 v, ring := (s.vtAt v).ring, target := BitVec.ofNat 9 t, refilling := false } := by
  simp only [State.bound, State.ctxAt, Tbl.get_upd_same]

theorem State.bound_ctxAt_other {j : Nat} (hj : j ≠ c) : (s.bound v t c).ctxAt j = s.ctxAt j := by
  simp only [State.bound, State.ctxAt, Tbl.get_upd_other _ _ _ hj]

theorem State.bound_frameAt : (s.bound v t c).frameAt (2048 + c) = { (s.vtAt v).saved with shadow := 0, stage := 0, flag := false } := by
  simp only [State.bound, State.frameAt, Tbl.get_upd_same]

theorem State.bound_frameAt_other {j : Nat} (hj : j ≠ 2048 + c) : (s.bound v t c).frameAt j = s.frameAt j := by
  simp only [State.bound, State.frameAt, Tbl.get_upd_other _ _ _ hj]

theorem State.bound_stack : ((s.bound v t c).pairAt (4 * t + (s.vtAt v).ring.toNat)).stack =
    (s.vtAt v).savedAct.map (fun y => y.retag (BitVec.ofNat 9 t) (s.vtAt v).ring (some (BitVec.ofNat 11 c))) ++
      (s.pairAt (4 * t + (s.vtAt v).ring.toNat)).stack := by
  simp only [State.bound, State.pairAt, Tbl.get_upd_same]

end

/-- A save area zeroed as it is restored. -/
def State.zeroSaved (s : State) (v t : Nat) (area : BitVec 47) (n : Nat) : State :=
  foldBelow n (fun i s => (s.unretain (.actWrite (BitVec.ofNat 16 v) i)).memWrite (.zero 3 (t / 2)) (area + BitVec.ofNat 47 i) 0) s

theorem State.zeroSaved_ported (s : State) (v t : Nat) (area : BitVec 47) (n : Nat) : s.ported (s.zeroSaved v t area n) :=
  foldBelow_ported (fun _ u => (u.unretain_ported _).trans (State.memWrite_ported _ _ _ _)) n s

section
variable {s : State} {v : Nat} (t c : Nat) (hsuspect : (s.vtAt v).suspect = false) (hbiv : (s.vtAt v).bivouac = [])
  (hwaits : ∀ p ∈ s.xl.pos, p.waits = [])
include hsuspect hbiv hwaits

/-- With an empty bivouac there is nothing to refill. -/
theorem State.makeResident_eq : s.makeResident v t c =
    (((s.bound v t c).zeroSaved v t (s.vtAt v).area (s.vtAt v).savedAct.length).residentSlot c (s.vtAt v).owner (some (s.vtAt v).ring)).evalAll := by
  have hreleased := State.residentSlot_released (s := (s.bound v t c).zeroSaved v t (s.vtAt v).area (s.vtAt v).savedAct.length)
    (by rwa [(State.zeroSaved_ported _ _ _ _ _).xl]) c (s.vtAt v).owner (some (s.vtAt v).ring)
  rw [← hreleased]
  simp only [State.makeResident, State.updPair, State.updCtx, State.updFrame, State.updVt, State.bound, State.zeroSaved, hsuspect, hbiv, foldList,
    Bool.false_eq_true, if_false, List.isEmpty_nil, Bool.not_true]

/-- What VT_RESIDENT leaves of a virtual target with an empty bivouac. -/
theorem State.makeResident_effect : ∃ u, s.makeResident v t c = u ∧
    u = { s with
      vt := u.vt, ctx := u.ctx, frame := u.frame, pair := u.pair, acc := { s.acc with slot := u.acc.slot }, xl := u.xl, mem := u.mem, rat := u.rat,
      arb := u.arb } ∧
    (∀ j, j ≠ v → u.vtAt j = s.vtAt j) ∧
    u.vtAt v = { s.vtAt v with resident := true, slot := BitVec.ofNat 11 c, savedAct := [], dropTold := false } ∧
    u.ctxAt c = { s.ctxAt c with
      used := true, vt := BitVec.ofNat 16 v, ring := (s.vtAt v).ring, target := BitVec.ofNat 9 t, refilling := false } ∧
    (∀ j, j ≠ c → u.ctxAt j = s.ctxAt j) ∧ u.frameAt (2048 + c) = { (s.vtAt v).saved with shadow := 0, stage := 0, flag := false } ∧
    (∀ j, j ≠ 2048 + c → u.frameAt j = s.frameAt j) ∧
    (u.pairAt (4 * t + (s.vtAt v).ring.toNat)).stack =
      (s.vtAt v).savedAct.map (fun y => y.retag (BitVec.ofNat 9 t) (s.vtAt v).ring (some (BitVec.ofNat 11 c))) ++
        (s.pairAt (4 * t + (s.vtAt v).ring.toNat)).stack := by
  refine ⟨_, State.makeResident_eq t c hsuspect hbiv hwaits, ?_⟩
  have hport := (s.bound v t c).zeroSaved_ported v t (s.vtAt v).area (s.vtAt v).savedAct.length
  generalize (s.bound v t c).zeroSaved v t (s.vtAt v).area (s.vtAt v).savedAct.length = w at hport ⊢
  have hslot := w.residentSlot_frame c (s.vtAt v).owner (some (s.vtAt v).ring)
  generalize w.residentSlot c (s.vtAt v).owner (some (s.vtAt v).ring) = x at hslot ⊢
  have hvt (j : Nat) : x.evalAll.vtAt j = (s.bound v t c).vtAt j := by rw [x.evalAll_frame, hslot, hport.frame]; rfl
  have hctx (j : Nat) : x.evalAll.ctxAt j = (s.bound v t c).ctxAt j := by rw [x.evalAll_frame, hslot, hport.frame]; rfl
  have hframe (j : Nat) : x.evalAll.frameAt j = (s.bound v t c).frameAt j := by rw [x.evalAll_frame, hslot, hport.frame]; rfl
  have hstack (j : Nat) : (x.evalAll.pairAt j).stack = ((s.bound v t c).pairAt j).stack := by rw [x.evalAll_stack, hslot, hport.frame]; rfl
  refine ⟨?_, fun j hj => (hvt j).trans (s.bound_vtAt_other v t c hj), (hvt v).trans ((s.bound_vtAt v t c).trans ?_),
    (hctx c).trans (s.bound_ctxAt v t c), fun j hj => (hctx j).trans (s.bound_ctxAt_other v t c hj), (hframe _).trans (s.bound_frameAt v t c),
    fun j hj => (hframe j).trans (s.bound_frameAt_other v t c hj), (hstack _).trans (s.bound_stack v t c)⟩
  · rw [x.evalAll_frame, hslot, hport.frame]
    rfl
  · exact congrArg (fun l : List Inst =>
      { s.vtAt v with resident := true, slot := BitVec.ofNat 11 c, savedAct := [], bivouac := l, dropTold := false }) hbiv.symm

end

/-- A slot is free and the pair's stack has room: VT_RESIDENT takes the lowest one. -/
theorem State.vtResident_eq {s : State} {a : BitVec 448} {c : Nat} (htarget : (arg a 2 16 : BitVec 16).toNat < 512)
    (hdef : (s.vtAt (arg a 0 16 : BitVec 16).toNat).defined = true) (hres : (s.vtAt (arg a 0 16 : BitVec 16).toNat).resident = false)
    (hslot : firstBelow 2048 (fun c => !(s.ctxAt c).used && decide ((s.ctxAt c).zeroUntil ≤ s.clk.ticks)) = some c)
    (hsuspect : (s.vtAt (arg a 0 16 : BitVec 16).toNat).suspect = false)
    (hroom : (s.pairAt (4 * (arg a 2 16 : BitVec 16).toNat + (s.vtAt (arg a 0 16 : BitVec 16).toNat).ring.toNat)).stack.length +
      (s.vtAt (arg a 0 16 : BitVec 16).toNat).savedAct.length ≤ 16) :
    s.vtResident a =
      (okWith (resPut 0 (BitVec.ofNat 16 c)), s.makeResident (arg a 0 16 : BitVec 16).toNat (arg a 2 16 : BitVec 16).toNat c) := by
  have hbad : lowestBad [((s.vtAt (arg a 0 16 : BitVec 16).toNat).resident, 0), (decide (511 < (arg a 2 16 : BitVec 16).toNat), 2)] = none :=
    lowestBad_of_forall (by simp [hres]; omega)
  simp only [State.vtResident, hbad, hdef, hslot, hsuspect, Nat.not_lt.mpr hroom, Bool.not_true, Bool.false_eq_true, if_false]
  rfl

/-! ### VT_DESTROY -/

theorem areaPages_ne_zero (cap : BitVec 16) : areaPages cap ≠ 0 := by
  simp only [areaPages, ceilDiv]
  omega

/-- The zeroing of a virtual target's area that VT_DESTROY begins (log 56: under the BIVOUAC ration of the belay of DB_TARGET). -/
def Vt.areaZeroing (x : Vt) (v : Nat) : Zeroing :=
  { act := 3, belay := x.dbTarget.toNat / 2, page := field x.area 7 40, pages := areaPages x.cap,
    next := (field x.area 7 40 : BitVec 40) ++ (0#7 : BitVec 7), left := 16 + x.cap.toNat, vt := some (BitVec.ofNat 16 v) }

/-- Both lines of a descriptor zeroed under the BIVOUAC ration of belay `b`. -/
def State.zeroDescriptor (s : State) (v b : Nat) : State :=
  foldBelow 2 (fun i s => s.memWrite (.zero 3 b) (s.descAddr v + BitVec.ofNat 47 i) 0) s

theorem State.zeroDescriptor_ported (s : State) (v b : Nat) : s.ported (s.zeroDescriptor v b) :=
  foldBelow_ported (fun _ u => u.memWrite_ported _ _ _) 2 s

/-- A virtual target undefined, its descriptor and area left to be zeroed. -/
def State.undefined (s : State) (v : Nat) : State :=
  (((s.settleQuota 3 1 ((s.vtAt v).dbTarget.toNat / 2)).updVt v (fun _ => Vt.reset)).zeroDescriptor v ((s.vtAt v).dbTarget.toNat / 2)).modBoot
    (fun b => { b with zeroing := b.zeroing ++ [(s.vtAt v).areaZeroing v] })

theorem State.undefined_frame (s : State) (v : Nat) : s.undefined v =
    { s with
      vt := (s.undefined v).vt, rat := (s.undefined v).rat, mem := (s.undefined v).mem, arb := (s.undefined v).arb,
      boot := { s.boot with zeroing := s.boot.zeroing ++ [(s.vtAt v).areaZeroing v] } } := by
  unfold State.undefined State.modBoot
  rw [(State.zeroDescriptor_ported _ v _).frame, State.updVt, (s.settleQuota_ported 3 1 _).frame]

theorem State.undefined_vtAt (s : State) (v : Nat) : (s.undefined v).vtAt v = Vt.reset := by
  rw [State.undefined, State.modBoot_vtAt, (State.zeroDescriptor_ported _ v _).vtAt, State.updVt_vtAt_same]

theorem State.undefined_vtAt_other (s : State) {v j : Nat} (hj : j ≠ v) : (s.undefined v).vtAt j = s.vtAt j := by
  rw [State.undefined, State.modBoot_vtAt, (State.zeroDescriptor_ported _ v _).vtAt, State.updVt_vtAt_other _ _ _ hj, (s.settleQuota_ported 3 1 _).vtAt]

/-- VT_DESTROY of a virtual target that is not resident and holds nothing. -/
theorem State.destroy_eq {s : State} {v : Nat} (hres : (s.vtAt v).resident = false) (hbiv : (s.vtAt v).bivouac = [])
    (hact : (s.vtAt v).savedAct = []) : s.destroy v = (s.undefined v).evalAll := by
  simp only [State.destroy, hres, hbiv, hact, foldList, State.releasePages, areaPages_ne_zero, Bool.false_eq_true, if_false, State.undefined,
    State.zeroDescriptor, Vt.areaZeroing]

theorem State.vtDestroy_eq {s : State} {a : BitVec 448} (hdef : (s.vtAt (arg a 0 16 : BitVec 16).toNat).defined = true)
    (hrun : (s.vtAt (arg a 0 16 : BitVec 16).toNat).running = false) : s.vtDestroy a = (status 0, s.destroy (arg a 0 16 : BitVec 16).toNat) := by
  simp only [State.vtDestroy, hdef, hrun, Bool.not_true, Bool.false_eq_true, if_false]

end Sys2Proof.Machine
end

section
/-! SUPPORT. VT_EVICT (spec/08 R204, R205, R209). -/

namespace Sys2Proof.Machine

/-! ### What is put into a bivouac -/

/-- Nothing differs but what the writes to the area of virtual target `v` change: reports, rations, the memory port, groups and the logbook, and of the
virtual targets the bivouac and the drops of `v` alone. -/
structure State.filed (v : Nat) (s t : State) : Prop where
  frame : t = { s with cairn := t.cairn, rat := t.rat, mem := t.mem, arb := t.arb, grp := t.grp, log := t.log, vt := t.vt }
  other : ∀ j, j ≠ v → t.vtAt j = s.vtAt j
  area  : t.vtAt v = { s.vtAt v with bivouac := (t.vtAt v).bivouac, drops := (t.vtAt v).drops, dropTold := (t.vtAt v).dropTold }

theorem State.filed_refl (v : Nat) (s : State) : s.filed v s := ⟨rfl, fun _ _ => rfl, rfl⟩

theorem State.filed.trans {v : Nat} {s t u : State} (h : s.filed v t) (g : t.filed v u) : s.filed v u := by
  refine ⟨?_, fun j hj => (g.other j hj).trans (h.other j hj), ?_⟩
  · rw [g.frame, h.frame]
  · rw [g.area, h.area]

/-- A change beside the virtual targets. -/
theorem State.filed_of_vt (v : Nat) {s t : State}
    (hframe : t = { s with cairn := t.cairn, rat := t.rat, mem := t.mem, arb := t.arb, grp := t.grp, log := t.log }) :
    s.filed v t := by
  rw [hframe]
  exact ⟨rfl, fun _ _ => rfl, rfl⟩

theorem State.ported.filed {s t : State} (h : s.ported t) (v : Nat) : s.filed v t := State.filed_of_vt v (by rw [h.frame])

theorem State.updVt_filed {v : Nat} (s : State) {f : Vt → Vt}
    (hf : ∀ m, f m = { m with bivouac := (f m).bivouac, drops := (f m).drops, dropTold := (f m).dropTold }) : s.filed v (s.updVt v f) :=
  ⟨rfl, fun _ hj => s.updVt_vtAt_other v f hj, by rw [s.updVt_vtAt_same]; exact hf _⟩

theorem foldList_filed {α : Type} {v : Nat} {f : α → State → State} (hf : ∀ (a : α) (s : State), s.filed v (f a s)) (l : List α) (s : State) :
    s.filed v (foldList f l s) := by
  induction l generalizing s with
  | nil => exact s.filed_refl v
  | cons a as ih => exact (hf a s).trans (ih (f a s))

theorem State.groupNoPending_filed (s : State) (v g : Nat) : s.filed v (s.groupNoPending g) := by
  unfold State.groupNoPending
  split
  · exact s.filed_refl v
  · exact State.filed_of_vt v rfl

theorem State.ackAll_filed (s : State) (v : Nat) (l : List (BitVec 32)) : s.filed v (s.ackAll l) := State.filed_of_vt v (by rw [s.ackAll_frame])

theorem State.degrade_filed (s : State) (v : Nat) (b : Reporter) (kind : BitVec 8) (unit : BitVec 16) (detail : BitVec 32) :
    s.filed v (s.degrade b kind unit detail) := State.filed_of_vt v (by rw [State.degrade, State.report_frame])

/-- What a full bivouac discards: counted, its group freed, its serials acknowledged. -/
theorem State.bivouacDrop_filed (s : State) (v : Nat) (x : Inst) :
    s.filed v (((s.updVt v (fun m => { m with drops := satInc m.drops })).groupNoPending x.group.toNat).ackAll x.serials) :=
  ((s.updVt_filed fun _ => rfl).trans (State.groupNoPending_filed _ v _)).trans (State.ackAll_filed _ v _)

theorem State.bivouacPut_filed (s : State) (v : BitVec 16) (x : Inst) (landing : Bool) : s.filed v.toNat (s.bivouacPut v x landing) := by
  have hdrop := s.bivouacDrop_filed v.toNat x
  unfold State.bivouacPut
  dsimp only
  split
  · exact hdrop
  · split
    · split
      · exact hdrop
      · exact (hdrop.trans (State.updVt_filed _ fun _ => rfl)).trans (State.degrade_filed _ _ _ _ _ _)
    · refine State.filed.trans ?_ (((State.charge_ported _ _ _ _).trans (State.memWrite_ported _ _ _ _)).filed _)
      split
      · exact (s.updVt_filed fun _ => rfl).trans (State.filed_of_vt _ rfl)
      · exact s.updVt_filed fun _ => rfl

/-! ### The steps of an eviction -/

section
variable (s : State) (v : Nat)

/-- The target that a resident virtual target is bound to. -/
def State.boundTarget : Nat := (s.ctxAt (s.vtAt v).slot.toNat).target.toNat

/-- The pair that a resident virtual target is bound to. -/
def State.boundPair : Nat := 4 * s.boundTarget v + (s.ctxAt (s.vtAt v).slot.toNat).ring.toNat

/-- The pending instances that carry a virtual target's tag, with their places. -/
def State.taggedInsts : List (Nat × Inst) := (s.storeOf (s.boundTarget v)).filter (fun a => a.2.slot == some (s.vtAt v).slot)

/-- The active entries that carry a virtual target's tag. -/
def State.taggedActs : List Active := (s.pairAt (s.boundPair v)).stack.filter (fun a => a.inst.slot == some (s.vtAt v).slot)

/-- The bound pair and its target without what carries the tag. -/
def State.untagged : State :=
  ((s.cancelBivouac (s.vtAt v).slot.toNat).updStore (s.boundTarget v) (fun l => l.filter (fun y => y.slot != some (s.vtAt v).slot))).updPair
    (s.boundPair v) (fun p => { p with stack := p.stack.filter (fun a => a.inst.slot != some (s.vtAt v).slot) })

/-- The tagged instances put into the bivouac in rank order, and the tagged active entries written to the save area. -/
def State.areaWritten : State :=
  ((foldList (fun (y : Inst) u => u.bivouacPut (BitVec.ofNat 16 v) { y with target := (s.vtAt v).dbTarget, slot := none } false)
    (byRank (s.taggedInsts v).length (s.taggedInsts v)) (s.untagged v)).updVt v (fun m =>
      { m with bivouac := evictOrder (((s.taggedInsts v).filter (fun a => a.2.refilled)).map (fun a => a.2.serial))
                ((s.vtAt v).bivouac.map (fun y => y.serial)) m.bivouac })).saveActs v (s.taggedActs v)

/-- The slot given up: the saved fields kept with the virtual target, frame and context zeroed. -/
def State.unbound : State :=
  (((s.areaWritten v).updVt v (fun m =>
    { m with
      resident := false, slot := 0, savedAct := (s.taggedActs v).map (fun a => a.retag m.dbTarget m.ring none),
      saved := { s.frameAt (2048 + (s.vtAt v).slot.toNat) with shadow := 0, stage := 0, flag := false } })).updFrame (2048 + (s.vtAt v).slot.toNat)
        (fun _ => Frame.reset)).updCtx (s.vtAt v).slot.toNat (fun _ => { Ctx.reset with zeroUntil := (s.areaWritten v).clk.ticks + 4 })

theorem State.untagged_frame : s.untagged v =
    { s with mem := (s.untagged v).mem, tgt := (s.untagged v).tgt, pair := (s.untagged v).pair } := by
  simp only [State.untagged, State.cancelBivouac, State.modMem, State.updStore, State.updTgt, State.updPair]

theorem State.untagged_vtAt (j : Nat) : (s.untagged v).vtAt j = s.vtAt j := by rw [s.untagged_frame]; rfl

theorem State.untagged_store : ((s.untagged v).tgtAt (s.boundTarget v)).store =
    ((s.tgtAt (s.boundTarget v)).store.filter (fun y => y.slot != some (s.vtAt v).slot)) := by
  rw [State.untagged, State.updPair_tgtAt, State.updStore, State.updTgt_tgtAt_same]
  rfl

theorem State.untagged_stack : ((s.untagged v).pairAt (s.boundPair v)).stack =
    (s.pairAt (s.boundPair v)).stack.filter (fun a => a.inst.slot != some (s.vtAt v).slot) := by
  rw [State.untagged, State.updPair_pairAt_same]
  rfl

theorem State.saveActs_ported (acts : List Active) : s.ported (s.saveActs v acts) :=
  foldList_ported (fun _ u => (u.charge_ported _ _ _).trans (State.memWrite_ported _ _ _ _)) _ s

/-- Instances put into a bivouac one after another. -/
theorem State.putAll_filed {v : Nat} (hv : v < 65536) (f : Inst → Inst) (l : List Inst) (s : State) :
    s.filed v (foldList (fun (y : Inst) u => u.bivouacPut (BitVec.ofNat 16 v) (f y) false) l s) := by
  have hput (y : Inst) (u : State) := u.bivouacPut_filed (BitVec.ofNat 16 v) (f y) false
  rw [BitVec.toNat_ofNat, Nat.mod_eq_of_lt hv] at hput
  exact foldList_filed hput l s

theorem State.areaWritten_filed {v : Nat} (hv : v < 65536) : (s.untagged v).filed v (s.areaWritten v) :=
  ((State.putAll_filed hv _ _ _).trans (State.updVt_filed _ fun _ => rfl)).trans ((State.saveActs_ported _ v _).filed v)

end

/-! ### The eviction -/

/-- VT_EVICT of a resident virtual target that does not run. -/
theorem State.vtEvict_resident {s : State} {a : BitVec 448} (hres : (s.vtAt (arg a 0 16 : BitVec 16).toNat).resident = true)
    (hrun : (s.vtAt (arg a 0 16 : BitVec 16).toNat).running = false) : s.vtEvict a = (status 0, s.evict (arg a 0 16 : BitVec 16).toNat) := by
  simp only [State.vtEvict, hres, hrun, Bool.not_true, Bool.false_eq_true, if_false]

/-- VT_EVICT of a virtual target that is not resident finds nothing. -/
theorem State.vtEvict_absent {s : State} {a : BitVec 448} (hres : (s.vtAt (arg a 0 16 : BitVec 16).toNat).resident = false) :
    s.vtEvict a = (status 6, s) := by
  simp only [State.vtEvict, hres, Bool.not_false, if_true]

section
variable {s : State} {v : Nat}

theorem State.unbound_vtAt : (s.unbound v).vtAt v =
    { (s.areaWritten v).vtAt v with
      resident := false, slot := 0,
      savedAct := (s.taggedActs v).map (fun a => a.retag ((s.areaWritten v).vtAt v).dbTarget ((s.areaWritten v).vtAt v).ring none),
      saved := { s.frameAt (2048 + (s.vtAt v).slot.toNat) with shadow := 0, stage := 0, flag := false } } := by
  rw [State.unbound, State.updCtx_vtAt, State.updFrame_vtAt, State.updVt_vtAt_same]

theorem State.unbound_vtAt_other {j : Nat} (hj : j ≠ v) : (s.unbound v).vtAt j = (s.areaWritten v).vtAt j := by
  rw [State.unbound, State.updCtx_vtAt, State.updFrame_vtAt, State.updVt_vtAt_other _ _ _ hj]

theorem State.unbound_frameAt : (s.unbound v).frameAt (2048 + (s.vtAt v).slot.toNat) = Frame.reset := by
  rw [State.unbound, State.updCtx_frameAt, State.updFrame_frameAt_same]

theorem State.unbound_ctxAt : (s.unbound v).ctxAt (s.vtAt v).slot.toNat = { Ctx.reset with zeroUntil := (s.areaWritten v).clk.ticks + 4 } := by
  rw [State.unbound, State.updCtx_ctxAt_same]

theorem State.unbound_frame : s.unbound v =
    { s.areaWritten v with vt := (s.unbound v).vt, frame := (s.unbound v).frame, ctx := (s.unbound v).ctx } := by
  simp only [State.unbound, State.updVt, State.updFrame, State.updCtx]

variable (hv : v < 65536)
include hv

theorem State.unbound_outer : s.unbound v =
    { s with
      tgt := (s.untagged v).tgt, pair := (s.untagged v).pair, frame := (s.unbound v).frame, ctx := (s.unbound v).ctx, vt := (s.unbound v).vt,
      cairn := (s.unbound v).cairn, rat := (s.unbound v).rat, mem := (s.unbound v).mem, grp := (s.unbound v).grp, log := (s.unbound v).log,
      arb := (s.unbound v).arb } := by
  rw [State.unbound_frame, (s.areaWritten_filed hv).frame, s.untagged_frame]

variable (hwaits : ∀ p ∈ s.xl.pos, p.waits = [])
include hwaits

theorem State.evict_eq : s.evict v =
    ((((s.unbound v).writeVt v).residentSlot (s.vtAt v).slot.toNat (s.vtAt v).owner none).pumpRefill (s.boundTarget v)).evalAll := by
  have hpos : ((s.unbound v).writeVt v).xl.pos = s.xl.pos := by
    rw [((s.unbound v).writeVt_ported v).xl, State.unbound_frame, (s.areaWritten_filed hv).frame, s.untagged_frame]
  have hreleased := State.residentSlot_released (by rwa [hpos]) (s.vtAt v).slot.toNat (s.vtAt v).owner none
  rw [← hreleased]
  simp only [State.evict, State.unbound, State.areaWritten, State.untagged, State.taggedInsts, State.taggedActs, State.boundPair, State.boundTarget,
    State.updVt_clk, State.updFrame_clk]

/-- After the slot is given up an eviction writes the descriptor, sets the access slot, reads back and evaluates the levels. -/
theorem State.evict_frame : s.evict v =
    { s.unbound v with
      pair := (s.evict v).pair, mem := (s.evict v).mem, rat := (s.evict v).rat, arb := (s.evict v).arb, acc := (s.evict v).acc, xl := (s.evict v).xl } := by
  rw [State.evict_eq hv hwaits, State.evalAll_frame, (State.pumpRefill_ported _ _).frame, State.residentSlot_frame, (State.writeVt_ported _ v).frame]

theorem State.evict_stack (k : Nat) : ((s.evict v).pairAt k).stack = ((s.unbound v).pairAt k).stack := by
  have hpair : ((((s.unbound v).writeVt v).residentSlot (s.vtAt v).slot.toNat (s.vtAt v).owner none).pumpRefill (s.boundTarget v)).pair =
      (s.unbound v).pair := by
    rw [(State.pumpRefill_ported _ _).frame, State.residentSlot_frame, (State.writeVt_ported _ v).frame]
  rw [State.evict_eq hv hwaits, State.evalAll_stack]
  exact congrArg (fun l => (Tbl.get Pair.reset l k).stack) hpair

/-- What VT_EVICT leaves. -/
theorem State.evict_effect : ∃ u, s.evict v = u ∧
    u = { s with
      tgt := u.tgt, pair := u.pair, frame := u.frame, ctx := u.ctx, vt := u.vt, cairn := u.cairn, rat := u.rat, mem := u.mem, arb := u.arb,
      grp := u.grp, log := u.log, acc := u.acc, xl := u.xl } ∧
    (∀ j, j ≠ v → u.vtAt j = s.vtAt j) ∧ (u.vtAt v).resident = false ∧ (u.vtAt v).slot = 0 ∧ (u.vtAt v).defined = (s.vtAt v).defined ∧
    (u.vtAt v).savedAct = (s.taggedActs v).map (fun a => a.retag (s.vtAt v).dbTarget (s.vtAt v).ring none) ∧
    (u.vtAt v).saved = { s.frameAt (2048 + (s.vtAt v).slot.toNat) with shadow := 0, stage := 0, flag := false } ∧
    u.frameAt (2048 + (s.vtAt v).slot.toNat) = Frame.reset ∧ (u.ctxAt (s.vtAt v).slot.toNat).used = false ∧
    (u.pairAt (s.boundPair v)).stack = (s.pairAt (s.boundPair v)).stack.filter (fun a => a.inst.slot != some (s.vtAt v).slot) ∧
    ∀ y ∈ (u.tgtAt (s.boundTarget v)).store, y.slot ≠ some (s.vtAt v).slot := by
  have hframe := State.evict_frame hv hwaits
  have houter := State.unbound_outer (s := s) hv
  have hvts : (s.evict v).vt = (s.unbound v).vt := by rw [hframe]
  have hctxs : (s.evict v).ctx = (s.unbound v).ctx := by rw [hframe]
  have hframes : (s.evict v).frame = (s.unbound v).frame := by rw [hframe]
  have htgts : (s.evict v).tgt = (s.untagged v).tgt := by rw [hframe, houter]
  have hpairs : (s.unbound v).pair = (s.untagged v).pair := by rw [houter]
  have hvt (j : Nat) : (s.evict v).vtAt j = (s.unbound v).vtAt j := congrArg (fun l => Tbl.get Vt.reset l j) hvts
  have hctx (j : Nat) : (s.evict v).ctxAt j = (s.unbound v).ctxAt j := congrArg (fun l => Tbl.get Ctx.reset l j) hctxs
  have hfr (j : Nat) : (s.evict v).frameAt j = (s.unbound v).frameAt j := congrArg (fun l => Tbl.get Frame.reset l j) hframes
  have htgt (j : Nat) : (s.evict v).tgtAt j = (s.untagged v).tgtAt j := congrArg (fun l => Tbl.get Target.reset l j) htgts
  have hpair (j : Nat) : (s.unbound v).pairAt j = (s.untagged v).pairAt j := congrArg (fun l => Tbl.get Pair.reset l j) hpairs
  have harea := (s.areaWritten_filed hv).area
  rw [s.untagged_vtAt] at harea
  have hdefined : ((s.areaWritten v).vtAt v).defined = (s.vtAt v).defined := by rw [harea]
  refine ⟨_, rfl, ?_, fun j hj => ?_, ?_, ?_, ?_, ?_, ?_, (hfr _).trans State.unbound_frameAt, ?_, ?_, fun z hz => ?_⟩
  · rw [hframe, houter]
  · rw [hvt, State.unbound_vtAt_other hj, (s.areaWritten_filed hv).other j hj, s.untagged_vtAt]
  · rw [hvt, State.unbound_vtAt]
  · rw [hvt, State.unbound_vtAt]
  · rw [hvt, State.unbound_vtAt]
    exact hdefined
  · rw [hvt, State.unbound_vtAt, ← congrArg Vt.dbTarget harea, ← congrArg Vt.ring harea]
  · rw [hvt, State.unbound_vtAt]
  · rw [hctx, State.unbound_ctxAt]
    rfl
  · rw [State.evict_stack hv hwaits, hpair, s.untagged_stack]
  · rw [htgt, s.untagged_store] at hz
    simpa using (List.mem_filter.mp hz).2

end

end Sys2Proof.Machine
end

section
/-! SUPPORT. The virtual-target commands of a mailbox, from their turn to their answer (spec/08 R202 to R207). -/

namespace Sys2Proof.Machine

/-- Settles O51: each command's effect on the state in which it has begun, carried over to the state before it. The record of VT_DESTROY's zeroing and its
placement are the model's choice (log 56). -/
theorem virtualTargetsLive : Obligations.VirtualTargetsLive := by
  unfold Obligations.VirtualTargetsLive
  intro m i s hready a v x othersOf
  have hv : v < 65536 := (arg a 0 16 : BitVec 16).isLt
  have hring01 (hm : m.val ≤ 1) : Issuers.ring01.allow m.val = true := decide_eq_true hm
  obtain ⟨b, hb⟩ : ∃ b, s.begun m.val i = s.deskOf b := ⟨_, rfl⟩
  refine ⟨fun h hm hfree hdef howner hring htarget hdbRing hlevel hcap1 hcap hspace hzero => ?_,
    fun c h hm htarget hdef hres hslot hsuspect hbiv hroom hwaits => ?_, fun h hm hres hrun hwaits => ?_, fun h hm hdef hres hrun hbiv hact => ?_,
    fun h hm hres => ?_, fun h hm => ?_⟩
  · -- VT_CREATE
    obtain ⟨page, u, hf, hframe, hothers, hat, hasks⟩ := State.vtCreate_effect (s := s.deskOf b) (a := a)
      ⟨howner, hring, htarget, hdbRing, hlevel, hcap1, hcap⟩ hdef hspace hzero hfree
    exact ⟨_, u.deskOf s, page, rfl, State.command_answered h hb rfl (hring01 hm) hready hf (congrArg State.mbx hframe :) (congrArg State.camp hframe :),
      hasks, (congrArg (fun w : State => w.deskOf s) hframe :), hothers, hat⟩
  · -- VT_RESIDENT
    obtain ⟨u, hu, hframe, heffect⟩ := State.makeResident_effect (s := s.deskOf b) (v := v) (arg a 2 16 : BitVec 16).toNat c hsuspect hbiv
      (fun p hp => (hwaits p hp).1)
    have hf := State.vtResident_eq (s := s.deskOf b) (a := a) htarget hdef hres hslot hsuspect hroom
    rw [hu] at hf
    exact ⟨_, u.deskOf s, rfl, State.command_answered h hb rfl (hring01 hm) hready hf (congrArg State.mbx hframe :) (congrArg State.camp hframe :),
      (congrArg (fun w : State => w.deskOf s) hframe :), heffect⟩
  · -- VT_EVICT
    obtain ⟨u, hu, hframe, hothers, hleft, hslot, hdefined, heffect⟩ := State.evict_effect (s := s.deskOf b) (v := v) hv (fun p hp => (hwaits p hp).1)
    have hf := State.vtEvict_resident (s := s.deskOf b) (a := a) hres hrun
    rw [hu] at hf
    exact ⟨_, u.deskOf s, rfl, State.command_answered h hb rfl (hring01 hm) hready hf (congrArg State.mbx hframe :) (congrArg State.camp hframe :), hothers,
      (congrArg State.clk hframe :), (congrArg State.wired hframe :), (congrArg State.links hframe :), hleft, hslot, hdefined, heffect⟩
  · -- VT_DESTROY
    have hf : (s.deskOf b).vtDestroy a = (status 0, (s.deskOf b).destroy v) := State.vtDestroy_eq hdef hrun
    rw [State.destroy_eq (s := s.deskOf b) hres hbiv hact] at hf
    have hframe := (s.deskOf b).undefined_frame v
    have hat := (s.deskOf b).undefined_vtAt v
    have hothers : ∀ j, j ≠ v → ((s.deskOf b).undefined v).vtAt j = (s.deskOf b).vtAt j := fun j hj => (s.deskOf b).undefined_vtAt_other hj
    generalize (s.deskOf b).undefined v = u at hf hframe hat hothers
    exact ⟨_, u.deskOf s, u.evalAll.deskOf s, rfl, State.command_answered_levels h hb rfl (hring01 hm) hready hf
      (congrArg State.mbx hframe :) (congrArg State.camp hframe :), onlyLevels_deskOf (onlyLevels_evalAll u) s,
      (congrArg (fun w : State => w.deskOf s) hframe :), hothers, hat⟩
  · -- VT_EVICT of a virtual target that is not resident
    exact ⟨_, rfl, State.command_answered (v := s.deskOf b) h hb rfl (hring01 hm) hready (State.vtEvict_absent (s := s.deskOf b) (a := a) hres) rfl rfl⟩
  · -- VT_RUN, to start and to stop
    intro T n w hT hn
    refine ⟨fun y hstop hy hres hyT hyn hyv hidle => ?_, fun c r hstop hrunning hr => ?_⟩
    · subst hy
      have hf := State.vtRun_start (s := s.deskOf b) (a := a) hm hT hn hstop rfl hres hyT hyn hyv hidle
      exact ⟨_, _, _, rfl, State.command_answered_levels h hb rfl rfl hready hf rfl rfl,
        State.switched_levels s b _ _ _ _, rfl, s.switched_vtAt _ _ _ _,
        fun j hj => s.switched_vtAt_other _ _ _ hj, s.switched_pairAt _ _ _ _, fun j hj => s.switched_pairAt_other _ _ _ hj⟩
    · obtain ⟨d, hd, hf⟩ := State.vtRun_stop (s := s.deskOf b) (a := a) hm hT hn hstop hrunning hr
      exact ⟨_, _, _, d, rfl, State.command_answered_levels h hb rfl rfl hready hf rfl rfl,
        hd, State.switched_levels s b _ _ _ _, rfl, s.switched_vtAt _ _ _ _,
        fun j hj => s.switched_vtAt_other _ _ _ hj, s.switched_pairAt _ _ _ _, fun j hj => s.switched_pairAt_other _ _ _ hj⟩

end Sys2Proof.Machine
end
